-- ==== Sys2Proof/Word.lean ====
section
/-! DEFINITION. Word types of the Doliofort (R6, R7): bytes, 32-bit register words, device addresses. -/

namespace Sys2Proof

/-- One byte of device memory, of a record or of a register (R6). -/
abbrev Byte := BitVec 8

/-- One 32-bit register word (R7), general register or accumulator element. -/
abbrev Word := BitVec 32

/-- One core or stream unit instruction (R67, R165). -/
abbrev IWord := BitVec 128

/-- A byte string in ascending address order. -/
abbrev Bytes := List Byte

/-- A value cut to `w` bits: register fields wrap at their width. -/
def trunc (w v : Nat) : Nat := v % 2 ^ w

end Sys2Proof
end

