-- ==== Sys2Proof/Syntax.lean ====
section
/-! DEFINITION. The commands of the block (spec/opcode_table.json), one constructor per row, and the operands they carry. Indices of units are bounded by type; `i` in a message row is the position of the arriving message among the messages in flight. -/

namespace Sys2Proof

/-- A member record of the SEQ section (R229). `twoHalves` says that the member's input handle has two halves (R204). -/
structure MemberRec where
  master : Nat
  task : Nat
  frameMember : Bool
  armsWc : Bool
  topPad : Bool
  downNs : Nat
  y : Nat
  hi : Nat
  delta : Nat
  edgeL : Bool
  edgeR : Bool
  wc : Nat
  wcCluster : Nat
  botFrom : Nat
  twoHalves : Bool
  deriving DecidableEq, Repr

/-- A pipeline record of the SEQ section with its members (R229). -/
structure PipeRec where
  pipe : Nat
  analysis : Bool
  retime : Bool
  output : Nat
  stream : Nat
  layer : Nat
  h : Nat
  stripes : Nat
  leadNs : Nat
  members : List MemberRec
  deriving DecidableEq, Repr

/-- A CURVE record (R230, R281). -/
structure CurveRec where
  target : Nat
  x0 : Word
  istep : Word
  loMode : Nat
  hiMode : Nat
  entries : List Word
  deriving DecidableEq, Repr

/-- A boundary engine layer of BE_TABLES (R124 to R129): one first or last layer of one pipeline. `seamL` and `seamR`: the seam handles of a last layer that reads
columns of a neighbour device (R335). `tsize` and `thalves`: the SIZE and HALVES the layer's route is given (R217); `haloTcore`: where the halo route leads if not to `tcore`; `load`: the
declared ring cycles per second (R130). -/
structure BeLayer where
  pipe : Nat
  last : Bool
  engines : BitVec 4
  inW : Nat
  inH : Nat
  w : Nat
  ci : Nat
  co : Nat
  fh : Nat
  fw : Nat
  sv : Nat
  sh : Nat
  padT : Nat
  padL : Nat
  padMode : Nat
  fmt : Nat
  weights : List Word
  bias : List Word
  scale : List Word
  act : Nat
  actLo : Word
  actHi : Word
  actCurve : Nat
  outFmt : Nat
  stream : Nat
  colour : Nat
  chanCurve : List Nat
  matrix : List Word
  offset : List Word
  inCore : Nat
  inHandle : Nat
  inHalo : Nat
  inEta : Nat
  inBase : Nat
  inPitch : Nat
  halves : Bool
  tcore : Nat
  thandle : Nat
  route : Nat
  outBase : Nat
  outPitch : Nat
  haloHandle : Nat
  haloRoute : Nat
  eta : Nat
  layer : Nat
  seamL : Option Nat := none
  seamR : Option Nat := none
  tsize : Nat := 0
  thalves : Nat := 0
  haloTcore : Option Nat := none
  load : Nat := 0
  deriving DecidableEq, Repr

/-- Target core or group of a layer's halo route. -/
def BeLayer.haloCore (l : BeLayer) : Nat := l.haloTcore.getD l.tcore

/-- A record of the PHASES section (R343). -/
structure PhaseRec where
  op : Nat
  minLimit : Nat
  rank : Nat
  declMw : Nat
  pipes : BitVec 64
  deriving DecidableEq, Repr

/-- A descriptor of the ANALYSIS section (R402). -/
structure AnalysisRec where
  kind : Nat
  pipe : Nat
  writer : Nat
  records : Nat
  values : Nat
  stage : Nat
  deriving DecidableEq, Repr

/-- A colour entry of the FORMAT section (R404). -/
structure ColourEntry where
  linear : Bool
  alphaSrc : Nat
  alphaK : Word
  off1 : List Word
  gain : List Word
  mat : List Word
  off2 : List Word
  deriving DecidableEq, Repr

/-- A layer along one axis (R109): input extent I, filter size F, dilation D, stride S, and padding P_lo and P_hi. -/
structure Geo where
  i : Nat
  f : Nat
  d : Nat
  s : Nat
  lo : Nat
  hi : Nat
  deriving DecidableEq, Repr

/-- A stage of the STAGE_MAP section (R196, R197, R214): its pipeline, split mode (0 ONE, 1 TILES, 2 STATIC, 3 CHANNELS), cores, whether it accumulates on write;
the places of its members in the pipeline's member records, the stages it feeds, its layer on each axis (none for a data movement), the block factor of its depth-to-space
DRAIN (R198), whether its input handle has two halves (R204); and the times PLAN_DESC declares for it in ns (R221): τ, τ0, ω, φ. -/
structure StageRec where
  pipe : Nat
  split : Nat
  cores : List Nat
  aow : Bool
  members : List Nat := []
  feeds : List Nat := []
  vert : Option Geo := none
  horz : Option Geo := none
  block : Nat := 1
  twoHalves : Bool := false
  tauNs : Nat := 0
  tau0Ns : Nat := 0
  omegaNs : Nat := 0
  phiNs : Nat := 0
  deriving DecidableEq, Repr

/-- The weight ring of a cluster (R214 to R216): the LPDDR6 address and number of STREAMED slices, the window handle, the bytes of a slice. -/
structure RingRec where
  source : Nat
  slices : Nat
  cluster : Nat
  handle : Nat
  bytes : Nat
  deriving DecidableEq, Repr

/-- What Keeper reads of a plan from the sections whose layout the manual does not give (R227): PLAN_DESC with the LPDDR6 bytes per second and the LPDDR6 regions it declares (R220,
R232), STAGE_MAP, CORE_PROG, SU_PROG, WEIGHTS and BE_TABLES. -/
structure PlanDesc where
  needCores : List Nat := []
  needBe : BitVec 4 := 0
  qualityPm : Nat := 0
  linePm : Nat := 0
  ddrBps : Nat := 0
  regions : List (Nat × Nat) := []
  programs : List (Nat × Nat × IWord) := []
  suPrograms : List (Nat × Nat × IWord) := []
  stages : List StageRec := []
  beLayers : List BeLayer := []
  weights : List (Nat × Nat × Bytes) := []
  rings : List RingRec := []
  deriving DecidableEq, Repr

/-- One plan of a configuration image: its description, the pairs of its REGSET section, and the records of its SEQ section (R229). -/
structure Plan extends PlanDesc where
  regset : List (Nat × Nat) := []
  pipes : List PipeRec := []
  deriving DecidableEq, Repr

/-- What Keeper finds when its image checks end (R232): a code of R232 for a check the model does not compute (0: none), the detail it reports for it, and what it reads of each
plan. The sections whose layout the manual gives are read from the image's bytes. -/
structure ImgFound where
  code : Nat := 0
  detPipe : Nat := 0
  detStage : Nat := 0
  detCore : Nat := 0x7F
  detPlan : Nat := 0
  detItem : Nat := 0
  plans : List PlanDesc := []
  deriving DecidableEq, Repr

/-- The content of a configuration image as Keeper holds it: its plans and the records of the CURVE, FORMAT, PHASES and ANALYSIS sections. -/
structure ImgReport where
  plans : List Plan := []
  curves : List CurveRec := []
  colours : List (Nat × ColourEntry) := []
  hcoefs : List (Nat × List Int) := []
  vcoefs : List (Nat × List Int) := []
  phases : List PhaseRec := []
  analysis : List AnalysisRec := []
  deriving DecidableEq, Repr

/-- A heartbeat of the Beacon link (R314, R322, R338). `claim`: the sender's claim shows in it (R322). -/
structure Heartbeat where
  sideB : Bool
  pos : Nat
  serial : Nat
  role : Nat
  ready : Bool
  frame : Nat
  epoch : Nat
  handover : Bool
  claim : Bool
  minSlack : Int
  minPos : Nat
  ePresent : Bool
  wPresent : Bool
  deriving DecidableEq, Repr

/-- A frame token (R327). -/
structure FrameToken where
  frame : Nat
  masterTime : Nat
  leadNs : Nat
  hops : Nat
  deriving DecidableEq, Repr

/-- A Keeper message (R313): what the owner, or the shown device, sends its twin (R319, R323, R435, R437, R430). -/
inductive KeeperMsg where
  | committed (pairs : List (Nat × Nat))
  | image (digest : Bytes) (plan : Nat) (proto : Nat)
  | link (out : Fin 2) (rate lanes : Nat) (fec dsc scrambled : Bool)
  | panel (out : Fin 2) (id : Option Nat)
  | tile (out : Fin 2) (t : Fin 64) (eeprom : Option Bytes)
  | wear (out : Fin 2) (incs : List (Nat × Nat))
  deriving DecidableEq, Repr

/-- A seam slot, or a part of one (R332, R334): its transactions, each a half offset, its bytes, and which of them are poisoned (R190). -/
structure SeamSlot where
  k : Nat
  epoch : Nat
  deadline : Nat
  txns : List (Nat × Bytes × List Nat)
  deriving DecidableEq, Repr

/-- What link training reaches (R266): the committed setting, a fallback, or failure. -/
inductive LinkResult where
  | trained (rate lanes : Nat) (fec : Bool)
  | fallback (rate lanes : Nat) (fec : Bool)
  | failed
  deriving DecidableEq, Repr

/-- A rail that the internal monitors watch (R454). -/
inductive WatchedRail where
  | io18 | soc | core
  deriving DecidableEq, Repr

/-- The single-ended signals that the boundary-scan register covers (R456, R460): those of the port itself are none of them. -/
inductive Signal where
  | sysResetN | faultN | thermtripN | testEn | perstN
  | twinOwn (o : Fin 2)
  | twinSel (o : Fin 2)
  | auxpTe | auxpRstN
  | outHpd (o : Fin 2)
  | inHpd (m : Fin 4)
  | inDet5v (m : Fin 4)
  | outDdcScl (o : Fin 2)
  | outDdcSda (o : Fin 2)
  | inDdcScl (m : Fin 4)
  | inDdcSda (m : Fin 4)
  | i2cScl (n : Fin 2)
  | i2cSda (n : Fin 2)
  | pmbScl | pmbSda | pmbAlertN
  | qspiClk | qspiCsN
  | qspiIo (i : Fin 4)
  | qspiRstN
  | gpio (i : Fin 16)
  deriving DecidableEq, Repr

/-- A member of a pipeline that holds a launch queue (R202). -/
inductive QueueId where
  | core (c : Fin 72) (t : Fin 8)
  | su (k : Fin 128)
  deriving DecidableEq, Repr

/-- A unit that TOP_UNFREEZE names (R371). -/
structure UnitId where
  kind : Fin 8
  index : Fin 128
  deriving DecidableEq, Repr

/-- What an input port sees of its source (R407, R412). -/
structure InSignal where
  state : Fin 6
  iface : Nat
  encoding : Nat
  bpc : Nat
  limited : Bool
  colorimetry : Nat
  eotf : Nat
  hactive : Nat
  vactive : Nat
  rateMhz : Nat
  linkRate : Nat
  linkLanes : Nat
  deriving DecidableEq, Repr

/-- Where an input frame comes from (R396): the host copy of a stream, or an input port. -/
inductive InputSource where
  | host (s : Fin 16)
  | port (m : Fin 4)
  deriving DecidableEq, Repr

/-- What the host has set in configuration space (R386, R387, R391, R392): Bus Master Enable, MSI-X Enable, Function Mask, ASPM L1 enabled, power state D3hot. -/
structure HostCfg where
  bme : Bool := false
  msixEn : Bool := false
  funcMask : Bool := false
  l1En : Bool := false
  d3hot : Bool := false
  deriving DecidableEq, Repr

/-- How an endpoint reset arises (R387). -/
inductive EndpointCause where
  | perst | linkDown | hotReset | flr
  deriving DecidableEq, Repr

/-- The commands: one constructor per row of the opcode table. -/
inductive Instr where
  -- core instructions: core `c` issues the next instruction of its selected task (R68)
  | nop (c : Fin 72)
  | endTask (c : Fin 72)
  | yieldTask (c : Fin 72)
  | loop (c : Fin 72)
  | br (c : Fin 72)
  | sop (c : Fin 72)
  | arop (c : Fin 72)
  | srset (c : Fin 72)
  | ldmask (c : Fin 72)
  | take (c : Fin 72)
  | doneLease (c : Fin 72)
  | waittag (c : Fin 72)
  | settag (c : Fin 72)
  | mma (c : Fin 72)
  | mmat (c : Fin 72)
  | dwb (c : Fin 72)
  | drain (c : Fin 72)
  | vadd (c : Fin 72)
  | vpool (c : Fin 72)
  | vcvt (c : Fin 72)
  | vpad (c : Fin 72)
  -- core events and messages
  | settagRelease (c : Fin 72) (i : Nat)
  | taskLaunch (i : Nat)
  | tagUpdate (i : Nat)
  | writeTransaction (i : Nat)
  | creditReturn (i : Nat)
  | tagVisible (c : Fin 72) (slot : Fin 128)
  | takeResponse (i : Nat)
  | doneResponse (i : Nat)
  | taskStall (c : Fin 72) (t : Fin 8)
  -- work counters
  | wcTake (i : Nat)
  | wcDone (i : Nat)
  | wcArm (i : Nat)
  | freezeMessage (i : Nat)
  | closeMessage (i : Nat)
  | leaseExpired (n : Fin 8) (w : Fin 32) (i : Nat)
  | leaseUnclosed (n : Fin 8) (w : Fin 32) (i : Nat)
  | rotationStep (n : Fin 8) (k : Fin 9)
  -- stream unit instructions: stream unit `u` issues its next instruction (R169)
  | suNop (u : Fin 128)
  | suEnd (u : Fin 128)
  | suLoop (u : Fin 128)
  | pset (u : Fin 128)
  | pstr (u : Fin 128)
  | nset (u : Fin 128)
  | dladd (u : Fin 128)
  | suSettag (u : Fin 128)
  | move (u : Fin 128)
  | movet (u : Fin 128)
  | gather (u : Fin 128)
  | frame (u : Fin 128)
  | fence (u : Fin 128)
  -- stream unit events
  | suLaunch (i : Nat)
  | suRequest (u : Fin 128)
  | suReadReturn (u : Fin 128) (i : Nat) (ext : Bytes) (poisoned : Bool)
  | suDrainDone (u : Fin 128)
  | creditStall (u : Fin 128)
  | reinitHandlesReset (p : Fin 64)
  -- memories
  | ddrCommandSlot (ch : Fin 12)
  | spScrub (c : Fin 72) (b : Fin 48)
  | zfillDone (c : Fin 72) (slot : Fin 128)
  | pgPowerDown (c : Fin 72) (b : Fin 48)
  | pgTimeout (c : Fin 72) (b : Fin 48)
  | bankFillDone (c : Fin 72) (b : Fin 48)
  | rowMapOut (cls : Fin 4) (location : BitVec 27)
  -- sequencer
  | chainCommand (p : Fin 64)
  | launchDequeue (q : QueueId)
  | sourceLatch (p : Fin 64)
  -- boundary engines, guard paths, line buffers
  | beRow (e : Fin 4)
  | beRowDone (e : Fin 4)
  | guardPathStart (j : Fin 16)
  | guardLine (j : Fin 16)
  | lbRowFetch (j : Fin 16)
  -- boundaries, lines, flips
  | frameBoundary (o : Fin 2)
  | idleBoundary
  | lineStart (o : Fin 2)
  | lineDeadline (o : Fin 2)
  | fenceReadReturn (j : Fin 16)
  | fenceTimeout (o : Fin 2)
  | wbFrameDone (o : Fin 2)
  -- outputs
  | referenceEdge (o : Fin 2) (phase : Nat) (periodNs : Nat)
  | glRefLost (o : Fin 2)
  | hpdAssert (o : Fin 2)
  | hpdDeassert (o : Fin 2)
  | linkTrained (o : Fin 2) (r : LinkResult) (displayId : Option Bytes)
  | linkRetry (o : Fin 2)
  | auxpPeriod
  | auxpTe
  | auxpTeTimeout
  -- Lantern events
  | lanHeldWrite
  | lanCopyDone (hostData : Bytes)
  | lanWindowTimeout
  | lanLockoutEnd
  | authVerified
  -- inputs and host
  | inputFrameComplete (src : InputSource) (rows : Option (List (Nat × Nat × Bytes)))
  | inStateChange (m : Fin 4) (sig : InSignal)
  | edidHpdRestore (m : Fin 4)
  | descFetch (s : Fin 16) (desc : Bytes)
  | descCopyDone (s : Fin 16) (ok : Bool)
  | hwinFail (addr : BitVec 48)
  | coalTimer (q : Fin 18)
  | eventDeliver
  | resultEmit (u : Fin 128)
  | endpointReset (cause : EndpointCause)
  | hostLinkUp (gen width bar2Log2 : Nat) (cfg : HostCfg)
  | bar2Write (off : Nat) (data : Bytes)
  | bar2Read (off len : Nat)
  | registerWrite (off : BitVec 26) (v : Word)
  | tbLoRead
  | macLoRead (c : Fin 72)
  | bytesLoRead (u : Fin 128)
  | curveDataRead (c : Fin 72)
  | sigRead (o : Fin 2) (r : Fin 16)
  | zoneLtLoRead
  | nonceRead
  | mcCntClear (c : Fin 72)
  | suCntClear (u : Fin 128)
  | clCntClear (n : Fin 8)
  | ddrCntClear
  | inCntClear (m : Fin 4)
  | peakClear
  -- commit and installation
  | armOut0 (v : Word)
  | armOut1 (v : Word)
  | armPipe (v : Word)
  | discard (v : Word)
  | install
  | validate
  | cancel
  | imgChecksDone (r : ImgFound)
  | cutoverMembersIdle
  | cutoverWriteDone
  | unfreeze (u : UnitId)
  | start (o : Fin 2)
  | forceBg (o : Fin 2) (on : Bool)
  | forceGuard (mask : BitVec 16)
  | wbOwn (o : Fin 2) (mask : BitVec 4)
  | gforced (o : Fin 2) (r : Fin 16)
  | close
  | apply
  | authWrite (v : Word)
  | wdata (v : Word)
  | cgo
  | handover
  | hidxWrite (q : Fin 18) (v : Word)
  | ringEnWrite (q : Fin 18) (v : Word)
  | edidDone (m : Fin 4)
  | rescan (mask : BitVec 2)
  | resetZones (v : Word)
  -- mailbox
  | repairCount (tag : BitVec 16)
  | repairRead (tag : BitVec 16)
  | logRead (tag : BitVec 16) (flashOk : Bool)
  | healthRead (tag : BitVec 16)
  | slackRead (tag : BitVec 16)
  | ownerSet (tag : BitVec 16) (request : Bytes)
  | lkeySet (tag : BitVec 16) (request : Bytes)
  | certRead (tag : BitVec 16)
  | attest (tag : BitVec 16) (nonce : Bytes)
  | mailboxComplete (ok0 ok1 : Bool)
  -- firmware, resets, boot
  | stage
  | fwStageDone (flashOk : Bool)
  | activate (force : Bool)
  | confirm
  | commitSvn
  | abort
  | fwReset
  | recovProgram
  | recovReboot
  | powerOnReset (straps : BitVec 16)
  | systemReset (straps : BitVec 16)
  | supplyUndervoltage (rail : WatchedRail) (straps : BitVec 16)
  | packageChecked
  | ddrTrainingDone (ready : BitVec 12) (rate capGib colBits : Nat)
  | restoreDone
  | lossOfHealth
  | watchdogExpiry
  | thermalTrip
  -- Beacon link and twin
  | heartbeatSend
  | heartbeatArrival (p : Fin 3) (h : Heartbeat)
  | partnerLost (p : Fin 3)
  | twinTakeover
  | twinSplit
  | twinReady
  | startWaitExpiry
  | twinSelChange (sel0 sel1 : Bool)
  | bcnDown (p : Fin 3)
  | bcnRetrain (p : Fin 3)
  | bcnUp (p : Fin 3) (lanes : BitVec 4) (hopPs : Nat)
  | hopDelayMeasure (p : Fin 3) (hopPs : Nat)
  | tokenSend
  | tokenArrival (p : Fin 3) (tok : FrameToken)
  | mirrorFrameArrival (s : Fin 16) (completion : Nat) (rows : Option (List (Nat × Nat × Bytes)))
  | mirrorHoldExpiry (s : Fin 16)
  | seamSlotArrival (p : Fin 3) (q : Fin 16) (slot : SeamSlot)
  | slotCredit (p : Fin 3) (q : Fin 16) (announced : Option (BitVec 8))
  | nbrStall (p : Fin 3)
  | seamEpochReset (fe : Nat) (p : Fin 3)
  | slackMeasure
  -- power and thermal
  | controlPeriod
  | pmbusPoll (pout : List (Option (BitVec 16)))
  | pmbAlert (status : List (BitVec 16))
  | vsettleDone
  | ageingEval (marginLow : Bool)
  | thmSample (quarterC : List (Option Int))
  | thmStep
  -- Keeper's periodic work
  | lastGoodWrite (flashOk : Bool)
  | healthPersist
  | eventLogPersist
  | ledgerFold
  | wearGainUpdate
  | wearPoll (o : Fin 2)
  | tileReadDone (o : Fin 2) (t : Fin 64) (eeprom : Option Bytes)
  | keeperMessageArrival (p : Fin 3) (m : KeeperMsg)
  | spareEngaged (n : Fin 8)
  | mirrorSendDone (s : Fin 16)
  | trialConfirmTimeout
  | jtagTck (tms tdi trstN sysResetN : Bool) (high : List Signal)
  | testEnChange (level : Bool)
  deriving DecidableEq, Repr

end Sys2Proof
end

