-- ==== Sys2Proof/Machine/Float.lean ====
section
/-! DEFINITION. Exact values of the number formats (R40 to R48) and the roundings of the array, the vector unit and the other arithmetic of the device (R46, R53 to R56, R59, R60). -/

namespace Sys2Proof.Machine

/-- An exact value: NaN, an infinity, or plus or minus `m * 2^e`. -/
inductive Num where
  | nan
  | inf (neg : Bool)
  | fin (neg : Bool) (m : Nat) (e : Int)
  deriving DecidableEq, Repr

/-- What the encodings with all exponent bits set stand for (R45). -/
inductive Special where
  | ieee | e4m3 | none
  deriving DecidableEq, Repr

/-- A floating-point format: mantissa bits, exponent bits, bias, special encodings. -/
structure FFmt where
  man : Nat
  exp : Nat
  bias : Nat
  special : Special
  deriving DecidableEq, Repr

def FFmt.e4m3 : FFmt := ⟨3, 4, 7, .e4m3⟩
def FFmt.e5m2 : FFmt := ⟨2, 5, 15, .ieee⟩
def FFmt.bf16 : FFmt := ⟨7, 8, 127, .ieee⟩
def FFmt.fp16 : FFmt := ⟨10, 5, 15, .ieee⟩
def FFmt.fp32 : FFmt := ⟨23, 8, 127, .ieee⟩
def FFmt.e2m3 : FFmt := ⟨3, 2, 1, .none⟩
def FFmt.e3m2 : FFmt := ⟨2, 3, 3, .none⟩
def FFmt.e2m1 : FFmt := ⟨1, 2, 1, .none⟩

/-- Weight of the last mantissa bit of a subnormal. -/
def FFmt.emin (f : FFmt) : Int := 1 - (f.bias : Int) - f.man

/-- The exact value of an encoding (R43 to R45, R48). -/
def FFmt.decode (f : FFmt) (x : Nat) : Num :=
  let neg := x.testBit (f.man + f.exp)
  let ef := x / 2 ^ f.man % 2 ^ f.exp
  let mf := x % 2 ^ f.man
  let top := ef == 2 ^ f.exp - 1
  if top && (f.special == .ieee) then (if mf = 0 then .inf neg else .nan)
  else if top && (f.special == .e4m3) && mf == 2 ^ f.man - 1 then .nan
  else if ef = 0 then .fin neg mf f.emin
  else .fin neg (2 ^ f.man + mf) (f.emin + (ef : Int) - 1)

/-- The smallest magnitude encoding beyond the largest finite value. -/
def FFmt.limit (f : FFmt) : Nat :=
  match f.special with
  | .ieee => (2 ^ f.exp - 1) * 2 ^ f.man
  | .e4m3 => 2 ^ (f.exp + f.man) - 1
  | .none => 2 ^ (f.exp + f.man)

/-- `m / 2^s` rounded to the nearest integer, ties to even. -/
def rneShift (m s : Nat) : Nat :=
  if s = 0 then m
  else
    let q := m / 2 ^ s
    let r := m % 2 ^ s
    let half := 2 ^ (s - 1)
    if half < r || (r == half && q % 2 == 1) then q + 1 else q

/-- `m * 2^e` rounded to nearest even in a format, as a magnitude encoding that may lie beyond the largest finite one. -/
def FFmt.roundMag (f : FFmt) (m : Nat) (e : Int) : Nat :=
  if m = 0 then 0
  else
    let q := max ((Nat.log2 m : Int) + e - f.man) f.emin
    let m' := if q ≤ e then m * 2 ^ (e - q).toNat else rneShift m (q - e).toNat
    (q - f.emin).toNat * 2 ^ f.man + m'

/-- Sign bit and magnitude of an encoding. -/
def FFmt.pack (f : FFmt) (neg : Bool) (mag : Nat) : Nat := (if neg then 2 ^ (f.man + f.exp) else 0) + mag

/-- Canonical FP32 NaN (R45). -/
def nan32 : Word := 0x7FC00000

/-- Rounds to FP32, nearest even, overflow to infinity, NaN canonical (R46, R47). -/
def round32 : Num → Word
  | .nan => nan32
  | .inf neg => BitVec.ofNat 32 (FFmt.fp32.pack neg FFmt.fp32.limit)
  | .fin neg m e => BitVec.ofNat 32 (FFmt.fp32.pack neg (min (FFmt.fp32.roundMag m e) FFmt.fp32.limit))

/-- The exact value of FP32 bits. -/
def num32 (w : Word) : Num := FFmt.fp32.decode w.toNat

/-- The exact value of an integer. -/
def Num.ofInt (i : Int) : Num := .fin (i < 0) i.natAbs 0

/-- Signed mantissa of a finite value brought to exponent `e0`, which is at most its own. -/
def alignTo (e0 : Int) (neg : Bool) (m : Nat) (e : Int) : Int :=
  let v : Int := (m * 2 ^ (e - e0).toNat : Nat)
  if neg then -v else v

/-- Exact sum; a zero sum is +0 unless both addends are -0. -/
def Num.add : Num → Num → Num
  | .nan, _ => .nan
  | _, .nan => .nan
  | .inf a, .inf b => if a = b then .inf a else .nan
  | .inf a, .fin _ _ _ => .inf a
  | .fin _ _ _, .inf b => .inf b
  | .fin n1 m1 e1, .fin n2 m2 e2 =>
    let e0 := min e1 e2
    let s := alignTo e0 n1 m1 e1 + alignTo e0 n2 m2 e2
    if s = 0 then .fin (n1 && n2 && m1 == 0 && m2 == 0) 0 e0
    else .fin (s < 0) s.natAbs e0

/-- Exact product; infinity times 0 is NaN (R47). -/
def Num.mul : Num → Num → Num
  | .nan, _ => .nan
  | _, .nan => .nan
  | .inf a, .inf b => .inf (a != b)
  | .inf a, .fin n m _ => if m = 0 then .nan else .inf (a != n)
  | .fin n m _, .inf b => if m = 0 then .nan else .inf (n != b)
  | .fin n1 m1 e1, .fin n2 m2 e2 => .fin (n1 != n2) (m1 * m2) (e1 + e2)

/-- Multiplies by a power of two. -/
def Num.scale (x : Num) (k : Int) : Num :=
  match x with
  | .fin n m e => .fin n m (e + k)
  | y => y

def Num.negate : Num → Num
  | .nan => .nan
  | .inf n => .inf (!n)
  | .fin n m e => .fin (!n) m e

def Num.isNan : Num → Bool
  | .nan => true
  | _ => false

/-- FP32 addition, multiplication and fused multiply-add, each rounded once. -/
def add32 (a b : Word) : Word := round32 ((num32 a).add (num32 b))
def sub32 (a b : Word) : Word := round32 ((num32 a).add (num32 b).negate)
def mul32 (a b : Word) : Word := round32 ((num32 a).mul (num32 b))
def fma32 (a b c : Word) : Word := round32 (((num32 a).mul (num32 b)).add (num32 c))

def isNan32 (w : Word) : Bool := (num32 w).isNan

/-- Numerical order of two values that are not NaN; -0 and +0 are equal. -/
def Num.lt : Num → Num → Bool
  | .inf a, .inf b => a && !b
  | .inf a, .fin _ _ _ => a
  | .fin _ _ _, .inf b => !b
  | .fin n1 m1 e1, .fin n2 m2 e2 =>
    let e0 := min e1 e2
    decide (alignTo e0 n1 m1 e1 < alignTo e0 n2 m2 e2)
  | _, _ => false

/-- The order of max pooling: -0 lies below +0 (R58). -/
def Num.ltZero (x y : Num) : Bool :=
  match x, y with
  | .fin true 0 _, .fin false 0 _ => true
  | a, b => a.lt b

/-- A finite value rounded to the nearest integer, ties to even; an infinity answers a value beyond every integer format. -/
def Num.toIntRne : Num → Int
  | .nan => 0
  | .inf neg => if neg then -(2 ^ 300) else 2 ^ 300
  | .fin neg m e =>
    let v : Nat := if 0 ≤ e then m * 2 ^ e.toNat else rneShift m (-e).toNat
    if neg then -(v : Int) else v

/-- Largest integer at or below a finite value. -/
def Num.floor : Num → Int
  | .fin neg m e =>
    let v : Int := if neg then -(m : Int) else m
    if 0 ≤ e then v * (2 ^ e.toNat : Nat) else v / (2 ^ (-e).toNat : Nat)
  | _ => 0

/-- The FP32 value of 1/n, rounded to nearest even (R59): 80 quotient bits and a sticky bit. -/
def recip32 (n : Nat) : Word :=
  let q := 2 ^ 80 / n
  let r := 2 ^ 80 % n
  round32 (.fin false (2 * q + (if r = 0 then 0 else 1)) (-81))

/-- Saturates to a signed integer of `w` bits; the flag says that it did. -/
def satInt (w : Nat) (i : Int) : Int × Bool :=
  let hi : Int := 2 ^ (w - 1) - 1
  let lo : Int := -(2 ^ (w - 1))
  if hi < i then (hi, true) else if i < lo then (lo, true) else (i, false)

/-- Rounds into a format whose overflow saturates to the largest finite value (R54): encoding and whether it saturated. -/
def FFmt.roundSat (f : FFmt) : Num → Nat × Bool
  | .nan => (if f.special == .e4m3 then f.limit else f.limit + 2 ^ (f.man - 1), false)
  | .inf neg => (f.pack neg (f.limit - 1), true)
  | .fin neg m e =>
    let mag := f.roundMag m e
    if f.limit ≤ mag then (f.pack neg (f.limit - 1), true) else (f.pack neg mag, false)

/-- The sum of one group of exact products (R46 step 3, R47), before its rounding to FP32. The exponent of a product is that of its leading bit (DEDUCED, log 20). -/
def groupSum (ps : List Num) : Num :=
  if ps.any Num.isNan then .nan
  else
    let pos := ps.contains (.inf false)
    let neg := ps.contains (.inf true)
    if pos && neg then .nan
    else if pos then .inf false
    else if neg then .inf true
    else
      let es := ps.filterMap (fun p => match p with
        | .fin _ m e => if m = 0 then none else some ((Nat.log2 m : Int) + e)
        | _ => none)
      match es with
      | [] => .fin false 0 0
      | e0 :: rest =>
        let w := rest.foldl max e0 - 47
        let total := ps.foldl (fun acc p => match p with
          | .fin n m e => acc + (Num.fin n m (e - w)).floor
          | _ => acc) (0 : Int)
        .fin (total < 0) total.natAbs w

/-- A curve table (R56, R281): 256 entries and its parameters. -/
structure Curve where
  x0 : Word
  istep : Word
  loMode : Nat
  hiMode : Nat
  deriving DecidableEq, Repr

/-- range_mode of R56. -/
def rangeMode (mode : Nat) (v edge : Word) : Word :=
  if mode = 1 then v else if mode = 2 then 0 else edge

/-- Curve evaluation (R56); `e` reads the entries. The index i is an integer, so that f = idx - i is +0 where idx is -0 (log 176). -/
def evalCurve (k : Curve) (e : Nat → Word) (v : Word) : Word :=
  let x := sub32 v k.x0
  let idx := mul32 x k.istep
  let n := num32 idx
  if n.isNan then nan32
  else if n.lt (.fin false 0 0) then rangeMode k.loMode v (e 0)
  else if !(n.lt (.fin false 255 0)) then rangeMode k.hiMode v (e 255)
  else
    let i := n.floor
    let f := n.add (Num.ofInt (-i))
    let d := sub32 (e (i.toNat + 1)) (e i.toNat)
    round32 ((f.mul (num32 d)).add (num32 (e i.toNat)))

end Sys2Proof.Machine
end

