-- ==== Sys2Proof/Config.lean ====
section
/-! DEFINITION. What one part fixes and what the manual leaves open: every constant here is opaque, so no proof can see a value. -/

namespace Sys2Proof.Config

/-- FREE VALUE (log 4): the n-th value the manual does not state, as a natural number; its user cuts it to a width. -/
opaque freeBits : Nat → Nat

/-- FREE VALUE (log 21): the result of activation `kind` with its bounds on a value, where the manual states none: of a NaN under ReLU or clamp, of -0 under
ReLU, of a clamp whose bounds are NaN or out of order. It is a function of its operands, so equal inputs give equal results on every core (R62). -/
opaque actOpen : Nat → Word → Word → Word → Word

/-- FREE VALUE (log 23): the average of a window of INT32 elements by a count, whose sum the manual does not state (R59). -/
opaque avgInt32 : List Int → Nat → Word

/-- Values fused at test (R360, R432): `fused tag i` is the fused value of the fixed field with that tag, instance i (log 5). -/
opaque fused : Nat → List Nat → Nat

/-- FREE VALUE (log 30): which neighbour of a pixel's own chroma sample is the second of the two nearest ones that LINEAR averages (R127), by the pixel's
position: the manual does not say where chroma samples lie. -/
opaque chromaSecond : Nat → Nat → Nat

/-- FREE VALUE (log 34): whether a quotient with remainder `r` over `n` is rounded up, where the manual does not state the rounding (LIN of R437)
or its ties (the zone mean of R437, the gains of R439 and R440). -/
opaque roundsUp : Nat → Nat → Bool

/-- FREE VALUE (log 34): the wear of an entry under a rated life of 0 hours (R438), what a 10-bit field shows of a wear above 1,023 ‰ (log 164), and a gain where the luminance is not positive (R440). -/
opaque wearOpen : Nat → Nat

/-- FREE VALUE (log 163): what a firmware slot holds after a write that failed (R422, R428). -/
opaque tornSlot : Nat → Bytes

/-- FREE VALUE (log 156): TX_SLOT_TXN of the partner for a queue of a port at a time: the manual names no message that carries it (R334). -/
opaque partnerSlotTxn : Nat → Nat → Nat → Nat

/-- FREE VALUE (log 48): the level that stands at GPIO pin `i`, which the device does not drive, at a time. -/
opaque gpioLevel : Nat → Nat → Bool

/-- FREE VALUE (log 49): how far the start ramp of a core has come at a time (R351). -/
opaque rampStep : Nat → Nat → Nat

/-- FREE VALUE (log 161): what a field that counts or averages cycles, or that configuration space sets, reads: by the field and its index, the time and the counter of free values. -/
opaque unseen : Nat → Nat → Nat → Nat → Nat

/-- FREE VALUE (log 162): the 10-bit value of a 12-bit component that rounds to 1,024 (R406). -/
opaque portOver : Nat → BitVec 10

/-- The 48 bytes of SHA-384 (R228, R418, R419, R426): a function of FIPS 180-4 that the manual names and does not define (log 6). -/
opaque sha384Of : Bytes → Vector Byte 48

/-- SHA-384 as a byte string. -/
def sha384 (b : Bytes) : Bytes := (sha384Of b).toList

/-- HMAC-SHA-384 of a key and a message (R297, R423, R425), not defined by the manual (log 6). -/
opaque hmacSha384 : Bytes → Bytes → Bytes

/-- RSASSA-PSS verification of modulus, message and signature (R418, R424, R425; log 6). -/
opaque rsaVerify : Bytes → Bytes → Bytes → Bool

/-- SLH-DSA-SHA2-192s verification of public key, message and signature (R418, R424, R425; log 6). -/
opaque slhVerify : Bytes → Bytes → Bytes → Bool

/-- The RSASSA-PSS signature of a message that Keeper makes with its RSA-3072 identity key (R418, R426; log 6). -/
opaque identityRsa : Bytes → Vector Byte 384

/-- The SLH-DSA-SHA2-192s signature of a message that Keeper makes with its other identity key (R418, R426; log 6). -/
opaque identitySlh : Bytes → Vector Byte 16224

/-- The key hashes of the ROM for algorithm 0 RSA and 1 SLH-DSA, two each (R419; log 5). -/
opaque romKeyHash : Nat → Nat → Bytes

/-- A certificate of the identity region (R426): X.509 DER bytes of certificates 0 to 3 (log 5). -/
opaque certificate : Nat → Bytes

/-- CHIP CONSTANT (log 5): the identity region fails to decode (R426). -/
opaque identityBad : Bool

/-- CHIP CONSTANT (log 5): size of the flash in MiB (R416). -/
opaque flashMib : Nat

/-- CHIP CONSTANT (log 5): the package that firmware slot 0 (A) or 1 (B) holds from manufacture (R416, R418). -/
opaque firmware : Nat → Bytes

/-- FREE VALUE (log 52): the part finds a repair resource for the LPDDR6 row of a LOCATION (R192). -/
opaque pprFound : Nat → Bool

/-- CHIP CONSTANT (log 53): what the instruction register captures above its two low bits, its length with it, next bit out first (IEEE 1149.1; R460). -/
opaque irRest : List Bool

/-- CHIP CONSTANT (log 53): the instruction that a code other than all ones selects, 0 BYPASS, 1 IDCODE, 2 SAMPLE/PRELOAD, 3 EXTEST, 4 HIGHZ, 5 CLAMP (R460). -/
opaque irCode : List Bool → Fin 6

/-- CHIP CONSTANT (log 53): the place of a cell in the boundary-scan register; the cell of least rank is next to TDO (R460). -/
opaque scanRank : Nat → Nat

end Sys2Proof.Config
end

