-- ==== Sys2Proof/Machine/Table.lean ====
section
/-! DEFINITION. Sparse tables: sorted lists of (index, value) pairs in which an unlisted index reads as a stated default. Register files, memories and arrays of units are all held in this one form. -/

namespace Sys2Proof.Machine

/-- A sparse table. Plain data; the canonical form is `Tab.wf`. -/
abbrev Tab (α : Type) := List (Nat × α)

/-- The entry listed at an index, if there is one. -/
def Tab.find {α : Type} : Tab α → Nat → Option α
  | [], _ => none
  | (j, v) :: t, k => if k = j then some v else Tab.find t k

/-- The value at an index; `d` is what an unlisted index reads as. -/
def Tab.get {α : Type} (d : α) (t : Tab α) (k : Nat) : α := (Tab.find t k).getD d

/-- Lists `v` at index `k`, keeping the indices ascending. -/
def Tab.insert {α : Type} : Tab α → Nat → α → Tab α
  | [], k, v => [(k, v)]
  | (j, x) :: t, k, v =>
    if k < j then (k, v) :: (j, x) :: t
    else if k = j then (k, v) :: t
    else (j, x) :: Tab.insert t k v

/-- Takes index `k` off the list. -/
def Tab.erase {α : Type} (t : Tab α) (k : Nat) : Tab α := t.filter (fun e => e.1 ≠ k)

/-- Writes `v` at index `k`; writing the default takes the entry off the list. -/
def Tab.put {α : Type} [DecidableEq α] (d : α) (t : Tab α) (k : Nat) (v : α) : Tab α :=
  if v = d then Tab.erase t k else Tab.insert t k v

/-- Writes consecutive values from index `k` on. -/
def Tab.putList {α : Type} [DecidableEq α] (d : α) : Tab α → Nat → List α → Tab α
  | t, _, [] => t
  | t, k, v :: vs => Tab.putList d (Tab.put d t k v) (k + 1) vs

/-- Reads `n` consecutive values from index `k` on. -/
def Tab.getList {α : Type} (d : α) (t : Tab α) (k : Nat) : Nat → List α
  | 0 => []
  | n + 1 => Tab.get d t k :: Tab.getList d t (k + 1) n

/-- Changes the value at one index. -/
def Tab.modify {α : Type} [DecidableEq α] (d : α) (t : Tab α) (k : Nat) (f : α → α) : Tab α :=
  Tab.put d t k (f (Tab.get d t k))

/-- Takes every entry whose index satisfies `p` from `src` in place of those of `t` (a commit, R238). -/
def Tab.replace {α : Type} (p : Nat → Bool) (t src : Tab α) : Tab α :=
  (src.filter (fun e => p e.1)).foldl (fun acc e => Tab.insert acc e.1 e.2) (t.filter (fun e => !p e.1))

/-- Every index of the list satisfies `p`. -/
def Tab.keysAbove {α : Type} (k : Nat) : Tab α → Bool
  | [] => true
  | (j, _) :: t => decide (k < j) && Tab.keysAbove k t

/-- The canonical form: indices strictly ascending and no entry equal to the default. -/
def Tab.wf {α : Type} [DecidableEq α] (d : α) : Tab α → Bool
  | [] => true
  | (j, v) :: t => decide (v ≠ d) && Tab.keysAbove j t && Tab.wf d t

end Sys2Proof.Machine
end

