-- ==== Sys2Proof/Machine/Regs.lean ====
section
/-! DEFINITION. The register map of BAR0 (R7, R8, R31, R32), field by field, from the register tables of R65, R108, R164, R194, R195, R225, R244, R274, R275, R307 to R310, R340, R360, R361, R383, R384, R411, R412, R432, R444, R458, R480 and of R5 and R392. Bits no row lists are Reserved (R10). -/

namespace Sys2Proof.Machine

/-- The access codes of R8. -/
inductive Acc where
  | ro | wo | rw | w1c | rws | rwl
  deriving DecidableEq, Repr

/-- One index of a family of registers: how many, the address step and the bit step. -/
structure Dim where
  count : Nat
  astride : Nat
  lstride : Nat
  deriving DecidableEq, Repr

/-- A field's reset value: one number, a sum over the indices, a list over the last index, a value fused at test, or a fused VMIN_MV, at most 850 mV at OP 7 (R455). -/
inductive Rst where
  | const (n : Nat)
  | lin (c : Nat) (coefs : List Nat)
  | tab (skip : Nat) (vals : List Nat)
  | fused (tag width : Nat)
  | vmin
  deriving DecidableEq, Repr

/-- Read-only fields that report state held elsewhere in State. -/
inductive Derived where
  | anyFrozen
  | anyParked
  | anyRetired
  | bcnPartner
  | bcnShown
  | capActive
  | clRetired
  | degraded
  | faultNAsserted
  | frozenBe
  | frozenCore0
  | frozenCore1
  | frozenCore2
  | frozenSu
  | gpLevel
  | lanApplyPending
  | lbCrit
  | lbLevel
  | mcCap
  | mcRamp
  | mcCurveData
  | mcDbg
  | mcLimit
  | mcMacLo
  | mcReady
  | retiredBe
  | spPgBusy
  | spCollide
  | spPortWait
  | ddrUtil
  | mcgWait
  | hostBme
  | hostL1
  | spareInUse
  | suBytesLo
  | suDbg
  | suLoops
  | suPending
  | suProg
  | suTags
  | suTokens
  | taskLoops
  | taskPending
  | tbLo
  | thmSensorFail
  | thmThrottling
  | thmWarn
  | topInstallPending
  | topSplit
  | twinPresent
  | wcArmQueued
  | wcLeases
  | wcReissue
  | zoneGain
  | zoneLtLo
  | zoneWearPm
  | wearMaxPm
  | wearMaxZone
  deriving DecidableEq, Repr

/-- Where a field's value lives: in the register tables of State, fixed, or computed from other state. -/
inductive Src where
  | stored | fixed | derived (d : Derived)
  deriving DecidableEq, Repr

/-- One row of a register table. `own`: writing it is a command of its own in the opcode table. -/
structure RegDef where
  base : Nat
  dims : List Dim
  lo : Nat
  width : Nat
  reset : Rst
  acc : Acc
  src : Src
  own : Bool
  deriving DecidableEq, Repr

/-- One field of one register: `key` is 32 times its BAR0 offset plus its low bit. -/
structure Fld where
  key : Nat
  width : Nat
  reset : Nat
  rws : Bool
  deriving DecidableEq, Repr

/-- A weighted sum of an index list. -/
def weigh : List Nat → List Nat → Nat
  | a :: as, b :: bs => a * b + weigh as bs
  | _, _ => 0

/-- The reset value of instance `idx`. -/
def Rst.value (r : Rst) (idx : List Nat) : Nat :=
  match r with
  | .const n => n
  | .lin c cs => c + weigh cs idx
  | .tab k vs => vs.getD (idx.getD k 0) 0
  | .fused tag w => Config.fused tag idx % 2 ^ w
  | .vmin => min (if idx = [7] then 850 else 2047) (Config.fused 0 idx)

/-- BAR0 offset of instance `idx`. -/
def RegDef.addr (r : RegDef) (idx : List Nat) : Nat := r.base + weigh (r.dims.map Dim.astride) idx

/-- Lowest bit of instance `idx`. -/
def RegDef.lowBit (r : RegDef) (idx : List Nat) : Nat := r.lo + weigh (r.dims.map Dim.lstride) idx

/-- The field of instance `idx`. -/
def RegDef.at (r : RegDef) (idx : List Nat) : Fld :=
  ⟨r.addr idx * 32 + r.lowBit idx, r.width, r.reset.value idx, r.acc == .rws⟩

/-- Index lists of a family whose register lies at address `a`: one candidate for each index that steps the
address, and every value of an index that steps only the bit. -/
def RegDef.instances (r : RegDef) (a : Nat) : List (List Nat) :=
  if a < r.base then [] else go r.dims (a - r.base)
where
  go : List Dim → Nat → List (List Nat)
    | [], rest => if rest = 0 then [[]] else []
    | d :: ds, rest =>
      if d.astride = 0 then
        (List.range d.count).flatMap (fun i => (go ds rest).map (fun l => i :: l))
      else
        let i := min (rest / d.astride) (d.count - 1)
        (go ds (rest - i * d.astride)).map (fun l => i :: l)

namespace Reg

/-- R5 0x00000000 [31:0]. -/
def TOP_ID : RegDef := ⟨0x0, [], 0, 32, .const 234385921, .ro, .fixed, false⟩

/-- R480 0x00000010 [31:0]. -/
def TOP_TB_LO : RegDef := ⟨0x10, [], 0, 32, .const 0, .ro, (.derived .tbLo), false⟩

/-- R480 0x00000014 [31:0]. -/
def TOP_TB_HI : RegDef := ⟨0x14, [], 0, 32, .const 0, .ro, .stored, false⟩

/-- R65 0x01010000 [3:0] by n, k. -/
def MC_INDEX : RegDef := ⟨0x1010000, [⟨8, 0x100000, 0⟩, ⟨9, 0x1000, 0⟩], 0, 4, .lin 0 [0, 1], .ro, .fixed, false⟩

/-- R65 0x01010000 [6:4] by n, k. -/
def MC_CLUSTER : RegDef := ⟨0x1010000, [⟨8, 0x100000, 0⟩, ⟨9, 0x1000, 0⟩], 4, 3, .lin 0 [1], .ro, .fixed, false⟩

/-- R65 0x01010000 [7:7] by n, k. -/
def MC_SPARE : RegDef := ⟨0x1010000, [⟨8, 0x100000, 0⟩, ⟨9, 0x1000, 0⟩], 7, 1, .tab 1 [0, 0, 0, 0, 0, 0, 0, 0, 1], .ro, .fixed, false⟩

/-- R65 0x01010000 [14:8] by n, k. -/
def MC_DEVCORE : RegDef := ⟨0x1010000, [⟨8, 0x100000, 0⟩, ⟨9, 0x1000, 0⟩], 8, 7, .lin 0 [9, 1], .ro, .fixed, false⟩

/-- R65 0x01010004 [2:0] by n, k. -/
def MC_STATE : RegDef := ⟨0x1010004, [⟨8, 0x100000, 0⟩, ⟨9, 0x1000, 0⟩], 0, 3, .const 0, .ro, .stored, false⟩

/-- R65 0x01010004 [6:4] by n, k. -/
def MC_TASK : RegDef := ⟨0x1010004, [⟨8, 0x100000, 0⟩, ⟨9, 0x1000, 0⟩], 4, 3, .const 0, .ro, .stored, false⟩

/-- R65 0x01010004 [15:8] by n, k. -/
def MC_READY : RegDef := ⟨0x1010004, [⟨8, 0x100000, 0⟩, ⟨9, 0x1000, 0⟩], 8, 8, .const 0, .ro, (.derived .mcReady), false⟩

/-- R65 0x01010008 [0:0] by n, k. -/
def MC_ACC_SAT : RegDef := ⟨0x1010008, [⟨8, 0x100000, 0⟩, ⟨9, 0x1000, 0⟩], 0, 1, .const 0, .w1c, .stored, false⟩

/-- R65 0x01010008 [1:1] by n, k. -/
def MC_OUT_SAT : RegDef := ⟨0x1010008, [⟨8, 0x100000, 0⟩, ⟨9, 0x1000, 0⟩], 1, 1, .const 0, .w1c, .stored, false⟩

/-- R65 0x01010008 [2:2] by n, k. -/
def MC_NAN_ACC : RegDef := ⟨0x1010008, [⟨8, 0x100000, 0⟩, ⟨9, 0x1000, 0⟩], 2, 1, .const 0, .w1c, .stored, false⟩

/-- R65 0x01010008 [3:3] by n, k. -/
def MC_NAN_INT : RegDef := ⟨0x1010008, [⟨8, 0x100000, 0⟩, ⟨9, 0x1000, 0⟩], 3, 1, .const 0, .w1c, .stored, false⟩

/-- R65 0x01010008 [4:4] by n, k. -/
def MC_E5M2_FLUSH : RegDef := ⟨0x1010008, [⟨8, 0x100000, 0⟩, ⟨9, 0x1000, 0⟩], 4, 1, .const 0, .w1c, .stored, false⟩

/-- R65 0x01010008 [5:5] by n, k. -/
def MC_ECC_CORR : RegDef := ⟨0x1010008, [⟨8, 0x100000, 0⟩, ⟨9, 0x1000, 0⟩], 5, 1, .const 0, .w1c, .stored, false⟩

/-- R65 0x0101000C [13:0] by n, k. -/
def MC_FMT_CAP : RegDef := ⟨0x101000C, [⟨8, 0x100000, 0⟩, ⟨9, 0x1000, 0⟩], 0, 14, .const 16383, .ro, .fixed, false⟩

/-- R65 0x01010010 [2:0] by n, k, t. -/
def MC_ACC_BASE : RegDef := ⟨0x1010010, [⟨8, 0x100000, 0⟩, ⟨9, 0x1000, 0⟩, ⟨8, 0x0, 4⟩], 0, 3, .const 0, .rws, .stored, false⟩

/-- R65 0x01010014 [3:0] by n, k, t. -/
def MC_ACC_CNT : RegDef := ⟨0x1010014, [⟨8, 0x100000, 0⟩, ⟨9, 0x1000, 0⟩, ⟨8, 0x0, 4⟩], 0, 4, .tab 2 [8], .rws, .stored, false⟩

/-- R65 0x01010018 [4:0] by n, k. -/
def MC_LIMIT : RegDef := ⟨0x1010018, [⟨8, 0x100000, 0⟩, ⟨9, 0x1000, 0⟩], 0, 5, .const 16, .ro, (.derived .mcLimit), false⟩

/-- R65 0x01010018 [12:8] by n, k. -/
def MC_CAP_LIMIT : RegDef := ⟨0x1010018, [⟨8, 0x100000, 0⟩, ⟨9, 0x1000, 0⟩], 8, 5, .const 16, .ro, (.derived .mcCap), false⟩

/-- R65 0x01010018 [20:16] by n, k. -/
def MC_RAMP_LIMIT : RegDef := ⟨0x1010018, [⟨8, 0x100000, 0⟩, ⟨9, 0x1000, 0⟩], 16, 5, .const 16, .ro, (.derived .mcRamp), false⟩

/-- R65 0x01010020 [9:0] by n, k. -/
def MC_CURVE_ADDR : RegDef := ⟨0x1010020, [⟨8, 0x100000, 0⟩, ⟨9, 0x1000, 0⟩], 0, 10, .const 0, .rw, .stored, false⟩

/-- R65 0x01010024 [31:0] by n, k. -/
def MC_CURVE_DATA : RegDef := ⟨0x1010024, [⟨8, 0x100000, 0⟩, ⟨9, 0x1000, 0⟩], 0, 32, .const 0, .ro, (.derived .mcCurveData), false⟩

/-- R65 0x01010030 [31:0] by n, k, t. -/
def MC_CURVE_X0 : RegDef := ⟨0x1010030, [⟨8, 0x100000, 0⟩, ⟨9, 0x1000, 0⟩, ⟨4, 0x10, 0⟩], 0, 32, .const 0, .ro, .stored, false⟩

/-- R65 0x01010034 [31:0] by n, k, t. -/
def MC_CURVE_ISTEP : RegDef := ⟨0x1010034, [⟨8, 0x100000, 0⟩, ⟨9, 0x1000, 0⟩, ⟨4, 0x10, 0⟩], 0, 32, .const 0, .ro, .stored, false⟩

/-- R65 0x01010038 [1:0] by n, k, t. -/
def MC_CURVE_LO_MODE : RegDef := ⟨0x1010038, [⟨8, 0x100000, 0⟩, ⟨9, 0x1000, 0⟩, ⟨4, 0x10, 0⟩], 0, 2, .const 0, .ro, .stored, false⟩

/-- R65 0x01010038 [3:2] by n, k, t. -/
def MC_CURVE_HI_MODE : RegDef := ⟨0x1010038, [⟨8, 0x100000, 0⟩, ⟨9, 0x1000, 0⟩, ⟨4, 0x10, 0⟩], 2, 2, .const 0, .ro, .stored, false⟩

/-- R65 0x01010080 [31:0] by n, k. -/
def MC_MAC_LO : RegDef := ⟨0x1010080, [⟨8, 0x100000, 0⟩, ⟨9, 0x1000, 0⟩], 0, 32, .const 0, .ro, (.derived .mcMacLo), false⟩

/-- R65 0x01010084 [31:0] by n, k. -/
def MC_MAC_HI : RegDef := ⟨0x1010084, [⟨8, 0x100000, 0⟩, ⟨9, 0x1000, 0⟩], 0, 32, .const 0, .ro, .stored, false⟩

/-- R65 0x01010088 [31:0] by n, k. -/
def MC_SP_ACCESS : RegDef := ⟨0x1010088, [⟨8, 0x100000, 0⟩, ⟨9, 0x1000, 0⟩], 0, 32, .const 0, .ro, .stored, false⟩

/-- R65 0x0101008C [31:0] by n, k. -/
def MC_BUSY : RegDef := ⟨0x101008C, [⟨8, 0x100000, 0⟩, ⟨9, 0x1000, 0⟩], 0, 32, .const 0, .ro, .stored, false⟩

/-- R65 0x01010090 [0:0] by n, k. -/
def MC_CNT_CLEAR : RegDef := ⟨0x1010090, [⟨8, 0x100000, 0⟩, ⟨9, 0x1000, 0⟩], 0, 1, .const 0, .wo, .stored, true⟩

/-- R65 0x01010090 [1:1] by n, k. -/
def MC_CNT_HOLD : RegDef := ⟨0x1010090, [⟨8, 0x100000, 0⟩, ⟨9, 0x1000, 0⟩], 1, 1, .const 0, .rw, .stored, false⟩

/-- R65 0x010100A0 [7:0] by n, k. -/
def MC_FAULT_CODE : RegDef := ⟨0x10100A0, [⟨8, 0x100000, 0⟩, ⟨9, 0x1000, 0⟩], 0, 8, .const 0, .ro, .stored, false⟩

/-- R65 0x010100A0 [10:8] by n, k. -/
def MC_FAULT_TASK : RegDef := ⟨0x10100A0, [⟨8, 0x100000, 0⟩, ⟨9, 0x1000, 0⟩], 8, 3, .const 0, .ro, .stored, false⟩

/-- R65 0x010100A0 [27:16] by n, k. -/
def MC_FAULT_PC : RegDef := ⟨0x10100A0, [⟨8, 0x100000, 0⟩, ⟨9, 0x1000, 0⟩], 16, 12, .const 0, .ro, .stored, false⟩

/-- R108 0x01010100 [11:0] by n, k, t. -/
def TASK_ENTRY_PC : RegDef := ⟨0x1010100, [⟨8, 0x100000, 0⟩, ⟨9, 0x1000, 0⟩, ⟨8, 0x20, 0⟩], 0, 12, .const 0, .rws, .stored, false⟩

/-- R108 0x01010100 [12:12] by n, k, t. -/
def TASK_ENABLE : RegDef := ⟨0x1010100, [⟨8, 0x100000, 0⟩, ⟨9, 0x1000, 0⟩, ⟨8, 0x20, 0⟩], 12, 1, .const 0, .rws, .stored, false⟩

/-- R108 0x01010100 [13:13] by n, k, t. -/
def TASK_CLASS : RegDef := ⟨0x1010100, [⟨8, 0x100000, 0⟩, ⟨9, 0x1000, 0⟩, ⟨8, 0x20, 0⟩], 13, 1, .const 0, .rws, .stored, false⟩

/-- R108 0x01010100 [14:14] by n, k, t. -/
def TASK_RESIDENT : RegDef := ⟨0x1010100, [⟨8, 0x100000, 0⟩, ⟨9, 0x1000, 0⟩, ⟨8, 0x20, 0⟩], 14, 1, .const 0, .rws, .stored, false⟩

/-- R108 0x01010104 [11:0] by n, k, t. -/
def TASK_PC : RegDef := ⟨0x1010104, [⟨8, 0x100000, 0⟩, ⟨9, 0x1000, 0⟩, ⟨8, 0x20, 0⟩], 0, 12, .const 0, .ro, .stored, false⟩

/-- R108 0x01010104 [15:12] by n, k, t. -/
def TASK_TSTATE : RegDef := ⟨0x1010104, [⟨8, 0x100000, 0⟩, ⟨9, 0x1000, 0⟩, ⟨8, 0x20, 0⟩], 12, 4, .const 0, .ro, .stored, false⟩

/-- R108 0x01010104 [19:16] by n, k, t. -/
def TASK_LOOPS : RegDef := ⟨0x1010104, [⟨8, 0x100000, 0⟩, ⟨9, 0x1000, 0⟩, ⟨8, 0x20, 0⟩], 16, 4, .const 0, .ro, (.derived .taskLoops), false⟩

/-- R108 0x01010104 [20:20] by n, k, t. -/
def TASK_PENDING : RegDef := ⟨0x1010104, [⟨8, 0x100000, 0⟩, ⟨9, 0x1000, 0⟩, ⟨8, 0x20, 0⟩], 20, 1, .const 0, .ro, (.derived .taskPending), false⟩

/-- R108 0x01010104 [21:21] by n, k, t. -/
def TASK_LAUNCH_OVR : RegDef := ⟨0x1010104, [⟨8, 0x100000, 0⟩, ⟨9, 0x1000, 0⟩, ⟨8, 0x20, 0⟩], 21, 1, .const 0, .w1c, .stored, false⟩

/-- R108 0x01010108 [31:0] by n, k, t. -/
def TASK_DL : RegDef := ⟨0x1010108, [⟨8, 0x100000, 0⟩, ⟨9, 0x1000, 0⟩, ⟨8, 0x20, 0⟩], 0, 32, .const 0, .ro, .stored, false⟩

/-- R108 0x0101010C [31:0] by n, k, t. -/
def TASK_LAUNCH : RegDef := ⟨0x101010C, [⟨8, 0x100000, 0⟩, ⟨9, 0x1000, 0⟩, ⟨8, 0x20, 0⟩], 0, 32, .const 0, .ro, .stored, false⟩

/-- R108 0x01010110 [31:0] by n, k, t. -/
def TASK_WAITCYC : RegDef := ⟨0x1010110, [⟨8, 0x100000, 0⟩, ⟨9, 0x1000, 0⟩, ⟨8, 0x20, 0⟩], 0, 32, .const 0, .ro, .stored, false⟩

/-- R108 0x01010114 [31:0] by n, k, t. -/
def TASK_ISSUED : RegDef := ⟨0x1010114, [⟨8, 0x100000, 0⟩, ⟨9, 0x1000, 0⟩, ⟨8, 0x20, 0⟩], 0, 32, .const 0, .ro, .stored, false⟩

/-- R108 0x01010118 [31:0] by n, k, t. -/
def TASK_SELECTED : RegDef := ⟨0x1010118, [⟨8, 0x100000, 0⟩, ⟨9, 0x1000, 0⟩, ⟨8, 0x20, 0⟩], 0, 32, .const 0, .ro, .stored, false⟩

/-- R108 0x01010200 [2:0] by n, k. -/
def MC_DBG_TASK : RegDef := ⟨0x1010200, [⟨8, 0x100000, 0⟩, ⟨9, 0x1000, 0⟩], 0, 3, .const 0, .rw, .stored, false⟩

/-- R108 0x01010200 [6:4] by n, k. -/
def MC_DBG_SPACE : RegDef := ⟨0x1010200, [⟨8, 0x100000, 0⟩, ⟨9, 0x1000, 0⟩], 4, 3, .const 0, .rw, .stored, false⟩

/-- R108 0x01010200 [21:8] by n, k. -/
def MC_DBG_INDEX : RegDef := ⟨0x1010200, [⟨8, 0x100000, 0⟩, ⟨9, 0x1000, 0⟩], 8, 14, .const 0, .rw, .stored, false⟩

/-- R108 0x01010204 [31:0] by n, k. -/
def MC_DBG_DATA : RegDef := ⟨0x1010204, [⟨8, 0x100000, 0⟩, ⟨9, 0x1000, 0⟩], 0, 32, .const 0, .ro, (.derived .mcDbg), false⟩

/-- R108 0x01010300 [15:0] by n, k. -/
def MC_PREEMPT_DELTA : RegDef := ⟨0x1010300, [⟨8, 0x100000, 0⟩, ⟨9, 0x1000, 0⟩], 0, 16, .const 20, .rws, .stored, false⟩

/-- R108 0x01010304 [15:0] by n, k. -/
def MC_ENH_WINDOW : RegDef := ⟨0x1010304, [⟨8, 0x100000, 0⟩, ⟨9, 0x1000, 0⟩], 0, 16, .const 4167, .rws, .stored, false⟩

/-- R108 0x01010308 [15:0] by n, k. -/
def MC_WAIT_LIMIT : RegDef := ⟨0x1010308, [⟨8, 0x100000, 0⟩, ⟨9, 0x1000, 0⟩], 0, 16, .const 0, .rws, .stored, false⟩

/-- R108 0x0101030C [31:0] by n, k. -/
def MC_SWITCHES : RegDef := ⟨0x101030C, [⟨8, 0x100000, 0⟩, ⟨9, 0x1000, 0⟩], 0, 32, .const 0, .ro, .stored, false⟩

/-- R164 0x01030000 [5:0] by n, k. -/
def SP_BANKS : RegDef := ⟨0x1030000, [⟨8, 0x100000, 0⟩, ⟨9, 0x1000, 0⟩], 0, 6, .const 48, .ro, .fixed, false⟩

/-- R164 0x01030000 [8:6] by n, k. -/
def SP_SPARE_ROWS : RegDef := ⟨0x1030000, [⟨8, 0x100000, 0⟩, ⟨9, 0x1000, 0⟩], 6, 3, .const 4, .ro, .fixed, false⟩

/-- R164 0x01030000 [15:9] by n, k. -/
def SP_DEVCORE : RegDef := ⟨0x1030000, [⟨8, 0x100000, 0⟩, ⟨9, 0x1000, 0⟩], 9, 7, .lin 0 [9, 1], .ro, .fixed, false⟩

/-- R164 0x01030004 [31:0] by n, k. -/
def SP_BANK_PG_LO : RegDef := ⟨0x1030004, [⟨8, 0x100000, 0⟩, ⟨9, 0x1000, 0⟩], 0, 32, .const 0, .rws, .stored, false⟩

/-- R164 0x01030008 [15:0] by n, k. -/
def SP_BANK_PG_HI : RegDef := ⟨0x1030008, [⟨8, 0x100000, 0⟩, ⟨9, 0x1000, 0⟩], 0, 16, .const 0, .rws, .stored, false⟩

/-- R164 0x0103000C [31:0] by n, k. -/
def SP_BANK_ON_LO : RegDef := ⟨0x103000C, [⟨8, 0x100000, 0⟩, ⟨9, 0x1000, 0⟩], 0, 32, .const 4294967295, .ro, .stored, false⟩

/-- R164 0x01030010 [15:0] by n, k. -/
def SP_BANK_ON_HI : RegDef := ⟨0x1030010, [⟨8, 0x100000, 0⟩, ⟨9, 0x1000, 0⟩], 0, 16, .const 65535, .ro, .stored, false⟩

/-- R164 0x01030010 [16:16] by n, k. -/
def SP_PG_BUSY : RegDef := ⟨0x1030010, [⟨8, 0x100000, 0⟩, ⟨9, 0x1000, 0⟩], 16, 1, .const 0, .ro, (.derived .spPgBusy), false⟩

/-- R164 0x01030014 [0:0] by n, k. -/
def SP_AOW_SAT : RegDef := ⟨0x1030014, [⟨8, 0x100000, 0⟩, ⟨9, 0x1000, 0⟩], 0, 1, .const 0, .w1c, .stored, false⟩

/-- R164 0x01030014 [1:1] by n, k. -/
def SP_AOW_NAN : RegDef := ⟨0x1030014, [⟨8, 0x100000, 0⟩, ⟨9, 0x1000, 0⟩], 1, 1, .const 0, .w1c, .stored, false⟩

/-- R164 0x01030014 [2:2] by n, k. -/
def SP_CREDIT_SAT : RegDef := ⟨0x1030014, [⟨8, 0x100000, 0⟩, ⟨9, 0x1000, 0⟩], 2, 1, .const 0, .w1c, .stored, false⟩

/-- R164 0x01030014 [3:3] by n, k. -/
def SP_TAG_ODD : RegDef := ⟨0x1030014, [⟨8, 0x100000, 0⟩, ⟨9, 0x1000, 0⟩], 3, 1, .const 0, .w1c, .stored, false⟩

/-- R164 0x01030014 [4:4] by n, k. -/
def SP_ECC_CORR : RegDef := ⟨0x1030014, [⟨8, 0x100000, 0⟩, ⟨9, 0x1000, 0⟩], 4, 1, .const 0, .w1c, .stored, false⟩

/-- R164 0x01030014 [5:5] by n, k. -/
def SP_ECC_DED : RegDef := ⟨0x1030014, [⟨8, 0x100000, 0⟩, ⟨9, 0x1000, 0⟩], 5, 1, .const 0, .w1c, .stored, false⟩

/-- R164 0x01030014 [6:6] by n, k. -/
def SP_PG_TIMEOUT : RegDef := ⟨0x1030014, [⟨8, 0x100000, 0⟩, ⟨9, 0x1000, 0⟩], 6, 1, .const 0, .w1c, .stored, false⟩

/-- R164 0x01030018 [31:0] by n, k. -/
def SP_ECC_CORR_CNT : RegDef := ⟨0x1030018, [⟨8, 0x100000, 0⟩, ⟨9, 0x1000, 0⟩], 0, 32, .const 0, .ro, .stored, false⟩

/-- R164 0x0103001C [5:0] by n, k. -/
def SP_ECC_BANK : RegDef := ⟨0x103001C, [⟨8, 0x100000, 0⟩, ⟨9, 0x1000, 0⟩], 0, 6, .const 0, .ro, .stored, false⟩

/-- R164 0x0103001C [15:8] by n, k. -/
def SP_ECC_PROW : RegDef := ⟨0x103001C, [⟨8, 0x100000, 0⟩, ⟨9, 0x1000, 0⟩], 8, 8, .const 0, .ro, .stored, false⟩

/-- R164 0x0103001C [16:16] by n, k. -/
def SP_ECC_WAS_DED : RegDef := ⟨0x103001C, [⟨8, 0x100000, 0⟩, ⟨9, 0x1000, 0⟩], 16, 1, .const 0, .ro, .stored, false⟩

/-- R164 0x01030020 [31:0] by n, k. -/
def SP_COLLIDE : RegDef := ⟨0x1030020, [⟨8, 0x100000, 0⟩, ⟨9, 0x1000, 0⟩], 0, 32, .const 0, .ro, (.derived .spCollide), false⟩

/-- R164 0x01030024 [31:0] by n, k. -/
def SP_PORT_WAIT : RegDef := ⟨0x1030024, [⟨8, 0x100000, 0⟩, ⟨9, 0x1000, 0⟩], 0, 32, .const 0, .ro, (.derived .spPortWait), false⟩

/-- R164 0x01030028 [15:0] by n, k. -/
def SP_PG_WAIT_LIMIT : RegDef := ⟨0x1030028, [⟨8, 0x100000, 0⟩, ⟨9, 0x1000, 0⟩], 0, 16, .const 1000, .rws, .stored, false⟩

/-- R164 0x01030040 [21:0] by n, k, t. -/
def SP_TASK_BASE : RegDef := ⟨0x1030040, [⟨8, 0x100000, 0⟩, ⟨9, 0x1000, 0⟩, ⟨8, 0x8, 0⟩], 0, 22, .const 0, .rws, .stored, false⟩

/-- R164 0x01030044 [21:0] by n, k, t. -/
def SP_TASK_BOUND : RegDef := ⟨0x1030044, [⟨8, 0x100000, 0⟩, ⟨9, 0x1000, 0⟩, ⟨8, 0x8, 0⟩], 0, 22, .const 0, .rws, .stored, false⟩

/-- R164 0x01030100 [6:0] by n, k, b, i. -/
def SP_REMAP_ROW : RegDef := ⟨0x1030100, [⟨8, 0x100000, 0⟩, ⟨9, 0x1000, 0⟩, ⟨48, 0x4, 0⟩, ⟨4, 0x0, 8⟩], 0, 7, .const 0, .ro, .stored, false⟩

/-- R164 0x01030100 [7:7] by n, k, b, i. -/
def SP_REMAP_VALID : RegDef := ⟨0x1030100, [⟨8, 0x100000, 0⟩, ⟨9, 0x1000, 0⟩, ⟨48, 0x4, 0⟩, ⟨4, 0x0, 8⟩], 7, 1, .const 0, .ro, .stored, false⟩

/-- R164 0x01030200 [13:0] by n, k, r. -/
def SP_OUTRT_CRED : RegDef := ⟨0x1030200, [⟨8, 0x100000, 0⟩, ⟨9, 0x1000, 0⟩, ⟨16, 0x4, 0⟩], 0, 14, .const 0, .ro, .stored, false⟩

/-- R164 0x01030200 [14:14] by n, k, r. -/
def SP_OUTRT_WAITING : RegDef := ⟨0x1030200, [⟨8, 0x100000, 0⟩, ⟨9, 0x1000, 0⟩, ⟨16, 0x4, 0⟩], 14, 1, .const 0, .ro, .stored, false⟩

/-- R164 0x01030400 [0:0] by n, k, h. -/
def HND_VALID : RegDef := ⟨0x1030400, [⟨8, 0x100000, 0⟩, ⟨9, 0x1000, 0⟩, ⟨64, 0x10, 0⟩], 0, 1, .const 0, .rws, .stored, false⟩

/-- R164 0x01030400 [1:1] by n, k, h. -/
def HND_KIND : RegDef := ⟨0x1030400, [⟨8, 0x100000, 0⟩, ⟨9, 0x1000, 0⟩, ⟨64, 0x10, 0⟩], 1, 1, .const 0, .rws, .stored, false⟩

/-- R164 0x01030400 [3:2] by n, k, h. -/
def HND_TAGMODE : RegDef := ⟨0x1030400, [⟨8, 0x100000, 0⟩, ⟨9, 0x1000, 0⟩, ⟨64, 0x10, 0⟩], 2, 2, .const 0, .rws, .stored, false⟩

/-- R164 0x01030400 [4:4] by n, k, h. -/
def HND_HALVES : RegDef := ⟨0x1030400, [⟨8, 0x100000, 0⟩, ⟨9, 0x1000, 0⟩, ⟨64, 0x10, 0⟩], 4, 1, .const 0, .rws, .stored, false⟩

/-- R164 0x01030400 [5:5] by n, k, h. -/
def HND_ZFILL : RegDef := ⟨0x1030400, [⟨8, 0x100000, 0⟩, ⟨9, 0x1000, 0⟩, ⟨64, 0x10, 0⟩], 5, 1, .const 0, .rws, .stored, false⟩

/-- R164 0x01030400 [15:8] by n, k, h. -/
def HND_OWNERS : RegDef := ⟨0x1030400, [⟨8, 0x100000, 0⟩, ⟨9, 0x1000, 0⟩, ⟨64, 0x10, 0⟩], 8, 8, .const 0, .rws, .stored, false⟩

/-- R164 0x01030400 [19:16] by n, k, h. -/
def HND_RELN : RegDef := ⟨0x1030400, [⟨8, 0x100000, 0⟩, ⟨9, 0x1000, 0⟩, ⟨64, 0x10, 0⟩], 16, 4, .const 0, .rws, .stored, false⟩

/-- R164 0x01030404 [12:0] by n, k, h. -/
def HND_BASE_ROW : RegDef := ⟨0x1030404, [⟨8, 0x100000, 0⟩, ⟨9, 0x1000, 0⟩, ⟨64, 0x10, 0⟩], 0, 13, .const 0, .rws, .stored, false⟩

/-- R164 0x01030404 [28:16] by n, k, h. -/
def HND_SIZE : RegDef := ⟨0x1030404, [⟨8, 0x100000, 0⟩, ⟨9, 0x1000, 0⟩, ⟨64, 0x10, 0⟩], 16, 13, .const 0, .rws, .stored, false⟩

/-- R164 0x01030408 [0:0] by n, k, h. -/
def HND_THALVES : RegDef := ⟨0x1030408, [⟨8, 0x100000, 0⟩, ⟨9, 0x1000, 0⟩, ⟨64, 0x10, 0⟩], 0, 1, .const 0, .rws, .stored, false⟩

/-- R164 0x01030408 [28:16] by n, k, h. -/
def HND_TSIZE : RegDef := ⟨0x1030408, [⟨8, 0x100000, 0⟩, ⟨9, 0x1000, 0⟩, ⟨64, 0x10, 0⟩], 16, 13, .const 0, .rws, .stored, false⟩

/-- R164 0x01030800 [0:0] by n, k, s. -/
def SLOT_FULL : RegDef := ⟨0x1030800, [⟨8, 0x100000, 0⟩, ⟨9, 0x1000, 0⟩, ⟨128, 0x4, 0⟩], 0, 1, .const 0, .ro, .stored, false⟩

/-- R164 0x01030800 [4:1] by n, k, s. -/
def SLOT_RELCNT : RegDef := ⟨0x1030800, [⟨8, 0x100000, 0⟩, ⟨9, 0x1000, 0⟩, ⟨128, 0x4, 0⟩], 1, 4, .const 0, .ro, .stored, false⟩

/-- R164 0x01030800 [31:16] by n, k, s. -/
def SLOT_GEN : RegDef := ⟨0x1030800, [⟨8, 0x100000, 0⟩, ⟨9, 0x1000, 0⟩, ⟨128, 0x4, 0⟩], 16, 16, .const 0, .ro, .stored, false⟩

/-- R164 0x01030C00 [0:0] by n, k, i. -/
def SP_INRT_VALID : RegDef := ⟨0x1030C00, [⟨8, 0x100000, 0⟩, ⟨9, 0x1000, 0⟩, ⟨32, 0x8, 0⟩], 0, 1, .const 0, .rws, .stored, false⟩

/-- R164 0x01030C00 [6:1] by n, k, i. -/
def SP_INRT_HANDLE : RegDef := ⟨0x1030C00, [⟨8, 0x100000, 0⟩, ⟨9, 0x1000, 0⟩, ⟨32, 0x8, 0⟩], 1, 6, .const 0, .rws, .stored, false⟩

/-- R164 0x01030C00 [16:8] by n, k, i. -/
def SP_INRT_WRITER : RegDef := ⟨0x1030C00, [⟨8, 0x100000, 0⟩, ⟨9, 0x1000, 0⟩, ⟨32, 0x8, 0⟩], 8, 9, .const 0, .rws, .stored, false⟩

/-- R164 0x01030C00 [20:17] by n, k, i. -/
def SP_INRT_ROUTE : RegDef := ⟨0x1030C00, [⟨8, 0x100000, 0⟩, ⟨9, 0x1000, 0⟩, ⟨32, 0x8, 0⟩], 17, 4, .const 0, .rws, .stored, false⟩

/-- R164 0x01030C04 [12:0] by n, k, i. -/
def SP_INRT_ALLOC : RegDef := ⟨0x1030C04, [⟨8, 0x100000, 0⟩, ⟨9, 0x1000, 0⟩, ⟨32, 0x8, 0⟩], 0, 13, .const 0, .rws, .stored, false⟩

/-- R194 0x01020000 [3:0] by n, u. -/
def SU_UNIT : RegDef := ⟨0x1020000, [⟨8, 0x100000, 0⟩, ⟨16, 0x800, 0⟩], 0, 4, .lin 0 [0, 1], .ro, .fixed, false⟩

/-- R194 0x01020000 [6:4] by n, u. -/
def SU_CLUSTER : RegDef := ⟨0x1020000, [⟨8, 0x100000, 0⟩, ⟨16, 0x800, 0⟩], 4, 3, .lin 0 [1], .ro, .fixed, false⟩

/-- R194 0x01020000 [24:16] by n, u. -/
def SU_MASTER : RegDef := ⟨0x1020000, [⟨8, 0x100000, 0⟩, ⟨16, 0x800, 0⟩], 16, 9, .lin 256 [16, 1], .ro, .fixed, false⟩

/-- R194 0x01020004 [2:0] by n, u. -/
def SU_STATE : RegDef := ⟨0x1020004, [⟨8, 0x100000, 0⟩, ⟨16, 0x800, 0⟩], 0, 3, .const 0, .ro, .stored, false⟩

/-- R194 0x01020004 [7:3] by n, u. -/
def SU_PC : RegDef := ⟨0x1020004, [⟨8, 0x100000, 0⟩, ⟨16, 0x800, 0⟩], 3, 5, .const 0, .ro, .stored, false⟩

/-- R194 0x01020004 [11:8] by n, u. -/
def SU_LOOPS : RegDef := ⟨0x1020004, [⟨8, 0x100000, 0⟩, ⟨16, 0x800, 0⟩], 8, 4, .const 0, .ro, (.derived .suLoops), false⟩

/-- R194 0x01020004 [12:12] by n, u. -/
def SU_PENDING : RegDef := ⟨0x1020004, [⟨8, 0x100000, 0⟩, ⟨16, 0x800, 0⟩], 12, 1, .const 0, .ro, (.derived .suPending), false⟩

/-- R194 0x01020004 [22:16] by n, u. -/
def SU_TAGS : RegDef := ⟨0x1020004, [⟨8, 0x100000, 0⟩, ⟨16, 0x800, 0⟩], 16, 7, .const 0, .ro, (.derived .suTags), false⟩

/-- R194 0x01020008 [0:0] by n, u. -/
def SU_ENABLE : RegDef := ⟨0x1020008, [⟨8, 0x100000, 0⟩, ⟨16, 0x800, 0⟩], 0, 1, .const 0, .rws, .stored, false⟩

/-- R194 0x01020008 [5:1] by n, u. -/
def SU_ENTRY_PC : RegDef := ⟨0x1020008, [⟨8, 0x100000, 0⟩, ⟨16, 0x800, 0⟩], 1, 5, .const 0, .rws, .stored, false⟩

/-- R194 0x01020008 [6:6] by n, u. -/
def SU_CACHE : RegDef := ⟨0x1020008, [⟨8, 0x100000, 0⟩, ⟨16, 0x800, 0⟩], 6, 1, .const 0, .rws, .stored, false⟩

/-- R194 0x01020008 [13:8] by n, u. -/
def SU_PIPELINE : RegDef := ⟨0x1020008, [⟨8, 0x100000, 0⟩, ⟨16, 0x800, 0⟩], 8, 6, .const 0, .rws, .stored, false⟩

/-- R194 0x01020008 [22:16] by n, u. -/
def SU_TAGLIM : RegDef := ⟨0x1020008, [⟨8, 0x100000, 0⟩, ⟨16, 0x800, 0⟩], 16, 7, .const 64, .rws, .stored, false⟩

/-- R194 0x01020008 [30:24] by n, u. -/
def SU_TAGRES : RegDef := ⟨0x1020008, [⟨8, 0x100000, 0⟩, ⟨16, 0x800, 0⟩], 24, 7, .const 0, .rws, .stored, false⟩

/-- R194 0x0102000C [15:0] by n, u. -/
def SU_RATE : RegDef := ⟨0x102000C, [⟨8, 0x100000, 0⟩, ⟨16, 0x800, 0⟩], 0, 16, .const 0, .rws, .stored, false⟩

/-- R194 0x0102000C [27:16] by n, u. -/
def SU_BURST : RegDef := ⟨0x102000C, [⟨8, 0x100000, 0⟩, ⟨16, 0x800, 0⟩], 16, 12, .const 0, .rws, .stored, false⟩

/-- R194 0x0102000C [28:28] by n, u. -/
def SU_REG_EN : RegDef := ⟨0x102000C, [⟨8, 0x100000, 0⟩, ⟨16, 0x800, 0⟩], 28, 1, .const 0, .rws, .stored, false⟩

/-- R194 0x01020010 [11:0] by n, u. -/
def SU_TOKENS : RegDef := ⟨0x1020010, [⟨8, 0x100000, 0⟩, ⟨16, 0x800, 0⟩], 0, 12, .const 0, .ro, (.derived .suTokens), false⟩

/-- R194 0x01020014 [31:0] by n, u. -/
def SU_DL : RegDef := ⟨0x1020014, [⟨8, 0x100000, 0⟩, ⟨16, 0x800, 0⟩], 0, 32, .const 0, .ro, .stored, false⟩

/-- R194 0x01020018 [31:0] by n, u. -/
def SU_LAUNCH : RegDef := ⟨0x1020018, [⟨8, 0x100000, 0⟩, ⟨16, 0x800, 0⟩], 0, 32, .const 0, .ro, .stored, false⟩

/-- R194 0x0102001C [15:0] by n, u. -/
def SU_CSTALL_LIMIT : RegDef := ⟨0x102001C, [⟨8, 0x100000, 0⟩, ⟨16, 0x800, 0⟩], 0, 16, .const 200, .rws, .stored, false⟩

/-- R194 0x01020020 [0:0] by n, u. -/
def SU_REARM_OVERRUN : RegDef := ⟨0x1020020, [⟨8, 0x100000, 0⟩, ⟨16, 0x800, 0⟩], 0, 1, .const 0, .w1c, .stored, false⟩

/-- R194 0x01020020 [1:1] by n, u. -/
def SU_CREDIT_SAT : RegDef := ⟨0x1020020, [⟨8, 0x100000, 0⟩, ⟨16, 0x800, 0⟩], 1, 1, .const 0, .w1c, .stored, false⟩

/-- R194 0x01020020 [2:2] by n, u. -/
def SU_POISON : RegDef := ⟨0x1020020, [⟨8, 0x100000, 0⟩, ⟨16, 0x800, 0⟩], 2, 1, .const 0, .w1c, .stored, false⟩

/-- R194 0x01020020 [3:3] by n, u. -/
def SU_MV_CLAMP : RegDef := ⟨0x1020020, [⟨8, 0x100000, 0⟩, ⟨16, 0x800, 0⟩], 3, 1, .const 0, .w1c, .stored, false⟩

/-- R194 0x01020024 [7:0] by n, u. -/
def SU_FAULT_CODE : RegDef := ⟨0x1020024, [⟨8, 0x100000, 0⟩, ⟨16, 0x800, 0⟩], 0, 8, .const 0, .ro, .stored, false⟩

/-- R194 0x01020024 [12:8] by n, u. -/
def SU_FAULT_PC : RegDef := ⟨0x1020024, [⟨8, 0x100000, 0⟩, ⟨16, 0x800, 0⟩], 8, 5, .const 0, .ro, .stored, false⟩

/-- R194 0x01020028 [31:0] by n, u. -/
def SU_MVCLAMP_CNT : RegDef := ⟨0x1020028, [⟨8, 0x100000, 0⟩, ⟨16, 0x800, 0⟩], 0, 32, .const 0, .ro, .stored, false⟩

/-- R194 0x0102002C [31:0] by n, u. -/
def SU_LATE_CNT : RegDef := ⟨0x102002C, [⟨8, 0x100000, 0⟩, ⟨16, 0x800, 0⟩], 0, 32, .const 0, .ro, .stored, false⟩

/-- R194 0x01020030 [31:0] by n, u. -/
def SU_BYTES_LO : RegDef := ⟨0x1020030, [⟨8, 0x100000, 0⟩, ⟨16, 0x800, 0⟩], 0, 32, .const 0, .ro, (.derived .suBytesLo), false⟩

/-- R194 0x01020034 [31:0] by n, u. -/
def SU_BYTES_HI : RegDef := ⟨0x1020034, [⟨8, 0x100000, 0⟩, ⟨16, 0x800, 0⟩], 0, 32, .const 0, .ro, .stored, false⟩

/-- R194 0x01020038 [0:0] by n, u. -/
def SU_CNT_CLEAR : RegDef := ⟨0x1020038, [⟨8, 0x100000, 0⟩, ⟨16, 0x800, 0⟩], 0, 1, .const 0, .wo, .stored, true⟩

/-- R194 0x01020040 [6:0] by n, u, r. -/
def SU_RT_TCORE : RegDef := ⟨0x1020040, [⟨8, 0x100000, 0⟩, ⟨16, 0x800, 0⟩, ⟨8, 0x10, 0⟩], 0, 7, .const 0, .rws, .stored, false⟩

/-- R194 0x01020040 [13:8] by n, u, r. -/
def SU_RT_THANDLE : RegDef := ⟨0x1020040, [⟨8, 0x100000, 0⟩, ⟨16, 0x800, 0⟩, ⟨8, 0x10, 0⟩], 8, 6, .const 0, .rws, .stored, false⟩

/-- R194 0x01020040 [17:14] by n, u, r. -/
def SU_RT_ROUTE : RegDef := ⟨0x1020040, [⟨8, 0x100000, 0⟩, ⟨16, 0x800, 0⟩, ⟨8, 0x10, 0⟩], 14, 4, .const 0, .rws, .stored, false⟩

/-- R194 0x01020040 [31:31] by n, u, r. -/
def SU_RT_VALID : RegDef := ⟨0x1020040, [⟨8, 0x100000, 0⟩, ⟨16, 0x800, 0⟩, ⟨8, 0x10, 0⟩], 31, 1, .const 0, .rws, .stored, false⟩

/-- R194 0x01020044 [12:0] by n, u, r. -/
def SU_RT_TSIZE : RegDef := ⟨0x1020044, [⟨8, 0x100000, 0⟩, ⟨16, 0x800, 0⟩, ⟨8, 0x10, 0⟩], 0, 13, .const 0, .rws, .stored, false⟩

/-- R194 0x01020044 [16:16] by n, u, r. -/
def SU_RT_THALVES : RegDef := ⟨0x1020044, [⟨8, 0x100000, 0⟩, ⟨16, 0x800, 0⟩, ⟨8, 0x10, 0⟩], 16, 1, .const 0, .rws, .stored, false⟩

/-- R194 0x01020048 [13:0] by n, u, r. -/
def SU_RT_CRED : RegDef := ⟨0x1020048, [⟨8, 0x100000, 0⟩, ⟨16, 0x800, 0⟩, ⟨8, 0x10, 0⟩], 0, 14, .const 0, .ro, .stored, false⟩

/-- R194 0x01020048 [14:14] by n, u, r. -/
def SU_RT_WAITING : RegDef := ⟨0x1020048, [⟨8, 0x100000, 0⟩, ⟨16, 0x800, 0⟩, ⟨8, 0x10, 0⟩], 14, 1, .const 0, .ro, .stored, false⟩

/-- R194 0x01020048 [15:15] by n, u, r. -/
def SU_RT_CUR_HALF : RegDef := ⟨0x1020048, [⟨8, 0x100000, 0⟩, ⟨16, 0x800, 0⟩, ⟨8, 0x10, 0⟩], 15, 1, .const 0, .ro, .stored, false⟩

/-- R194 0x010200C0 [6:0] by n, u, w. -/
def SU_WP_TCORE : RegDef := ⟨0x10200C0, [⟨8, 0x100000, 0⟩, ⟨16, 0x800, 0⟩, ⟨4, 0x10, 0⟩], 0, 7, .const 0, .rws, .stored, false⟩

/-- R194 0x010200C0 [13:8] by n, u, w. -/
def SU_WP_THANDLE : RegDef := ⟨0x10200C0, [⟨8, 0x100000, 0⟩, ⟨16, 0x800, 0⟩, ⟨4, 0x10, 0⟩], 8, 6, .const 0, .rws, .stored, false⟩

/-- R194 0x010200C0 [14:14] by n, u, w. -/
def SU_WP_THALVES : RegDef := ⟨0x10200C0, [⟨8, 0x100000, 0⟩, ⟨16, 0x800, 0⟩, ⟨4, 0x10, 0⟩], 14, 1, .const 0, .rws, .stored, false⟩

/-- R194 0x010200C0 [31:31] by n, u, w. -/
def SU_WP_VALID : RegDef := ⟨0x10200C0, [⟨8, 0x100000, 0⟩, ⟨16, 0x800, 0⟩, ⟨4, 0x10, 0⟩], 31, 1, .const 0, .rws, .stored, false⟩

/-- R194 0x010200C4 [12:0] by n, u, w. -/
def SU_WP_TSIZE : RegDef := ⟨0x10200C4, [⟨8, 0x100000, 0⟩, ⟨16, 0x800, 0⟩, ⟨4, 0x10, 0⟩], 0, 13, .const 0, .rws, .stored, false⟩

/-- R194 0x010200C4 [16:16] by n, u, w. -/
def SU_WP_CUR_HALF : RegDef := ⟨0x10200C4, [⟨8, 0x100000, 0⟩, ⟨16, 0x800, 0⟩, ⟨4, 0x10, 0⟩], 16, 1, .const 0, .ro, .stored, false⟩

/-- R194 0x010200C8 [15:0] by n, u, w. -/
def SU_WP_EGEN0 : RegDef := ⟨0x10200C8, [⟨8, 0x100000, 0⟩, ⟨16, 0x800, 0⟩, ⟨4, 0x10, 0⟩], 0, 16, .const 1, .ro, .stored, false⟩

/-- R194 0x010200C8 [31:16] by n, u, w. -/
def SU_WP_EGEN1 : RegDef := ⟨0x10200C8, [⟨8, 0x100000, 0⟩, ⟨16, 0x800, 0⟩, ⟨4, 0x10, 0⟩], 16, 16, .const 1, .ro, .stored, false⟩

/-- R194 0x01020200 [2:0] by n, u. -/
def SU_DBG_SPACE : RegDef := ⟨0x1020200, [⟨8, 0x100000, 0⟩, ⟨16, 0x800, 0⟩], 0, 3, .const 0, .rw, .stored, false⟩

/-- R194 0x01020200 [7:3] by n, u. -/
def SU_DBG_INDEX : RegDef := ⟨0x1020200, [⟨8, 0x100000, 0⟩, ⟨16, 0x800, 0⟩], 3, 5, .const 0, .rw, .stored, false⟩

/-- R194 0x01020204 [31:0] by n, u. -/
def SU_DBG_DATA : RegDef := ⟨0x1020204, [⟨8, 0x100000, 0⟩, ⟨16, 0x800, 0⟩], 0, 32, .const 0, .ro, (.derived .suDbg), false⟩

/-- R194 0x01020400 [31:0] by n, u, i, v. -/
def SU_PROG_W : RegDef := ⟨0x1020400, [⟨8, 0x100000, 0⟩, ⟨16, 0x800, 0⟩, ⟨32, 0x10, 0⟩, ⟨4, 0x4, 0⟩], 0, 32, .const 0, .ro, (.derived .suProg), false⟩

/-- R195 0x00800000 [3:0]. -/
def DDR_CHANNELS : RegDef := ⟨0x800000, [], 0, 4, .const 12, .ro, .fixed, false⟩

/-- R195 0x00800000 [31:16]. -/
def DDR_DATARATE : RegDef := ⟨0x800000, [], 16, 16, .const 0, .ro, .stored, false⟩

/-- R195 0x00800004 [6:0]. -/
def DDR_CAP_GIB : RegDef := ⟨0x800004, [], 0, 7, .const 0, .ro, .stored, false⟩

/-- R195 0x00800004 [23:12]. -/
def DDR_CH_READY : RegDef := ⟨0x800004, [], 12, 12, .const 0, .ro, .stored, false⟩

/-- R195 0x00800008 [3:0]. -/
def DDR_COLBITS : RegDef := ⟨0x800008, [], 0, 4, .const 0, .ro, .stored, false⟩

/-- R195 0x0080000C [15:0]. -/
def DDR_HIT_SLACK : RegDef := ⟨0x80000C, [], 0, 16, .const 2000, .rws, .stored, false⟩

/-- R195 0x0080000C [21:16]. -/
def DDR_WQ_HIGH : RegDef := ⟨0x80000C, [], 16, 6, .const 48, .rws, .stored, false⟩

/-- R195 0x0080000C [27:22]. -/
def DDR_WQ_LOW : RegDef := ⟨0x80000C, [], 22, 6, .const 16, .rws, .stored, false⟩

/-- R195 0x00800010 [15:0]. -/
def DDR_NODL : RegDef := ⟨0x800010, [], 0, 16, .const 1000, .rws, .stored, false⟩

/-- R195 0x00800014 [15:0]. -/
def DDR_SCRUB_HOURS : RegDef := ⟨0x800014, [], 0, 16, .const 24, .rws, .stored, false⟩

/-- R195 0x00800018 [31:0]. -/
def DDR_ECC_CE_CNT : RegDef := ⟨0x800018, [], 0, 32, .const 0, .ro, .stored, false⟩

/-- R195 0x0080001C [31:0]. -/
def DDR_ECC_UE_CNT : RegDef := ⟨0x80001C, [], 0, 32, .const 0, .ro, .stored, false⟩

/-- R195 0x00800020 [31:0]. -/
def DDR_ECC_ADDR_LO : RegDef := ⟨0x800020, [], 0, 32, .const 0, .ro, .stored, false⟩

/-- R195 0x00800024 [15:0]. -/
def DDR_ECC_ADDR_HI : RegDef := ⟨0x800024, [], 0, 16, .const 0, .ro, .stored, false⟩

/-- R195 0x00800024 [16:16]. -/
def DDR_ECC_WAS_UE : RegDef := ⟨0x800024, [], 16, 1, .const 0, .ro, .stored, false⟩

/-- R195 0x00800028 [31:0]. -/
def DDR_REF_POSTPONED : RegDef := ⟨0x800028, [], 0, 32, .const 0, .ro, .stored, false⟩

/-- R195 0x0080002C [31:0]. -/
def DDR_HIT_PROMOTED : RegDef := ⟨0x80002C, [], 0, 32, .const 0, .ro, .stored, false⟩

/-- R195 0x00800040 [15:0] by ch. -/
def DDR_CH_UTIL : RegDef := ⟨0x800040, [⟨12, 0x4, 0⟩], 0, 16, .const 0, .ro, (.derived .ddrUtil), false⟩

/-- R195 0x00800080 [0:0]. -/
def DDR_CNT_CLEAR : RegDef := ⟨0x800080, [], 0, 1, .const 0, .wo, .stored, true⟩

/-- R225 0x01000000 [2:0] by n. -/
def CL_CLUSTER : RegDef := ⟨0x1000000, [⟨8, 0x100000, 0⟩], 0, 3, .lin 0 [1], .ro, .fixed, false⟩

/-- R225 0x01000004 [10:0] by n. -/
def CL_CLK_MHZ : RegDef := ⟨0x1000004, [⟨8, 0x100000, 0⟩], 0, 11, .const 0, .ro, .stored, false⟩

/-- R225 0x01000008 [8:0] by n. -/
def CL_ACTIVE : RegDef := ⟨0x1000008, [⟨8, 0x100000, 0⟩], 0, 9, .const 255, .ro, .stored, false⟩

/-- R225 0x01000008 [24:16] by n. -/
def CL_RETIRED : RegDef := ⟨0x1000008, [⟨8, 0x100000, 0⟩], 16, 9, .const 0, .ro, (.derived .clRetired), false⟩

/-- R225 0x0100000C [3:0] by n. -/
def CL_PLAN : RegDef := ⟨0x100000C, [⟨8, 0x100000, 0⟩], 0, 4, .const 0, .ro, .stored, false⟩

/-- R225 0x0100000C [7:4] by n. -/
def CL_SPARE_FOR : RegDef := ⟨0x100000C, [⟨8, 0x100000, 0⟩], 4, 4, .const 15, .ro, .stored, false⟩

/-- R225 0x01000010 [0:0] by n. -/
def CL_SC_EN : RegDef := ⟨0x1000010, [⟨8, 0x100000, 0⟩], 0, 1, .const 1, .rws, .stored, false⟩

/-- R225 0x01000014 [31:0] by n. -/
def CL_SC_HIT : RegDef := ⟨0x1000014, [⟨8, 0x100000, 0⟩], 0, 32, .const 0, .ro, .stored, false⟩

/-- R225 0x01000018 [31:0] by n. -/
def CL_SC_MISS : RegDef := ⟨0x1000018, [⟨8, 0x100000, 0⟩], 0, 32, .const 0, .ro, .stored, false⟩

/-- R225 0x0100001C [31:0] by n. -/
def CL_SC_DED : RegDef := ⟨0x100001C, [⟨8, 0x100000, 0⟩], 0, 32, .const 0, .ro, .stored, false⟩

/-- R225 0x01000020 [0:0] by n. -/
def CL_CNT_CLEAR : RegDef := ⟨0x1000020, [⟨8, 0x100000, 0⟩], 0, 1, .const 0, .wo, .stored, true⟩

/-- R225 0x01000024 [8:0] by n. -/
def CL_RING_MEMBERS : RegDef := ⟨0x1000024, [⟨8, 0x100000, 0⟩], 0, 9, .const 0, .rws, .stored, false⟩

/-- R225 0x01000024 [19:16] by n. -/
def CL_RING_SU : RegDef := ⟨0x1000024, [⟨8, 0x100000, 0⟩], 16, 4, .const 0, .rws, .stored, false⟩

/-- R225 0x01000024 [20:20] by n. -/
def CL_RING_STREAM : RegDef := ⟨0x1000024, [⟨8, 0x100000, 0⟩], 20, 1, .const 0, .rws, .stored, false⟩

/-- R225 0x01000028 [31:0] by n. -/
def CL_RING_BYTES : RegDef := ⟨0x1000028, [⟨8, 0x100000, 0⟩], 0, 32, .const 0, .ro, .stored, false⟩

/-- R225 0x01000040 [8:0] by n, g. -/
def CL_MCG_MEMBERS : RegDef := ⟨0x1000040, [⟨8, 0x100000, 0⟩, ⟨7, 0x8, 0⟩], 0, 9, .const 0, .rws, .stored, false⟩

/-- R225 0x01000040 [14:9] by n, g. -/
def CL_MCG_THANDLE : RegDef := ⟨0x1000040, [⟨8, 0x100000, 0⟩, ⟨7, 0x8, 0⟩], 9, 6, .const 0, .rws, .stored, false⟩

/-- R225 0x01000040 [15:15] by n, g. -/
def CL_MCG_VALID : RegDef := ⟨0x1000040, [⟨8, 0x100000, 0⟩, ⟨7, 0x8, 0⟩], 15, 1, .const 0, .rws, .stored, false⟩

/-- R225 0x01000044 [31:0] by n, g. -/
def CL_MCG_WAIT : RegDef := ⟨0x1000044, [⟨8, 0x100000, 0⟩, ⟨7, 0x8, 0⟩], 0, 32, .const 0, .ro, (.derived .mcgWait), false⟩

/-- R225 0x01000100 [0:0] by n, w. -/
def CL_WC_VALID : RegDef := ⟨0x1000100, [⟨8, 0x100000, 0⟩, ⟨32, 0x20, 0⟩], 0, 1, .const 0, .rws, .stored, false⟩

/-- R225 0x01000100 [6:1] by n, w. -/
def CL_WC_PIPELINE : RegDef := ⟨0x1000100, [⟨8, 0x100000, 0⟩, ⟨32, 0x20, 0⟩], 1, 6, .const 0, .rws, .stored, false⟩

/-- R225 0x01000100 [16:8] by n, w. -/
def CL_WC_MEMBERS : RegDef := ⟨0x1000100, [⟨8, 0x100000, 0⟩, ⟨32, 0x20, 0⟩], 8, 9, .const 0, .rws, .stored, false⟩

/-- R225 0x01000104 [11:0] by n, w. -/
def CL_WC_PER_ROW : RegDef := ⟨0x1000104, [⟨8, 0x100000, 0⟩, ⟨32, 0x20, 0⟩], 0, 12, .const 0, .rws, .stored, false⟩

/-- R225 0x01000108 [15:0] by n, w. -/
def CL_WC_LEASE : RegDef := ⟨0x1000108, [⟨8, 0x100000, 0⟩, ⟨32, 0x20, 0⟩], 0, 16, .const 50, .rws, .stored, false⟩

/-- R225 0x01000108 [31:16] by n, w. -/
def CL_WC_CLOSE_LIMIT : RegDef := ⟨0x1000108, [⟨8, 0x100000, 0⟩, ⟨32, 0x20, 0⟩], 16, 16, .const 200, .rws, .stored, false⟩

/-- R225 0x0100010C [1:0] by n, w. -/
def CL_WC_STATE : RegDef := ⟨0x100010C, [⟨8, 0x100000, 0⟩, ⟨32, 0x20, 0⟩], 0, 2, .const 0, .ro, .stored, false⟩

/-- R225 0x0100010C [2:2] by n, w. -/
def CL_WC_ARM_QUEUED : RegDef := ⟨0x100010C, [⟨8, 0x100000, 0⟩, ⟨32, 0x20, 0⟩], 2, 1, .const 0, .ro, (.derived .wcArmQueued), false⟩

/-- R225 0x0100010C [14:8] by n, w. -/
def CL_WC_LEASES : RegDef := ⟨0x100010C, [⟨8, 0x100000, 0⟩, ⟨32, 0x20, 0⟩], 8, 7, .const 0, .ro, (.derived .wcLeases), false⟩

/-- R225 0x0100010C [31:16] by n, w. -/
def CL_WC_LGEN : RegDef := ⟨0x100010C, [⟨8, 0x100000, 0⟩, ⟨32, 0x20, 0⟩], 16, 16, .const 0, .ro, .stored, false⟩

/-- R225 0x01000110 [15:0] by n, w. -/
def CL_WC_NEXT : RegDef := ⟨0x1000110, [⟨8, 0x100000, 0⟩, ⟨32, 0x20, 0⟩], 0, 16, .const 0, .ro, .stored, false⟩

/-- R225 0x01000110 [31:16] by n, w. -/
def CL_WC_TILES : RegDef := ⟨0x1000110, [⟨8, 0x100000, 0⟩, ⟨32, 0x20, 0⟩], 16, 16, .const 0, .ro, .stored, false⟩

/-- R225 0x01000114 [15:0] by n, w. -/
def CL_WC_ACCEPTED : RegDef := ⟨0x1000114, [⟨8, 0x100000, 0⟩, ⟨32, 0x20, 0⟩], 0, 16, .const 0, .ro, .stored, false⟩

/-- R225 0x01000114 [31:16] by n, w. -/
def CL_WC_REISSUE : RegDef := ⟨0x1000114, [⟨8, 0x100000, 0⟩, ⟨32, 0x20, 0⟩], 16, 16, .const 0, .ro, (.derived .wcReissue), false⟩

/-- R225 0x01000118 [31:0] by n, w. -/
def CL_WC_EXPIRED : RegDef := ⟨0x1000118, [⟨8, 0x100000, 0⟩, ⟨32, 0x20, 0⟩], 0, 32, .const 0, .ro, .stored, false⟩

/-- R225 0x0100011C [31:0] by n, w. -/
def CL_WC_DISCARDED : RegDef := ⟨0x100011C, [⟨8, 0x100000, 0⟩, ⟨32, 0x20, 0⟩], 0, 32, .const 0, .ro, .stored, false⟩

/-- R244 0x00000100 [0:0]. -/
def TOP_ARM_OUT0 : RegDef := ⟨0x100, [], 0, 1, .const 0, .wo, .stored, true⟩

/-- R244 0x00000100 [1:1]. -/
def TOP_ARM_OUT1 : RegDef := ⟨0x100, [], 1, 1, .const 0, .wo, .stored, true⟩

/-- R244 0x00000100 [2:2]. -/
def TOP_ARM_PIPE : RegDef := ⟨0x100, [], 2, 1, .const 0, .wo, .stored, true⟩

/-- R244 0x00000100 [6:4]. -/
def TOP_DISCARD : RegDef := ⟨0x100, [], 4, 3, .const 0, .wo, .stored, true⟩

/-- R244 0x00000104 [2:0]. -/
def TOP_ARMED : RegDef := ⟨0x104, [], 0, 3, .const 0, .ro, .stored, false⟩

/-- R244 0x00000104 [3:3]. -/
def TOP_SPLIT : RegDef := ⟨0x104, [], 3, 1, .const 0, .ro, (.derived .topSplit), false⟩

/-- R244 0x00000104 [4:4]. -/
def TOP_INSTALL_PENDING : RegDef := ⟨0x104, [], 4, 1, .const 0, .ro, (.derived .topInstallPending), false⟩

/-- R244 0x00000104 [10:8]. -/
def TOP_REJECT : RegDef := ⟨0x104, [], 8, 3, .const 0, .w1c, .stored, false⟩

/-- R244 0x00000104 [14:12]. -/
def TOP_LATE : RegDef := ⟨0x104, [], 12, 3, .const 0, .w1c, .stored, false⟩

/-- R244 0x00000104 [15:15]. -/
def TOP_IMG_OWNED : RegDef := ⟨0x104, [], 15, 1, .const 0, .w1c, .stored, false⟩

/-- R244 0x00000108 [7:0]. -/
def TOP_ERR_CODE : RegDef := ⟨0x108, [], 0, 8, .const 0, .ro, .stored, false⟩

/-- R244 0x00000108 [10:8]. -/
def TOP_ERR_DOMAINS : RegDef := ⟨0x108, [], 8, 3, .const 0, .ro, .stored, false⟩

/-- R244 0x00000108 [31:16]. -/
def TOP_ERR_DETAIL : RegDef := ⟨0x108, [], 16, 16, .const 0, .ro, .stored, false⟩

/-- R244 0x0000010C [0:0]. -/
def TOP_PIPE_PACE : RegDef := ⟨0x10C, [], 0, 1, .const 0, .rws, .stored, false⟩

/-- R244 0x0000010C [31:16]. -/
def TOP_PIPE_IDLE_US : RegDef := ⟨0x10C, [], 16, 16, .const 8333, .rws, .stored, false⟩

/-- R244 0x00000110 [31:0]. -/
def TOP_FRAME_OUT0 : RegDef := ⟨0x110, [], 0, 32, .const 0, .ro, .stored, false⟩

/-- R244 0x00000114 [31:0]. -/
def TOP_FRAME_OUT1 : RegDef := ⟨0x114, [], 0, 32, .const 0, .ro, .stored, false⟩

/-- R244 0x00000118 [31:0]. -/
def TOP_FRAME_PIPE : RegDef := ⟨0x118, [], 0, 32, .const 0, .ro, .stored, false⟩

/-- R244 0x00000120 [31:0]. -/
def TOP_IMG_ADDR_LO : RegDef := ⟨0x120, [], 0, 32, .const 0, .rw, .stored, false⟩

/-- R244 0x00000124 [15:0]. -/
def TOP_IMG_ADDR_HI : RegDef := ⟨0x124, [], 0, 16, .const 0, .rw, .stored, false⟩

/-- R244 0x00000128 [31:0]. -/
def TOP_IMG_LEN_LO : RegDef := ⟨0x128, [], 0, 32, .const 0, .rw, .stored, false⟩

/-- R244 0x0000012C [4:0]. -/
def TOP_IMG_LEN_HI : RegDef := ⟨0x12C, [], 0, 5, .const 0, .rw, .stored, false⟩

/-- R244 0x00000130 [1:0]. -/
def TOP_IMG_CMD : RegDef := ⟨0x130, [], 0, 2, .const 0, .wo, .stored, true⟩

/-- R244 0x00000134 [2:0]. -/
def TOP_IMG_STATE : RegDef := ⟨0x134, [], 0, 3, .const 0, .ro, .stored, false⟩

/-- R244 0x00000134 [15:8]. -/
def TOP_IMG_REFUSE : RegDef := ⟨0x134, [], 8, 8, .const 0, .ro, .stored, false⟩

/-- R244 0x00000134 [19:16]. -/
def TOP_IMG_PLAN : RegDef := ⟨0x134, [], 16, 4, .const 0, .ro, .stored, false⟩

/-- R244 0x00000134 [20:20]. -/
def TOP_IMG_DEGRADED : RegDef := ⟨0x134, [], 20, 1, .const 0, .ro, .stored, false⟩

/-- R244 0x00000138 [5:0]. -/
def TOP_DET_PIPE : RegDef := ⟨0x138, [], 0, 6, .const 0, .ro, .stored, false⟩

/-- R244 0x00000138 [9:6]. -/
def TOP_DET_STAGE : RegDef := ⟨0x138, [], 6, 4, .const 0, .ro, .stored, false⟩

/-- R244 0x00000138 [16:10]. -/
def TOP_DET_CORE : RegDef := ⟨0x138, [], 10, 7, .const 127, .ro, .stored, false⟩

/-- R244 0x00000138 [20:17]. -/
def TOP_DET_PLAN : RegDef := ⟨0x138, [], 17, 4, .const 0, .ro, .stored, false⟩

/-- R244 0x00000138 [24:21]. -/
def TOP_DET_ITEM : RegDef := ⟨0x138, [], 21, 4, .const 0, .ro, .stored, false⟩

/-- R244 0x00000140 [31:0]. -/
def TOP_ACT_ADDR_LO : RegDef := ⟨0x140, [], 0, 32, .const 0, .ro, .stored, false⟩

/-- R244 0x00000144 [15:0]. -/
def TOP_ACT_ADDR_HI : RegDef := ⟨0x144, [], 0, 16, .const 0, .ro, .stored, false⟩

/-- R244 0x00000148 [31:0]. -/
def TOP_ACT_LEN_LO : RegDef := ⟨0x148, [], 0, 32, .const 0, .ro, .stored, false⟩

/-- R244 0x0000014C [4:0]. -/
def TOP_ACT_LEN_HI : RegDef := ⟨0x14C, [], 0, 5, .const 0, .ro, .stored, false⟩

/-- R244 0x00000150 [31:0]. -/
def TOP_IMG_CUTOVER_US : RegDef := ⟨0x150, [], 0, 32, .const 0, .ro, .stored, false⟩

/-- R244 0x00000160 [31:0] by i. -/
def TOP_IMG_DIGEST : RegDef := ⟨0x160, [⟨12, 0x4, 0⟩], 0, 32, .const 0, .ro, .stored, false⟩

/-- R244 0x00000190 [31:0]. -/
def TOP_LG_SEQ_LO : RegDef := ⟨0x190, [], 0, 32, .const 0, .ro, .stored, false⟩

/-- R244 0x00000194 [31:0]. -/
def TOP_LG_SEQ_HI : RegDef := ⟨0x194, [], 0, 32, .const 0, .ro, .stored, false⟩

/-- R244 0x00000198 [0:0]. -/
def TOP_LG_OUT_RESTORED : RegDef := ⟨0x198, [], 0, 1, .const 0, .ro, .stored, false⟩

/-- R244 0x00000198 [1:1]. -/
def TOP_LG_PIPE_RESTORED : RegDef := ⟨0x198, [], 1, 1, .const 0, .ro, .stored, false⟩

/-- R244 0x00000198 [2:2]. -/
def TOP_LG_WRITE_PENDING : RegDef := ⟨0x198, [], 2, 1, .const 0, .ro, .stored, false⟩

/-- R244 0x00000198 [3:3]. -/
def TOP_LG_NO_RECORD : RegDef := ⟨0x198, [], 3, 1, .const 0, .ro, .stored, false⟩

/-- R274 0x02000000 [0:0] by x. -/
def OUT_INDEX : RegDef := ⟨0x2000000, [⟨2, 0x100000, 0⟩], 0, 1, .lin 0 [1], .ro, .fixed, false⟩

/-- R274 0x02000004 [0:0] by x. -/
def OUT_ENABLE : RegDef := ⟨0x2000004, [⟨2, 0x100000, 0⟩], 0, 1, .const 0, .rws, .stored, false⟩

/-- R274 0x02000004 [2:1] by x. -/
def OUT_MODE : RegDef := ⟨0x2000004, [⟨2, 0x100000, 0⟩], 1, 2, .const 0, .rws, .stored, false⟩

/-- R274 0x02000004 [3:3] by x. -/
def OUT_SPLIT : RegDef := ⟨0x2000004, [⟨2, 0x100000, 0⟩], 3, 1, .const 0, .rws, .stored, false⟩

/-- R274 0x02000004 [4:4] by x. -/
def OUT_FORCE_BG : RegDef := ⟨0x2000004, [⟨2, 0x100000, 0⟩], 4, 1, .const 0, .rwl, .stored, true⟩

/-- R274 0x02000004 [7:5] by x. -/
def OUT_IFACE : RegDef := ⟨0x2000004, [⟨2, 0x100000, 0⟩], 5, 3, .const 0, .rws, .stored, false⟩

/-- R274 0x02000004 [8:8] by x. -/
def OUT_SR_EN : RegDef := ⟨0x2000004, [⟨2, 0x100000, 0⟩], 8, 1, .const 0, .rws, .stored, false⟩

/-- R274 0x02000004 [21:16] by x. -/
def OUT_GUARD_LINES : RegDef := ⟨0x2000004, [⟨2, 0x100000, 0⟩], 16, 6, .const 8, .rws, .stored, false⟩

/-- R274 0x02000008 [7:0] by x. -/
def OUT_SPLIT_SKEW : RegDef := ⟨0x2000008, [⟨2, 0x100000, 0⟩], 0, 8, .const 0, .rws, .stored, false⟩

/-- R274 0x02000010 [12:0] by x. -/
def OUT_HACTIVE : RegDef := ⟨0x2000010, [⟨2, 0x100000, 0⟩], 0, 13, .const 7680, .rws, .stored, false⟩

/-- R274 0x02000010 [29:16] by x. -/
def OUT_HTOTAL : RegDef := ⟨0x2000010, [⟨2, 0x100000, 0⟩], 16, 14, .const 8000, .rws, .stored, false⟩

/-- R274 0x02000014 [11:0] by x. -/
def OUT_HFRONT : RegDef := ⟨0x2000014, [⟨2, 0x100000, 0⟩], 0, 12, .const 48, .rws, .stored, false⟩

/-- R274 0x02000014 [27:16] by x. -/
def OUT_HSYNC : RegDef := ⟨0x2000014, [⟨2, 0x100000, 0⟩], 16, 12, .const 32, .rws, .stored, false⟩

/-- R274 0x02000014 [31:31] by x. -/
def OUT_HSYNC_POL : RegDef := ⟨0x2000014, [⟨2, 0x100000, 0⟩], 31, 1, .const 1, .rws, .stored, false⟩

/-- R274 0x02000018 [12:0] by x. -/
def OUT_VACTIVE : RegDef := ⟨0x2000018, [⟨2, 0x100000, 0⟩], 0, 13, .const 4320, .rws, .stored, false⟩

/-- R274 0x02000018 [28:16] by x. -/
def OUT_VTOTAL : RegDef := ⟨0x2000018, [⟨2, 0x100000, 0⟩], 16, 13, .const 4500, .rws, .stored, false⟩

/-- R274 0x0200001C [9:0] by x. -/
def OUT_VFRONT : RegDef := ⟨0x200001C, [⟨2, 0x100000, 0⟩], 0, 10, .const 4, .rws, .stored, false⟩

/-- R274 0x0200001C [21:16] by x. -/
def OUT_VSYNC : RegDef := ⟨0x200001C, [⟨2, 0x100000, 0⟩], 16, 6, .const 8, .rws, .stored, false⟩

/-- R274 0x0200001C [31:31] by x. -/
def OUT_VSYNC_POL : RegDef := ⟨0x200001C, [⟨2, 0x100000, 0⟩], 31, 1, .const 1, .rws, .stored, false⟩

/-- R274 0x02000020 [22:0] by x. -/
def OUT_PCLK_KHZ : RegDef := ⟨0x2000020, [⟨2, 0x100000, 0⟩], 0, 23, .const 4320000, .rws, .stored, false⟩

/-- R274 0x02000024 [0:0] by x. -/
def OUT_BPC10 : RegDef := ⟨0x2000024, [⟨2, 0x100000, 0⟩], 0, 1, .const 1, .rws, .stored, false⟩

/-- R274 0x02000024 [2:1] by x. -/
def OUT_ENCODING : RegDef := ⟨0x2000024, [⟨2, 0x100000, 0⟩], 1, 2, .const 0, .rws, .stored, false⟩

/-- R274 0x02000024 [3:3] by x. -/
def OUT_LIMITED : RegDef := ⟨0x2000024, [⟨2, 0x100000, 0⟩], 3, 1, .const 0, .rws, .stored, false⟩

/-- R274 0x02000024 [5:4] by x. -/
def OUT_COLORIMETRY : RegDef := ⟨0x2000024, [⟨2, 0x100000, 0⟩], 4, 2, .const 0, .rws, .stored, false⟩

/-- R274 0x02000024 [7:6] by x. -/
def OUT_EOTF : RegDef := ⟨0x2000024, [⟨2, 0x100000, 0⟩], 6, 2, .const 0, .rws, .stored, false⟩

/-- R274 0x02000028 [15:0] by x. -/
def OUT_MAXCLL : RegDef := ⟨0x2000028, [⟨2, 0x100000, 0⟩], 0, 16, .const 0, .rws, .stored, false⟩

/-- R274 0x02000028 [31:16] by x. -/
def OUT_MAXFALL : RegDef := ⟨0x2000028, [⟨2, 0x100000, 0⟩], 16, 16, .const 0, .rws, .stored, false⟩

/-- R274 0x0200002C [0:0] by x. -/
def OUT_DSC_EN : RegDef := ⟨0x200002C, [⟨2, 0x100000, 0⟩], 0, 1, .const 0, .rws, .stored, false⟩

/-- R274 0x0200002C [5:1] by x. -/
def OUT_SLICES : RegDef := ⟨0x200002C, [⟨2, 0x100000, 0⟩], 1, 5, .const 8, .rws, .stored, false⟩

/-- R274 0x0200002C [6:6] by x. -/
def OUT_BLOCK_PRED : RegDef := ⟨0x200002C, [⟨2, 0x100000, 0⟩], 6, 1, .const 0, .rws, .stored, false⟩

/-- R274 0x0200002C [7:7] by x. -/
def OUT_NATIVE : RegDef := ⟨0x200002C, [⟨2, 0x100000, 0⟩], 7, 1, .const 0, .rws, .stored, false⟩

/-- R274 0x0200002C [16:8] by x. -/
def OUT_BPP16 : RegDef := ⟨0x200002C, [⟨2, 0x100000, 0⟩], 8, 9, .const 192, .rws, .stored, false⟩

/-- R274 0x0200002C [29:17] by x. -/
def OUT_SLICE_H : RegDef := ⟨0x200002C, [⟨2, 0x100000, 0⟩], 17, 13, .const 108, .rws, .stored, false⟩

/-- R274 0x02000030 [3:0] by x. -/
def OUT_RATE : RegDef := ⟨0x2000030, [⟨2, 0x100000, 0⟩], 0, 4, .const 6, .rws, .stored, false⟩

/-- R274 0x02000030 [6:4] by x. -/
def OUT_LANES : RegDef := ⟨0x2000030, [⟨2, 0x100000, 0⟩], 4, 3, .const 4, .rws, .stored, false⟩

/-- R274 0x02000030 [7:7] by x. -/
def OUT_FALLBACK_EN : RegDef := ⟨0x2000030, [⟨2, 0x100000, 0⟩], 7, 1, .const 1, .rws, .stored, false⟩

/-- R274 0x02000030 [8:8] by x. -/
def OUT_SSC_EN : RegDef := ⟨0x2000030, [⟨2, 0x100000, 0⟩], 8, 1, .const 0, .rws, .stored, false⟩

/-- R274 0x02000030 [9:9] by x. -/
def OUT_FEC_EN : RegDef := ⟨0x2000030, [⟨2, 0x100000, 0⟩], 9, 1, .const 1, .rws, .stored, false⟩

/-- R274 0x02000040 [1:0] by x. -/
def OUT_REF_SRC : RegDef := ⟨0x2000040, [⟨2, 0x100000, 0⟩], 0, 2, .const 0, .rws, .stored, false⟩

/-- R274 0x02000040 [4:2] by x. -/
def OUT_REF_MULT : RegDef := ⟨0x2000040, [⟨2, 0x100000, 0⟩], 2, 3, .const 1, .rws, .stored, false⟩

/-- R274 0x02000040 [5:5] by x. -/
def OUT_REF_TRI : RegDef := ⟨0x2000040, [⟨2, 0x100000, 0⟩], 5, 1, .const 1, .rws, .stored, false⟩

/-- R274 0x02000040 [6:6] by x. -/
def OUT_JUMP_EN : RegDef := ⟨0x2000040, [⟨2, 0x100000, 0⟩], 6, 1, .const 1, .rws, .stored, false⟩

/-- R274 0x02000040 [15:8] by x. -/
def OUT_JUMP_LINES : RegDef := ⟨0x2000040, [⟨2, 0x100000, 0⟩], 8, 8, .const 16, .rws, .stored, false⟩

/-- R274 0x02000040 [23:16] by x. -/
def OUT_VB_MIN : RegDef := ⟨0x2000040, [⟨2, 0x100000, 0⟩], 16, 8, .const 45, .rws, .stored, false⟩

/-- R274 0x02000044 [31:0] by x. -/
def OUT_REF_OFFSET : RegDef := ⟨0x2000044, [⟨2, 0x100000, 0⟩], 0, 32, .const 0, .rws, .stored, false⟩

/-- R274 0x02000048 [15:0] by x. -/
def OUT_UNLOCK_PX : RegDef := ⟨0x2000048, [⟨2, 0x100000, 0⟩], 0, 16, .const 64, .rws, .stored, false⟩

/-- R274 0x0200004C [7:0] by x. -/
def OUT_SR_ENTRY : RegDef := ⟨0x200004C, [⟨2, 0x100000, 0⟩], 0, 8, .const 8, .rws, .stored, false⟩

/-- R274 0x02000050 [0:0] by x. -/
def OUT_RUNNING : RegDef := ⟨0x2000050, [⟨2, 0x100000, 0⟩], 0, 1, .const 0, .ro, .stored, false⟩

/-- R274 0x02000050 [1:1] by x. -/
def OUT_HPD : RegDef := ⟨0x2000050, [⟨2, 0x100000, 0⟩], 1, 1, .const 0, .ro, .stored, false⟩

/-- R274 0x02000050 [2:2] by x. -/
def OUT_LINK_UP : RegDef := ⟨0x2000050, [⟨2, 0x100000, 0⟩], 2, 1, .const 0, .ro, .stored, false⟩

/-- R274 0x02000050 [3:3] by x. -/
def OUT_SR_ACTIVE : RegDef := ⟨0x2000050, [⟨2, 0x100000, 0⟩], 3, 1, .const 0, .ro, .stored, false⟩

/-- R274 0x02000050 [6:4] by x. -/
def OUT_GL_STATE : RegDef := ⟨0x2000050, [⟨2, 0x100000, 0⟩], 4, 3, .const 0, .ro, .stored, false⟩

/-- R274 0x02000050 [7:7] by x. -/
def OUT_FREQ_LOCK : RegDef := ⟨0x2000050, [⟨2, 0x100000, 0⟩], 7, 1, .const 0, .ro, .stored, false⟩

/-- R274 0x02000050 [8:8] by x. -/
def OUT_REF_PRESENT : RegDef := ⟨0x2000050, [⟨2, 0x100000, 0⟩], 8, 1, .const 0, .ro, .stored, false⟩

/-- R274 0x02000050 [12:9] by x. -/
def OUT_LINK_RATE : RegDef := ⟨0x2000050, [⟨2, 0x100000, 0⟩], 9, 4, .const 0, .ro, .stored, false⟩

/-- R274 0x02000050 [15:13] by x. -/
def OUT_LINK_LANES : RegDef := ⟨0x2000050, [⟨2, 0x100000, 0⟩], 13, 3, .const 0, .ro, .stored, false⟩

/-- R274 0x02000050 [16:16] by x. -/
def OUT_FEC_ACTIVE : RegDef := ⟨0x2000050, [⟨2, 0x100000, 0⟩], 16, 1, .const 0, .ro, .stored, false⟩

/-- R274 0x02000054 [31:0] by x. -/
def OUT_FRAME : RegDef := ⟨0x2000054, [⟨2, 0x100000, 0⟩], 0, 32, .const 0, .ro, .stored, false⟩

/-- R274 0x02000058 [13:0] by x. -/
def OUT_LINE : RegDef := ⟨0x2000058, [⟨2, 0x100000, 0⟩], 0, 14, .const 0, .ro, .stored, false⟩

/-- R274 0x0200005C [31:0] by x. -/
def OUT_GL_PHASE : RegDef := ⟨0x200005C, [⟨2, 0x100000, 0⟩], 0, 32, .const 0, .ro, .stored, false⟩

/-- R274 0x02000060 [31:0] by x. -/
def OUT_GL_REF_PERIOD : RegDef := ⟨0x2000060, [⟨2, 0x100000, 0⟩], 0, 32, .const 0, .ro, .stored, false⟩

/-- R274 0x02000064 [31:0] by x. -/
def OUT_JUMPS : RegDef := ⟨0x2000064, [⟨2, 0x100000, 0⟩], 0, 32, .const 0, .ro, .stored, false⟩

/-- R274 0x02000068 [7:0] by x. -/
def OUT_ERR_CODE : RegDef := ⟨0x2000068, [⟨2, 0x100000, 0⟩], 0, 8, .const 0, .ro, .stored, false⟩

/-- R274 0x0200006C [31:0] by x. -/
def OUT_SR_ENTRIES : RegDef := ⟨0x200006C, [⟨2, 0x100000, 0⟩], 0, 32, .const 0, .ro, .stored, false⟩

/-- R274 0x02000070 [31:0] by x. -/
def OUT_LINK_FAILS : RegDef := ⟨0x2000070, [⟨2, 0x100000, 0⟩], 0, 32, .const 0, .ro, .stored, false⟩

/-- R274 0x02000100 [8:0] by x, i. -/
def OUT_LB_BASE : RegDef := ⟨0x2000100, [⟨2, 0x100000, 0⟩, ⟨8, 0x10, 0⟩], 0, 9, .const 0, .rws, .stored, false⟩

/-- R274 0x02000100 [23:16] by x, i. -/
def OUT_LB_LINES : RegDef := ⟨0x2000100, [⟨2, 0x100000, 0⟩, ⟨8, 0x10, 0⟩], 16, 8, .const 8, .rws, .stored, false⟩

/-- R274 0x02000104 [7:0] by x, i. -/
def OUT_LB_LWM : RegDef := ⟨0x2000104, [⟨2, 0x100000, 0⟩, ⟨8, 0x10, 0⟩], 0, 8, .const 4, .rws, .stored, false⟩

/-- R274 0x02000108 [7:0] by x, i. -/
def OUT_LB_LEVEL : RegDef := ⟨0x2000108, [⟨2, 0x100000, 0⟩, ⟨8, 0x10, 0⟩], 0, 8, .const 0, .ro, (.derived .lbLevel), false⟩

/-- R274 0x02000108 [8:8] by x, i. -/
def OUT_LB_CRIT : RegDef := ⟨0x2000108, [⟨2, 0x100000, 0⟩, ⟨8, 0x10, 0⟩], 8, 1, .const 0, .ro, (.derived .lbCrit), false⟩

/-- R274 0x0200010C [31:0] by x, i. -/
def OUT_LB_UNDERRUN : RegDef := ⟨0x200010C, [⟨2, 0x100000, 0⟩, ⟨8, 0x10, 0⟩], 0, 32, .const 0, .ro, .stored, false⟩

/-- R275 0x02200000 [0:0]. -/
def AUXP_ENABLE : RegDef := ⟨0x2200000, [], 0, 1, .const 0, .rws, .stored, false⟩

/-- R275 0x02200000 [2:1]. -/
def AUXP_MODE : RegDef := ⟨0x2200000, [], 1, 2, .const 0, .rws, .stored, false⟩

/-- R275 0x02200000 [4:3]. -/
def AUXP_LANES : RegDef := ⟨0x2200000, [], 3, 2, .const 3, .rws, .stored, false⟩

/-- R275 0x02200000 [6:5]. -/
def AUXP_VIDMODE : RegDef := ⟨0x2200000, [], 5, 2, .const 0, .rws, .stored, false⟩

/-- R275 0x02200000 [7:7]. -/
def AUXP_CONT_CLK : RegDef := ⟨0x2200000, [], 7, 1, .const 1, .rws, .stored, false⟩

/-- R275 0x02200000 [9:8]. -/
def AUXP_PIXFMT : RegDef := ⟨0x2200000, [], 8, 2, .const 0, .rws, .stored, false⟩

/-- R275 0x02200000 [11:10]. -/
def AUXP_TE_SRC : RegDef := ⟨0x2200000, [], 10, 2, .const 0, .rws, .stored, false⟩

/-- R275 0x02200004 [11:0]. -/
def AUXP_LANE_MBPS : RegDef := ⟨0x2200004, [], 0, 12, .const 1500, .rws, .stored, false⟩

/-- R275 0x02200008 [11:0]. -/
def AUXP_HACTIVE : RegDef := ⟨0x2200008, [], 0, 12, .const 2560, .rws, .stored, false⟩

/-- R275 0x02200008 [27:16]. -/
def AUXP_HTOTAL : RegDef := ⟨0x2200008, [], 16, 12, .const 2720, .rws, .stored, false⟩

/-- R275 0x0220000C [9:0]. -/
def AUXP_HFRONT : RegDef := ⟨0x220000C, [], 0, 10, .const 48, .rws, .stored, false⟩

/-- R275 0x0220000C [25:16]. -/
def AUXP_HSYNC : RegDef := ⟨0x220000C, [], 16, 10, .const 32, .rws, .stored, false⟩

/-- R275 0x02200010 [11:0]. -/
def AUXP_VACTIVE : RegDef := ⟨0x2200010, [], 0, 12, .const 1600, .rws, .stored, false⟩

/-- R275 0x02200010 [27:16]. -/
def AUXP_VTOTAL : RegDef := ⟨0x2200010, [], 16, 12, .const 1646, .rws, .stored, false⟩

/-- R275 0x02200014 [7:0]. -/
def AUXP_VFRONT : RegDef := ⟨0x2200014, [], 0, 8, .const 3, .rws, .stored, false⟩

/-- R275 0x02200014 [23:16]. -/
def AUXP_VSYNC : RegDef := ⟨0x2200014, [], 16, 8, .const 6, .rws, .stored, false⟩

/-- R275 0x02200018 [18:0]. -/
def AUXP_PCLK_KHZ : RegDef := ⟨0x2200018, [], 0, 19, .const 268627, .rws, .stored, false⟩

/-- R275 0x02200020 [31:0]. -/
def AUXP_SRC_ADDR_LO : RegDef := ⟨0x2200020, [], 0, 32, .const 0, .rws, .stored, false⟩

/-- R275 0x02200024 [15:0]. -/
def AUXP_SRC_ADDR_HI : RegDef := ⟨0x2200024, [], 0, 16, .const 0, .rws, .stored, false⟩

/-- R275 0x02200028 [17:0]. -/
def AUXP_PITCH : RegDef := ⟨0x2200028, [], 0, 18, .const 0, .rws, .stored, false⟩

/-- R275 0x0220002C [2:0]. -/
def AUXP_SRC_FMT : RegDef := ⟨0x220002C, [], 0, 3, .const 2, .rws, .stored, false⟩

/-- R275 0x02200030 [15:0]. -/
def AUXP_PERIOD_US : RegDef := ⟨0x2200030, [], 0, 16, .const 16667, .rws, .stored, false⟩

/-- R275 0x02200030 [23:16]. -/
def AUXP_FULL_EVERY : RegDef := ⟨0x2200030, [], 16, 8, .const 60, .rws, .stored, false⟩

/-- R275 0x02200034 [29:0]. -/
def AUXP_BG : RegDef := ⟨0x2200034, [], 0, 30, .const 0, .rws, .stored, false⟩

/-- R275 0x02200040 [0:0]. -/
def AUXP_RUNNING : RegDef := ⟨0x2200040, [], 0, 1, .const 0, .ro, .stored, false⟩

/-- R275 0x02200040 [1:1]. -/
def AUXP_TE_SEEN : RegDef := ⟨0x2200040, [], 1, 1, .const 0, .ro, .stored, false⟩

/-- R275 0x02200044 [31:0]. -/
def AUXP_FRAME : RegDef := ⟨0x2200044, [], 0, 32, .const 0, .ro, .stored, false⟩

/-- R275 0x02200048 [31:0]. -/
def AUXP_BANDS_PUSHED : RegDef := ⟨0x2200048, [], 0, 32, .const 0, .ro, .stored, false⟩

/-- R275 0x0220004C [31:0]. -/
def AUXP_UNDERRUN : RegDef := ⟨0x220004C, [], 0, 32, .const 0, .ro, .stored, false⟩

/-- R275 0x02200050 [31:0]. -/
def AUXP_TE_TIMEOUT : RegDef := ⟨0x2200050, [], 0, 32, .const 0, .ro, .stored, false⟩

/-- R275 0x02200054 [7:0]. -/
def AUXP_ERR_CODE : RegDef := ⟨0x2200054, [], 0, 8, .const 0, .ro, .stored, false⟩

/-- R307 0x02400000 [0:0] by x. -/
def CMP_START : RegDef := ⟨0x2400000, [⟨2, 0x100, 0⟩], 0, 1, .const 0, .wo, .stored, true⟩

/-- R307 0x02400000 [1:1] by x. -/
def CMP_STARTED : RegDef := ⟨0x2400000, [⟨2, 0x100, 0⟩], 1, 1, .const 0, .ro, .stored, false⟩

/-- R307 0x02400000 [2:2] by x. -/
def CMP_OCURVE_EN : RegDef := ⟨0x2400000, [⟨2, 0x100, 0⟩], 2, 1, .const 0, .rws, .stored, false⟩

/-- R307 0x02400000 [5:3] by x. -/
def CMP_OCURVE : RegDef := ⟨0x2400000, [⟨2, 0x100, 0⟩], 3, 3, .const 0, .rws, .stored, false⟩

/-- R307 0x02400004 [29:0] by x. -/
def CMP_BGCOLOUR : RegDef := ⟨0x2400004, [⟨2, 0x100, 0⟩], 0, 30, .const 0, .rwl, .stored, false⟩

/-- R307 0x02400008 [0:0] by x. -/
def CMP_WB_EN : RegDef := ⟨0x2400008, [⟨2, 0x100, 0⟩], 0, 1, .const 0, .rws, .stored, false⟩

/-- R307 0x02400008 [1:1] by x. -/
def CMP_WB_TAP : RegDef := ⟨0x2400008, [⟨2, 0x100, 0⟩], 1, 1, .const 0, .rws, .stored, false⟩

/-- R307 0x02400008 [2:2] by x. -/
def CMP_WB_FMT : RegDef := ⟨0x2400008, [⟨2, 0x100, 0⟩], 2, 1, .const 0, .rws, .stored, false⟩

/-- R307 0x02400008 [5:3] by x. -/
def CMP_WB_COUNT : RegDef := ⟨0x2400008, [⟨2, 0x100, 0⟩], 3, 3, .const 1, .rws, .stored, false⟩

/-- R307 0x0240000C [31:0] by x. -/
def CMP_WB_BASE_LO : RegDef := ⟨0x240000C, [⟨2, 0x100, 0⟩], 0, 32, .const 0, .rws, .stored, false⟩

/-- R307 0x02400010 [15:0] by x. -/
def CMP_WB_BASE_HI : RegDef := ⟨0x2400010, [⟨2, 0x100, 0⟩], 0, 16, .const 0, .rws, .stored, false⟩

/-- R307 0x02400014 [31:0] by x. -/
def CMP_WB_STRIDE : RegDef := ⟨0x2400014, [⟨2, 0x100, 0⟩], 0, 32, .const 0, .rws, .stored, false⟩

/-- R307 0x02400018 [17:0] by x. -/
def CMP_WB_PITCH : RegDef := ⟨0x2400018, [⟨2, 0x100, 0⟩], 0, 18, .const 0, .rws, .stored, false⟩

/-- R307 0x0240001C [3:0] by x. -/
def CMP_WB_OWN : RegDef := ⟨0x240001C, [⟨2, 0x100, 0⟩], 0, 4, .const 0, .w1c, .stored, true⟩

/-- R307 0x0240001C [5:4] by x. -/
def CMP_WB_LAST : RegDef := ⟨0x240001C, [⟨2, 0x100, 0⟩], 4, 2, .const 0, .ro, .stored, false⟩

/-- R307 0x02400020 [31:0] by x. -/
def CMP_WB_FRAME : RegDef := ⟨0x2400020, [⟨2, 0x100, 0⟩], 0, 32, .const 0, .ro, .stored, false⟩

/-- R307 0x02400024 [31:0] by x. -/
def CMP_WB_SKIPPED : RegDef := ⟨0x2400024, [⟨2, 0x100, 0⟩], 0, 32, .const 0, .ro, .stored, false⟩

/-- R307 0x02400028 [31:0] by x. -/
def CMP_WB_INCOMPLETE : RegDef := ⟨0x2400028, [⟨2, 0x100, 0⟩], 0, 32, .const 0, .ro, .stored, false⟩

/-- R307 0x0240002C [7:0] by x. -/
def CMP_ERR_CODE : RegDef := ⟨0x240002C, [⟨2, 0x100, 0⟩], 0, 8, .const 0, .ro, .stored, false⟩

/-- R307 0x02400400 [1:0] by j. -/
def LAY_KIND : RegDef := ⟨0x2400400, [⟨16, 0x80, 0⟩], 0, 2, .const 0, .rws, .stored, false⟩

/-- R307 0x02400400 [4:2] by j. -/
def LAY_Z : RegDef := ⟨0x2400400, [⟨16, 0x80, 0⟩], 2, 3, .const 0, .rws, .stored, false⟩

/-- R307 0x02400400 [8:5] by j. -/
def LAY_GROUP : RegDef := ⟨0x2400400, [⟨16, 0x80, 0⟩], 5, 4, .const 0, .rws, .stored, false⟩

/-- R307 0x02400400 [11:9] by j. -/
def LAY_FMT : RegDef := ⟨0x2400400, [⟨16, 0x80, 0⟩], 9, 3, .const 2, .rws, .stored, false⟩

/-- R307 0x02400400 [12:12] by j. -/
def LAY_PREMULT : RegDef := ⟨0x2400400, [⟨16, 0x80, 0⟩], 12, 1, .const 0, .rws, .stored, false⟩

/-- R307 0x02400400 [13:13] by j. -/
def LAY_LCURVE_EN : RegDef := ⟨0x2400400, [⟨16, 0x80, 0⟩], 13, 1, .const 0, .rws, .stored, false⟩

/-- R307 0x02400400 [23:16] by j. -/
def LAY_GALPHA : RegDef := ⟨0x2400400, [⟨16, 0x80, 0⟩], 16, 8, .const 255, .rws, .stored, false⟩

/-- R307 0x02400404 [13:0] by j. -/
def LAY_X : RegDef := ⟨0x2400404, [⟨16, 0x80, 0⟩], 0, 14, .const 0, .rws, .stored, false⟩

/-- R307 0x02400404 [29:16] by j. -/
def LAY_Y : RegDef := ⟨0x2400404, [⟨16, 0x80, 0⟩], 16, 14, .const 0, .rws, .stored, false⟩

/-- R307 0x02400408 [13:0] by j. -/
def LAY_W : RegDef := ⟨0x2400408, [⟨16, 0x80, 0⟩], 0, 14, .const 0, .rws, .stored, false⟩

/-- R307 0x02400408 [29:16] by j. -/
def LAY_H : RegDef := ⟨0x2400408, [⟨16, 0x80, 0⟩], 16, 14, .const 0, .rws, .stored, false⟩

/-- R307 0x0240040C [31:0] by j. -/
def LAY_ADDR_LO : RegDef := ⟨0x240040C, [⟨16, 0x80, 0⟩], 0, 32, .const 0, .rws, .stored, false⟩

/-- R307 0x02400410 [15:0] by j. -/
def LAY_ADDR_HI : RegDef := ⟨0x2400410, [⟨16, 0x80, 0⟩], 0, 16, .const 0, .rws, .stored, false⟩

/-- R307 0x02400410 [31:16] by j. -/
def LAY_FLIP_SEQ : RegDef := ⟨0x2400410, [⟨16, 0x80, 0⟩], 16, 16, .const 0, .rws, .stored, false⟩

/-- R307 0x02400414 [17:0] by j. -/
def LAY_PITCH : RegDef := ⟨0x2400414, [⟨16, 0x80, 0⟩], 0, 18, .const 0, .rws, .stored, false⟩

/-- R307 0x02400418 [31:0] by j. -/
def LAY_FENCE_ADDR_LO : RegDef := ⟨0x2400418, [⟨16, 0x80, 0⟩], 0, 32, .const 0, .rws, .stored, false⟩

/-- R307 0x0240041C [15:0] by j. -/
def LAY_FENCE_ADDR_HI : RegDef := ⟨0x240041C, [⟨16, 0x80, 0⟩], 0, 16, .const 0, .rws, .stored, false⟩

/-- R307 0x0240041C [16:16] by j. -/
def LAY_FENCE_EN : RegDef := ⟨0x240041C, [⟨16, 0x80, 0⟩], 16, 1, .const 0, .rws, .stored, false⟩

/-- R307 0x02400420 [31:0] by j. -/
def LAY_FENCE_VAL_LO : RegDef := ⟨0x2400420, [⟨16, 0x80, 0⟩], 0, 32, .const 0, .rws, .stored, false⟩

/-- R307 0x02400424 [31:0] by j. -/
def LAY_FENCE_VAL_HI : RegDef := ⟨0x2400424, [⟨16, 0x80, 0⟩], 0, 32, .const 0, .rws, .stored, false⟩

/-- R307 0x02400440 [31:0] by j. -/
def LAY_FRONT_ADDR_LO : RegDef := ⟨0x2400440, [⟨16, 0x80, 0⟩], 0, 32, .const 0, .ro, .stored, false⟩

/-- R307 0x02400444 [15:0] by j. -/
def LAY_FRONT_ADDR_HI : RegDef := ⟨0x2400444, [⟨16, 0x80, 0⟩], 0, 16, .const 0, .ro, .stored, false⟩

/-- R307 0x02400444 [31:16] by j. -/
def LAY_FRONT_SEQ : RegDef := ⟨0x2400444, [⟨16, 0x80, 0⟩], 16, 16, .const 0, .ro, .stored, false⟩

/-- R307 0x02400448 [0:0] by j. -/
def LAY_PENDING : RegDef := ⟨0x2400448, [⟨16, 0x80, 0⟩], 0, 1, .const 0, .ro, .stored, false⟩

/-- R307 0x02400448 [1:1] by j. -/
def LAY_FENCE_MET : RegDef := ⟨0x2400448, [⟨16, 0x80, 0⟩], 1, 1, .const 0, .ro, .stored, false⟩

/-- R307 0x02400448 [31:16] by j. -/
def LAY_PEND_SEQ : RegDef := ⟨0x2400448, [⟨16, 0x80, 0⟩], 16, 16, .const 0, .ro, .stored, false⟩

/-- R307 0x0240044C [31:0] by j. -/
def LAY_FLIPS : RegDef := ⟨0x240044C, [⟨16, 0x80, 0⟩], 0, 32, .const 0, .ro, .stored, false⟩

/-- R307 0x02400450 [31:0] by j. -/
def LAY_HELD : RegDef := ⟨0x2400450, [⟨16, 0x80, 0⟩], 0, 32, .const 0, .ro, .stored, false⟩

/-- R307 0x02400454 [31:0] by j. -/
def LAY_REPLACED : RegDef := ⟨0x2400454, [⟨16, 0x80, 0⟩], 0, 32, .const 0, .ro, .stored, false⟩

/-- R307 0x02400458 [31:0] by j. -/
def LAY_FENCE_TIMEOUT : RegDef := ⟨0x2400458, [⟨16, 0x80, 0⟩], 0, 32, .const 0, .ro, .stored, false⟩

/-- R308 0x02700000 [3:0] by j. -/
def GP_STREAM : RegDef := ⟨0x2700000, [⟨16, 0x40, 0⟩], 0, 4, .const 0, .rws, .stored, false⟩

/-- R308 0x02700000 [7:4] by j. -/
def GP_CSC : RegDef := ⟨0x2700000, [⟨16, 0x40, 0⟩], 4, 4, .const 0, .rws, .stored, false⟩

/-- R308 0x02700000 [9:8] by j. -/
def GP_HCOEF : RegDef := ⟨0x2700000, [⟨16, 0x40, 0⟩], 8, 2, .const 0, .rws, .stored, false⟩

/-- R308 0x02700000 [11:10] by j. -/
def GP_VCOEF : RegDef := ⟨0x2700000, [⟨16, 0x40, 0⟩], 10, 2, .const 0, .rws, .stored, false⟩

/-- R308 0x02700000 [15:12] by j. -/
def GP_DN_K : RegDef := ⟨0x2700000, [⟨16, 0x40, 0⟩], 12, 4, .const 0, .rws, .stored, false⟩

/-- R308 0x02700000 [25:16] by j. -/
def GP_DN_THRESH : RegDef := ⟨0x2700000, [⟨16, 0x40, 0⟩], 16, 10, .const 0, .rws, .stored, false⟩

/-- R308 0x02700004 [12:0] by j. -/
def GP_SRC_X : RegDef := ⟨0x2700004, [⟨16, 0x40, 0⟩], 0, 13, .const 0, .rws, .stored, false⟩

/-- R308 0x02700004 [28:16] by j. -/
def GP_SRC_Y : RegDef := ⟨0x2700004, [⟨16, 0x40, 0⟩], 16, 13, .const 0, .rws, .stored, false⟩

/-- R308 0x02700008 [13:0] by j. -/
def GP_SRC_W : RegDef := ⟨0x2700008, [⟨16, 0x40, 0⟩], 0, 14, .const 0, .rws, .stored, false⟩

/-- R308 0x02700008 [29:16] by j. -/
def GP_SRC_H : RegDef := ⟨0x2700008, [⟨16, 0x40, 0⟩], 16, 14, .const 0, .rws, .stored, false⟩

/-- R308 0x02700400 [31:0] by j. -/
def GP_GUARD_CNT : RegDef := ⟨0x2700400, [⟨16, 0x20, 0⟩], 0, 32, .const 0, .ro, .stored, false⟩

/-- R308 0x02700404 [31:0] by j. -/
def GP_LATE_CNT : RegDef := ⟨0x2700404, [⟨16, 0x20, 0⟩], 0, 32, .const 0, .ro, .stored, false⟩

/-- R308 0x02700408 [31:0] by j. -/
def GP_FORCED_CNT : RegDef := ⟨0x2700408, [⟨16, 0x20, 0⟩], 0, 32, .const 0, .ro, .stored, false⟩

/-- R308 0x0270040C [31:0] by j. -/
def GP_OFF_CNT : RegDef := ⟨0x270040C, [⟨16, 0x20, 0⟩], 0, 32, .const 0, .ro, .stored, false⟩

/-- R308 0x02700410 [3:0] by j. -/
def GP_LEVEL : RegDef := ⟨0x2700410, [⟨16, 0x20, 0⟩], 0, 4, .const 0, .ro, (.derived .gpLevel), false⟩

/-- R308 0x02700800 [15:0]. -/
def GP_FORCE_GUARD : RegDef := ⟨0x2700800, [], 0, 16, .const 0, .rwl, .stored, true⟩

/-- R309 0x02500000 [1:0]. -/
def LAN_STATE : RegDef := ⟨0x2500000, [], 0, 2, .const 0, .ro, .stored, false⟩

/-- R309 0x02500000 [5:2]. -/
def LAN_FAILS : RegDef := ⟨0x2500000, [], 2, 4, .const 0, .ro, .stored, false⟩

/-- R309 0x02500000 [6:6]. -/
def LAN_APPLY_PENDING : RegDef := ⟨0x2500000, [], 6, 1, .const 0, .ro, (.derived .lanApplyPending), false⟩

/-- R309 0x02500000 [7:7]. -/
def LAN_APPLY_ERR : RegDef := ⟨0x2500000, [], 7, 1, .const 0, .w1c, .stored, false⟩

/-- R309 0x02500000 [8:8]. -/
def LAN_WQ_OVF : RegDef := ⟨0x2500000, [], 8, 1, .const 0, .w1c, .stored, false⟩

/-- R309 0x02500004 [31:0]. -/
def LAN_OPEN_COUNT : RegDef := ⟨0x2500004, [], 0, 32, .const 0, .ro, .stored, false⟩

/-- R309 0x02500008 [15:0]. -/
def LAN_TIMEOUT_MS : RegDef := ⟨0x2500008, [], 0, 16, .const 1000, .rwl, .stored, false⟩

/-- R309 0x0250000C [0:0]. -/
def LAN_CLOSE : RegDef := ⟨0x250000C, [], 0, 1, .const 0, .wo, .stored, true⟩

/-- R309 0x0250000C [1:1]. -/
def LAN_APPLY : RegDef := ⟨0x250000C, [], 1, 1, .const 0, .wo, .stored, true⟩

/-- R309 0x02500010 [31:0] by i. -/
def LAN_NONCE : RegDef := ⟨0x2500010, [⟨4, 0x4, 0⟩], 0, 32, .const 0, .ro, .stored, false⟩

/-- R309 0x02500020 [31:0] by i. -/
def LAN_AUTH : RegDef := ⟨0x2500020, [⟨12, 0x4, 0⟩], 0, 32, .const 0, .wo, .stored, false⟩

/-- R309 0x02500100 [0:0] by x. -/
def LAN_EN : RegDef := ⟨0x2500100, [⟨2, 0x40, 0⟩], 0, 1, .const 0, .rwl, .stored, false⟩

/-- R309 0x02500100 [2:1] by x. -/
def LAN_FMT : RegDef := ⟨0x2500100, [⟨2, 0x40, 0⟩], 1, 2, .const 0, .rwl, .stored, false⟩

/-- R309 0x02500100 [3:3] by x. -/
def LAN_SCALE2 : RegDef := ⟨0x2500100, [⟨2, 0x40, 0⟩], 3, 1, .const 0, .rwl, .stored, false⟩

/-- R309 0x02500100 [4:4] by x. -/
def LAN_IND_EN : RegDef := ⟨0x2500100, [⟨2, 0x40, 0⟩], 4, 1, .const 0, .rwl, .stored, false⟩

/-- R309 0x02500104 [23:0] by x. -/
def LAN_BASE : RegDef := ⟨0x2500104, [⟨2, 0x40, 0⟩], 0, 24, .const 0, .rwl, .stored, false⟩

/-- R309 0x02500108 [16:0] by x. -/
def LAN_PITCH : RegDef := ⟨0x2500108, [⟨2, 0x40, 0⟩], 0, 17, .const 0, .rwl, .stored, false⟩

/-- R309 0x0250010C [11:0] by x. -/
def LAN_W : RegDef := ⟨0x250010C, [⟨2, 0x40, 0⟩], 0, 12, .const 0, .rwl, .stored, false⟩

/-- R309 0x0250010C [27:16] by x. -/
def LAN_H : RegDef := ⟨0x250010C, [⟨2, 0x40, 0⟩], 16, 12, .const 0, .rwl, .stored, false⟩

/-- R309 0x02500110 [13:0] by x. -/
def LAN_X : RegDef := ⟨0x2500110, [⟨2, 0x40, 0⟩], 0, 14, .const 0, .rwl, .stored, false⟩

/-- R309 0x02500110 [29:16] by x. -/
def LAN_Y : RegDef := ⟨0x2500110, [⟨2, 0x40, 0⟩], 16, 14, .const 0, .rwl, .stored, false⟩

/-- R309 0x02500114 [23:0] by x. -/
def LAN_IND_BASE : RegDef := ⟨0x2500114, [⟨2, 0x40, 0⟩], 0, 24, .const 0, .rwl, .stored, false⟩

/-- R309 0x02500118 [11:0] by x. -/
def LAN_IND_W : RegDef := ⟨0x2500118, [⟨2, 0x40, 0⟩], 0, 12, .const 0, .rwl, .stored, false⟩

/-- R309 0x02500118 [27:16] by x. -/
def LAN_IND_H : RegDef := ⟨0x2500118, [⟨2, 0x40, 0⟩], 16, 12, .const 0, .rwl, .stored, false⟩

/-- R309 0x0250011C [13:0] by x. -/
def LAN_IND_X : RegDef := ⟨0x250011C, [⟨2, 0x40, 0⟩], 0, 14, .const 0, .rwl, .stored, false⟩

/-- R309 0x0250011C [29:16] by x. -/
def LAN_IND_Y : RegDef := ⟨0x250011C, [⟨2, 0x40, 0⟩], 16, 14, .const 0, .rwl, .stored, false⟩

/-- R309 0x02500120 [15:0] by x. -/
def LAN_CHECK_EN : RegDef := ⟨0x2500120, [⟨2, 0x40, 0⟩], 0, 16, .const 0, .rwl, .stored, false⟩

/-- R309 0x02500200 [31:0] by x, r. -/
def LAN_EXPECT : RegDef := ⟨0x2500200, [⟨2, 0x40, 0⟩, ⟨16, 0x4, 0⟩], 0, 32, .const 0, .rwl, .stored, false⟩

/-- R309 0x02500300 [23:0]. -/
def LAN_WADDR : RegDef := ⟨0x2500300, [], 0, 24, .const 0, .rwl, .stored, false⟩

/-- R309 0x02500304 [31:0]. -/
def LAN_WDATA : RegDef := ⟨0x2500304, [], 0, 32, .const 0, .wo, .stored, true⟩

/-- R309 0x02500310 [31:0]. -/
def LAN_CSRC_LO : RegDef := ⟨0x2500310, [], 0, 32, .const 0, .rwl, .stored, false⟩

/-- R309 0x02500314 [15:0]. -/
def LAN_CSRC_HI : RegDef := ⟨0x2500314, [], 0, 16, .const 0, .rwl, .stored, false⟩

/-- R309 0x02500318 [23:0]. -/
def LAN_CDST : RegDef := ⟨0x2500318, [], 0, 24, .const 0, .rwl, .stored, false⟩

/-- R309 0x0250031C [24:0]. -/
def LAN_CLEN : RegDef := ⟨0x250031C, [], 0, 25, .const 0, .rwl, .stored, false⟩

/-- R309 0x02500320 [0:0]. -/
def LAN_CGO : RegDef := ⟨0x2500320, [], 0, 1, .const 0, .wo, .stored, true⟩

/-- R309 0x02500324 [1:0]. -/
def LAN_CSTATE : RegDef := ⟨0x2500324, [], 0, 2, .const 0, .ro, .stored, false⟩

/-- R309 0x02500330 [31:0]. -/
def LAN_DENIED : RegDef := ⟨0x2500330, [], 0, 32, .const 0, .ro, .stored, false⟩

/-- R310 0x02600000 [0:0] by x, r. -/
def WL_EN : RegDef := ⟨0x2600000, [⟨2, 0x400, 0⟩, ⟨16, 0x20, 0⟩], 0, 1, .const 0, .rws, .stored, false⟩

/-- R310 0x02600000 [1:1] by x, r. -/
def WL_WL_EN : RegDef := ⟨0x2600000, [⟨2, 0x400, 0⟩, ⟨16, 0x20, 0⟩], 1, 1, .const 0, .rws, .stored, false⟩

/-- R310 0x02600000 [2:2] by x, r. -/
def WL_ACT_GUARD : RegDef := ⟨0x2600000, [⟨2, 0x400, 0⟩, ⟨16, 0x20, 0⟩], 2, 1, .const 0, .rws, .stored, false⟩

/-- R310 0x02600000 [3:3] by x, r. -/
def WL_ACT_IND : RegDef := ⟨0x2600000, [⟨2, 0x400, 0⟩, ⟨16, 0x20, 0⟩], 3, 1, .const 0, .rws, .stored, false⟩

/-- R310 0x02600000 [8:4] by x, r. -/
def WL_SRC : RegDef := ⟨0x2600000, [⟨2, 0x400, 0⟩, ⟨16, 0x20, 0⟩], 4, 5, .const 31, .rws, .stored, false⟩

/-- R310 0x02600000 [12:9] by x, r. -/
def WL_GLAYER : RegDef := ⟨0x2600000, [⟨2, 0x400, 0⟩, ⟨16, 0x20, 0⟩], 9, 4, .const 0, .rws, .stored, false⟩

/-- R310 0x02600000 [23:16] by x, r. -/
def WL_WL_FRAMES : RegDef := ⟨0x2600000, [⟨2, 0x400, 0⟩, ⟨16, 0x20, 0⟩], 16, 8, .const 30, .rws, .stored, false⟩

/-- R310 0x02600004 [12:0] by x, r. -/
def WL_X : RegDef := ⟨0x2600004, [⟨2, 0x400, 0⟩, ⟨16, 0x20, 0⟩], 0, 13, .const 0, .rws, .stored, false⟩

/-- R310 0x02600004 [28:16] by x, r. -/
def WL_Y : RegDef := ⟨0x2600004, [⟨2, 0x400, 0⟩, ⟨16, 0x20, 0⟩], 16, 13, .const 0, .rws, .stored, false⟩

/-- R310 0x02600008 [12:0] by x, r. -/
def WL_W : RegDef := ⟨0x2600008, [⟨2, 0x400, 0⟩, ⟨16, 0x20, 0⟩], 0, 13, .const 0, .rws, .stored, false⟩

/-- R310 0x02600008 [28:16] by x, r. -/
def WL_H : RegDef := ⟨0x2600008, [⟨2, 0x400, 0⟩, ⟨16, 0x20, 0⟩], 16, 13, .const 0, .rws, .stored, false⟩

/-- R310 0x0260000C [31:0] by x, r. -/
def WL_SIG : RegDef := ⟨0x260000C, [⟨2, 0x400, 0⟩, ⟨16, 0x20, 0⟩], 0, 32, .const 0, .ro, .stored, false⟩

/-- R310 0x02600010 [31:0] by x, r. -/
def WL_SIG_FRAME : RegDef := ⟨0x2600010, [⟨2, 0x400, 0⟩, ⟨16, 0x20, 0⟩], 0, 32, .const 0, .ro, .stored, false⟩

/-- R310 0x02600014 [7:0] by x, r. -/
def WL_COUNT : RegDef := ⟨0x2600014, [⟨2, 0x400, 0⟩, ⟨16, 0x20, 0⟩], 0, 8, .const 0, .ro, .stored, false⟩

/-- R310 0x02600014 [8:8] by x, r. -/
def WL_FROZEN : RegDef := ⟨0x2600014, [⟨2, 0x400, 0⟩, ⟨16, 0x20, 0⟩], 8, 1, .const 0, .ro, .stored, false⟩

/-- R310 0x02600014 [9:9] by x, r. -/
def WL_MISMATCH : RegDef := ⟨0x2600014, [⟨2, 0x400, 0⟩, ⟨16, 0x20, 0⟩], 9, 1, .const 0, .ro, .stored, false⟩

/-- R310 0x02600014 [10:10] by x, r. -/
def WL_GFORCED : RegDef := ⟨0x2600014, [⟨2, 0x400, 0⟩, ⟨16, 0x20, 0⟩], 10, 1, .const 0, .w1c, .stored, true⟩

/-- R310 0x02600018 [31:0] by x, r. -/
def WL_FREEZES : RegDef := ⟨0x2600018, [⟨2, 0x400, 0⟩, ⟨16, 0x20, 0⟩], 0, 32, .const 0, .ro, .stored, false⟩

/-- R310 0x0260001C [31:0] by x, r. -/
def WL_MISMATCH_CNT : RegDef := ⟨0x260001C, [⟨2, 0x400, 0⟩, ⟨16, 0x20, 0⟩], 0, 32, .const 0, .ro, .stored, false⟩

/-- R340 0x02C00000 [0:0]. -/
def BCN_PAIR_EN : RegDef := ⟨0x2C00000, [], 0, 1, .const 0, .rws, .stored, false⟩

/-- R340 0x02C00000 [1:1]. -/
def BCN_SIDE : RegDef := ⟨0x2C00000, [], 1, 1, .const 0, .rws, .stored, false⟩

/-- R340 0x02C00000 [2:2]. -/
def BCN_WALL_EN : RegDef := ⟨0x2C00000, [], 2, 1, .const 0, .rws, .stored, false⟩

/-- R340 0x02C00000 [3:3]. -/
def BCN_TOK_MASTER : RegDef := ⟨0x2C00000, [], 3, 1, .const 0, .rws, .stored, false⟩

/-- R340 0x02C00000 [11:8]. -/
def BCN_POS : RegDef := ⟨0x2C00000, [], 8, 4, .const 0, .rws, .stored, false⟩

/-- R340 0x02C00000 [19:16]. -/
def BCN_PAIRS : RegDef := ⟨0x2C00000, [], 16, 4, .const 0, .rws, .stored, false⟩

/-- R340 0x02C00000 [21:20]. -/
def BCN_TOK_ALT : RegDef := ⟨0x2C00000, [], 20, 2, .const 0, .rws, .stored, false⟩

/-- R340 0x02C00004 [2:0]. -/
def BCN_ROLE : RegDef := ⟨0x2C00004, [], 0, 3, .const 0, .ro, .stored, false⟩

/-- R340 0x02C00004 [3:3]. -/
def BCN_READY : RegDef := ⟨0x2C00004, [], 3, 1, .const 0, .ro, .stored, false⟩

/-- R340 0x02C00004 [4:4]. -/
def BCN_ISOLATED : RegDef := ⟨0x2C00004, [], 4, 1, .const 0, .ro, .stored, false⟩

/-- R340 0x02C00004 [5:5]. -/
def BCN_SPLIT : RegDef := ⟨0x2C00004, [], 5, 1, .const 0, .ro, .stored, false⟩

/-- R340 0x02C00004 [6:6]. -/
def BCN_SHOWN : RegDef := ⟨0x2C00004, [], 6, 1, .const 0, .ro, (.derived .bcnShown), false⟩

/-- R340 0x02C00004 [10:8]. -/
def BCN_TWIN_ROLE : RegDef := ⟨0x2C00004, [], 8, 3, .const 0, .ro, .stored, false⟩

/-- R340 0x02C00004 [11:11]. -/
def BCN_TWIN_PRESENT : RegDef := ⟨0x2C00004, [], 11, 1, .const 0, .ro, (.derived .twinPresent), false⟩

/-- R340 0x02C00004 [12:12]. -/
def BCN_E_PRESENT : RegDef := ⟨0x2C00004, [], 12, 1, .const 0, .ro, .stored, false⟩

/-- R340 0x02C00004 [13:13]. -/
def BCN_W_PRESENT : RegDef := ⟨0x2C00004, [], 13, 1, .const 0, .ro, .stored, false⟩

/-- R340 0x02C00004 [14:14]. -/
def BCN_E_RELAY : RegDef := ⟨0x2C00004, [], 14, 1, .const 0, .ro, .stored, false⟩

/-- R340 0x02C00004 [15:15]. -/
def BCN_W_RELAY : RegDef := ⟨0x2C00004, [], 15, 1, .const 0, .ro, .stored, false⟩

/-- R340 0x02C00004 [31:16]. -/
def BCN_EPOCH : RegDef := ⟨0x2C00004, [], 16, 16, .const 0, .ro, .stored, false⟩

/-- R340 0x02C00008 [3:0]. -/
def BCN_HANDOVER_MASK : RegDef := ⟨0x2C00008, [], 0, 4, .const 1, .rws, .stored, false⟩

/-- R340 0x02C0000C [0:0]. -/
def BCN_HANDOVER : RegDef := ⟨0x2C0000C, [], 0, 1, .const 0, .wo, .stored, true⟩

/-- R340 0x02C00010 [15:0]. -/
def BCN_START_WAIT_MS : RegDef := ⟨0x2C00010, [], 0, 16, .const 2000, .rws, .stored, false⟩

/-- R340 0x02C00010 [31:16]. -/
def BCN_KPR_WD_MS : RegDef := ⟨0x2C00010, [], 16, 16, .const 100, .rws, .stored, false⟩

/-- R340 0x02C00014 [3:0]. -/
def BCN_SEL_US : RegDef := ⟨0x2C00014, [], 0, 4, .const 2, .rws, .stored, false⟩

/-- R340 0x02C00014 [15:8]. -/
def BCN_TOK_LEAD_US : RegDef := ⟨0x2C00014, [], 8, 8, .const 40, .rws, .stored, false⟩

/-- R340 0x02C00018 [15:0]. -/
def BCN_SLACK_WARN_US : RegDef := ⟨0x2C00018, [], 0, 16, .const 5, .rws, .stored, false⟩

/-- R340 0x02C00018 [31:16]. -/
def BCN_NBR_STALL_US : RegDef := ⟨0x2C00018, [], 16, 16, .const 200, .rws, .stored, false⟩

/-- R340 0x02C0001C [31:0]. -/
def BCN_OWN_MIN_SLACK : RegDef := ⟨0x2C0001C, [], 0, 32, .const 0, .ro, .stored, false⟩

/-- R340 0x02C00020 [31:0]. -/
def BCN_WALL_MIN_SLACK : RegDef := ⟨0x2C00020, [], 0, 32, .const 0, .ro, .stored, false⟩

/-- R340 0x02C00024 [4:0]. -/
def BCN_WALL_MIN_POS : RegDef := ⟨0x2C00024, [], 0, 5, .const 0, .ro, .stored, false⟩

/-- R340 0x02C00028 [31:0]. -/
def BCN_TB_OFFSET : RegDef := ⟨0x2C00028, [], 0, 32, .const 0, .ro, .stored, false⟩

/-- R340 0x02C0002C [31:0]. -/
def BCN_TAKEOVERS : RegDef := ⟨0x2C0002C, [], 0, 32, .const 0, .ro, .stored, false⟩

/-- R340 0x02C00030 [31:0]. -/
def BCN_SEAM_RESETS : RegDef := ⟨0x2C00030, [], 0, 32, .const 0, .ro, .stored, false⟩

/-- R340 0x02C00034 [31:0]. -/
def BCN_SEAM_PIPES_E_LO : RegDef := ⟨0x2C00034, [], 0, 32, .const 0, .rws, .stored, false⟩

/-- R340 0x02C00038 [31:0]. -/
def BCN_SEAM_PIPES_E_HI : RegDef := ⟨0x2C00038, [], 0, 32, .const 0, .rws, .stored, false⟩

/-- R340 0x02C0003C [31:0]. -/
def BCN_SEAM_PIPES_W_LO : RegDef := ⟨0x2C0003C, [], 0, 32, .const 0, .rws, .stored, false⟩

/-- R340 0x02C00040 [31:0]. -/
def BCN_SEAM_PIPES_W_HI : RegDef := ⟨0x2C00040, [], 0, 32, .const 0, .rws, .stored, false⟩

/-- R340 0x02C00080 [0:0] by p. -/
def BCNP_UP : RegDef := ⟨0x2C00080, [⟨3, 0x20, 0⟩], 0, 1, .const 0, .ro, .stored, false⟩

/-- R340 0x02C00080 [1:1] by p. -/
def BCNP_PARTNER : RegDef := ⟨0x2C00080, [⟨3, 0x20, 0⟩], 1, 1, .const 0, .ro, (.derived .bcnPartner), false⟩

/-- R340 0x02C00080 [5:2] by p. -/
def BCNP_LANES_OK : RegDef := ⟨0x2C00080, [⟨3, 0x20, 0⟩], 2, 4, .const 0, .ro, .stored, false⟩

/-- R340 0x02C00080 [10:6] by p. -/
def BCNP_PARTNER_ID : RegDef := ⟨0x2C00080, [⟨3, 0x20, 0⟩], 6, 5, .const 0, .ro, .stored, false⟩

/-- R340 0x02C00084 [31:0] by p. -/
def BCNP_HOP_DELAY_PS : RegDef := ⟨0x2C00084, [⟨3, 0x20, 0⟩], 0, 32, .const 0, .ro, .stored, false⟩

/-- R340 0x02C00088 [31:0] by p. -/
def BCNP_BEATS_MISSED : RegDef := ⟨0x2C00088, [⟨3, 0x20, 0⟩], 0, 32, .const 0, .ro, .stored, false⟩

/-- R340 0x02C0008C [31:0] by p. -/
def BCNP_NBR_LATE : RegDef := ⟨0x2C0008C, [⟨3, 0x20, 0⟩], 0, 32, .const 0, .ro, .stored, false⟩

/-- R340 0x02C00090 [31:0] by p. -/
def BCNP_FEC_CORR : RegDef := ⟨0x2C00090, [⟨3, 0x20, 0⟩], 0, 32, .const 0, .ro, .stored, false⟩

/-- R340 0x02C00094 [31:0] by p. -/
def BCNP_RETRIES : RegDef := ⟨0x2C00094, [⟨3, 0x20, 0⟩], 0, 32, .const 0, .ro, .stored, false⟩

/-- R340 0x02C00098 [31:0] by p. -/
def BCNP_TOK_LATE : RegDef := ⟨0x2C00098, [⟨3, 0x20, 0⟩], 0, 32, .const 0, .ro, .stored, false⟩

/-- R340 0x02C0009C [31:0] by p. -/
def BCNP_TOK_RX : RegDef := ⟨0x2C0009C, [⟨3, 0x20, 0⟩], 0, 32, .const 0, .ro, .stored, false⟩

/-- R340 0x02C00100 [0:0] by s. -/
def BCN_MIR_TX : RegDef := ⟨0x2C00100, [⟨16, 0x4, 0⟩], 0, 1, .const 0, .rws, .stored, false⟩

/-- R340 0x02C00100 [1:1] by s. -/
def BCN_MIR_RX : RegDef := ⟨0x2C00100, [⟨16, 0x4, 0⟩], 1, 1, .const 0, .rws, .stored, false⟩

/-- R340 0x02C00100 [2:2] by s. -/
def BCN_FALLBACK : RegDef := ⟨0x2C00100, [⟨16, 0x4, 0⟩], 2, 1, .const 0, .rws, .stored, false⟩

/-- R340 0x02C00100 [31:16] by s. -/
def BCN_MIR_HOLD_US : RegDef := ⟨0x2C00100, [⟨16, 0x4, 0⟩], 16, 16, .const 1000, .rws, .stored, false⟩

/-- R340 0x02C00140 [31:0] by s. -/
def BCN_MIR_LATE : RegDef := ⟨0x2C00140, [⟨16, 0x4, 0⟩], 0, 32, .const 0, .ro, .stored, false⟩

/-- R340 0x02C00400 [0:0] by p, q. -/
def BCNQ_TX_EN : RegDef := ⟨0x2C00400, [⟨3, 0x200, 0⟩, ⟨16, 0x20, 0⟩], 0, 1, .const 0, .rws, .stored, false⟩

/-- R340 0x02C00400 [13:1] by p, q. -/
def BCNQ_TX_SLOT_TXN : RegDef := ⟨0x2C00400, [⟨3, 0x200, 0⟩, ⟨16, 0x20, 0⟩], 1, 13, .const 0, .rws, .stored, false⟩

/-- R340 0x02C00404 [7:0] by p, q. -/
def BCNQ_TX_CRED : RegDef := ⟨0x2C00404, [⟨3, 0x200, 0⟩, ⟨16, 0x20, 0⟩], 0, 8, .const 0, .ro, .stored, false⟩

/-- R340 0x02C00404 [8:8] by p, q. -/
def BCNQ_TX_WAITING : RegDef := ⟨0x2C00404, [⟨3, 0x200, 0⟩, ⟨16, 0x20, 0⟩], 8, 1, .const 0, .ro, .stored, false⟩

/-- R340 0x02C00408 [0:0] by p, q. -/
def BCNQ_RX_EN : RegDef := ⟨0x2C00408, [⟨3, 0x200, 0⟩, ⟨16, 0x20, 0⟩], 0, 1, .const 0, .rws, .stored, false⟩

/-- R340 0x02C00408 [1:1] by p, q. -/
def BCNQ_RELAY : RegDef := ⟨0x2C00408, [⟨3, 0x200, 0⟩, ⟨16, 0x20, 0⟩], 1, 1, .const 0, .rws, .stored, false⟩

/-- R340 0x02C00408 [2:2] by p, q. -/
def BCNQ_ALT_T : RegDef := ⟨0x2C00408, [⟨3, 0x200, 0⟩, ⟨16, 0x20, 0⟩], 2, 1, .const 0, .rws, .stored, false⟩

/-- R340 0x02C00408 [5:3] by p, q. -/
def BCNQ_CLUSTER : RegDef := ⟨0x2C00408, [⟨3, 0x200, 0⟩, ⟨16, 0x20, 0⟩], 3, 3, .const 0, .rws, .stored, false⟩

/-- R340 0x02C00408 [9:6] by p, q. -/
def BCNQ_PROXY_SU : RegDef := ⟨0x2C00408, [⟨3, 0x200, 0⟩, ⟨16, 0x20, 0⟩], 6, 4, .const 0, .rws, .stored, false⟩

/-- R340 0x02C00408 [12:10] by p, q. -/
def BCNQ_PROXY_RT : RegDef := ⟨0x2C00408, [⟨3, 0x200, 0⟩, ⟨16, 0x20, 0⟩], 10, 3, .const 0, .rws, .stored, false⟩

/-- R340 0x02C00408 [13:13] by p, q. -/
def BCNQ_HALVES : RegDef := ⟨0x2C00408, [⟨3, 0x200, 0⟩, ⟨16, 0x20, 0⟩], 13, 1, .const 0, .rws, .stored, false⟩

/-- R340 0x02C00408 [21:14] by p, q. -/
def BCNQ_STAGE_SLOTS : RegDef := ⟨0x2C00408, [⟨3, 0x200, 0⟩, ⟨16, 0x20, 0⟩], 14, 8, .const 0, .rws, .stored, false⟩

/-- R340 0x02C0040C [12:0] by p, q. -/
def BCNQ_RX_SLOT_TXN : RegDef := ⟨0x2C0040C, [⟨3, 0x200, 0⟩, ⟨16, 0x20, 0⟩], 0, 13, .const 0, .rws, .stored, false⟩

/-- R340 0x02C00410 [31:0] by p, q. -/
def BCNQ_SLOTS_RX : RegDef := ⟨0x2C00410, [⟨3, 0x200, 0⟩, ⟨16, 0x20, 0⟩], 0, 32, .const 0, .ro, .stored, false⟩

/-- R340 0x02C00414 [31:0] by p, q. -/
def BCNQ_STALE : RegDef := ⟨0x2C00414, [⟨3, 0x200, 0⟩, ⟨16, 0x20, 0⟩], 0, 32, .const 0, .ro, .stored, false⟩

/-- R340 0x02C00418 [31:0] by p, q. -/
def BCNQ_NEXT_K : RegDef := ⟨0x2C00418, [⟨3, 0x200, 0⟩, ⟨16, 0x20, 0⟩], 0, 32, .const 0, .ro, .stored, false⟩

/-- R360 0x00300000 [7:0]. -/
def PWR_CAP_W : RegDef := ⟨0x300000, [], 0, 8, .const 165, .rws, .stored, false⟩

/-- R360 0x00300000 [29:16]. -/
def PWR_WINDOW_MS : RegDef := ⟨0x300000, [], 16, 14, .const 2000, .rws, .stored, false⟩

/-- R360 0x00300004 [6:0]. -/
def PWR_CTL_MS : RegDef := ⟨0x300004, [], 0, 7, .const 10, .rws, .stored, false⟩

/-- R360 0x00300004 [25:16]. -/
def PWR_VSETTLE_US : RegDef := ⟨0x300004, [], 16, 10, .const 200, .rws, .stored, false⟩

/-- R360 0x00300008 [0:0]. -/
def PWR_CAP_ACTIVE : RegDef := ⟨0x300008, [], 0, 1, .const 0, .ro, (.derived .capActive), false⟩

/-- R360 0x00300008 [1:1]. -/
def PWR_UNREACHABLE : RegDef := ⟨0x300008, [], 1, 1, .const 0, .ro, .stored, false⟩

/-- R360 0x00300008 [2:2]. -/
def PWR_PMBUS_OK : RegDef := ⟨0x300008, [], 2, 1, .const 0, .ro, .stored, false⟩

/-- R360 0x0030000C [31:0]. -/
def PWR_P_MEAS_MW : RegDef := ⟨0x30000C, [], 0, 32, .const 0, .ro, .stored, false⟩

/-- R360 0x00300010 [31:0]. -/
def PWR_P_WIN_MW : RegDef := ⟨0x300010, [], 0, 32, .const 0, .ro, .stored, false⟩

/-- R360 0x00300014 [31:0]. -/
def PWR_P_ALLOW_MW : RegDef := ⟨0x300014, [], 0, 32, .const 0, .ro, .stored, false⟩

/-- R360 0x00300018 [31:0]. -/
def PWR_P_FIXED_MW : RegDef := ⟨0x300018, [], 0, 32, .const 0, .ro, .stored, false⟩

/-- R360 0x0030001C [31:0]. -/
def PWR_P_BASE_MW : RegDef := ⟨0x30001C, [], 0, 32, .const 0, .ro, .stored, false⟩

/-- R360 0x00300020 [15:0]. -/
def PWR_K : RegDef := ⟨0x300020, [], 0, 16, .const 4096, .ro, .stored, false⟩

/-- R360 0x00300024 [11:0]. -/
def PWR_VDD_MV : RegDef := ⟨0x300024, [], 0, 12, .const 0, .ro, .stored, false⟩

/-- R360 0x00300024 [21:16]. -/
def PWR_AGE_COMP_MV : RegDef := ⟨0x300024, [], 16, 6, .const 0, .ro, .stored, false⟩

/-- R360 0x00300024 [30:24]. -/
def PWR_GB_MV : RegDef := ⟨0x300024, [], 24, 7, .const 60, .ro, .fixed, false⟩

/-- R360 0x00300028 [2:0]. -/
def PWR_OP_MAX : RegDef := ⟨0x300028, [], 0, 3, .const 7, .ro, .stored, false⟩

/-- R360 0x0030002C [31:0]. -/
def PWR_P_UNATTR_MW : RegDef := ⟨0x30002C, [], 0, 32, .const 0, .ro, .stored, false⟩

/-- R360 0x00300040 [6:0] by r. -/
def PWR_RAIL_ADDR : RegDef := ⟨0x300040, [⟨8, 0x4, 0⟩], 0, 7, .const 0, .rws, .stored, false⟩

/-- R360 0x00300040 [14:7] by r. -/
def PWR_RAIL_PAGE : RegDef := ⟨0x300040, [⟨8, 0x4, 0⟩], 7, 8, .const 255, .rws, .stored, false⟩

/-- R360 0x00300040 [15:15] by r. -/
def PWR_RAIL_VALID : RegDef := ⟨0x300040, [⟨8, 0x4, 0⟩], 15, 1, .const 0, .rws, .stored, false⟩

/-- R360 0x00300040 [16:16] by r. -/
def PWR_RAIL_CORE : RegDef := ⟨0x300040, [⟨8, 0x4, 0⟩], 16, 1, .const 0, .rws, .stored, false⟩

/-- R360 0x00300080 [10:0] by o. -/
def PWR_OP_MHZ : RegDef := ⟨0x300080, [⟨8, 0x4, 0⟩], 0, 11, .tab 0 [400, 500, 600, 800, 900, 1000, 1100, 1200], .ro, .fixed, false⟩

/-- R360 0x00300080 [22:12] by o. -/
def PWR_OP_VMIN_MV : RegDef := ⟨0x300080, [⟨8, 0x4, 0⟩], 12, 11, .vmin, .ro, .fixed, false⟩

/-- R360 0x00300100 [2:0] by p. -/
def PWR_PHASE_OP : RegDef := ⟨0x300100, [⟨16, 0x10, 0⟩], 0, 3, .const 7, .rws, .stored, false⟩

/-- R360 0x00300100 [8:4] by p. -/
def PWR_PHASE_MIN_LIMIT : RegDef := ⟨0x300100, [⟨16, 0x10, 0⟩], 4, 5, .const 1, .rws, .stored, false⟩

/-- R360 0x00300100 [19:12] by p. -/
def PWR_PHASE_RANK : RegDef := ⟨0x300100, [⟨16, 0x10, 0⟩], 12, 8, .const 0, .rws, .stored, false⟩

/-- R360 0x00300104 [4:0] by p. -/
def PWR_PHASE_LIMIT : RegDef := ⟨0x300104, [⟨16, 0x10, 0⟩], 0, 5, .const 16, .ro, .stored, false⟩

/-- R360 0x00300108 [31:0] by p. -/
def PWR_PHASE_DEMAND_MW : RegDef := ⟨0x300108, [⟨16, 0x10, 0⟩], 0, 32, .const 0, .ro, .stored, false⟩

/-- R360 0x0030010C [31:0] by p. -/
def PWR_PHASE_EPF : RegDef := ⟨0x30010C, [⟨16, 0x10, 0⟩], 0, 32, .const 0, .ro, .stored, false⟩

/-- R360 0x00300200 [31:0]. -/
def PWR_C_MAC8 : RegDef := ⟨0x300200, [], 0, 32, .fused 1 32, .ro, .fixed, false⟩

/-- R360 0x00300204 [31:0]. -/
def PWR_C_MAC16 : RegDef := ⟨0x300204, [], 0, 32, .fused 2 32, .ro, .fixed, false⟩

/-- R360 0x00300208 [31:0]. -/
def PWR_C_SP : RegDef := ⟨0x300208, [], 0, 32, .fused 3 32, .ro, .fixed, false⟩

/-- R360 0x0030020C [31:0]. -/
def PWR_C_SC : RegDef := ⟨0x30020C, [], 0, 32, .fused 4 32, .ro, .fixed, false⟩

/-- R360 0x00300210 [31:0]. -/
def PWR_C_DDR : RegDef := ⟨0x300210, [], 0, 32, .fused 5 32, .ro, .fixed, false⟩

/-- R360 0x00300214 [31:0]. -/
def PWR_C_BE : RegDef := ⟨0x300214, [], 0, 32, .fused 6 32, .ro, .fixed, false⟩

/-- R360 0x00300400 [31:0] by i. -/
def PWR_JOB_ENERGY : RegDef := ⟨0x300400, [⟨64, 0x10, 0⟩], 0, 32, .const 0, .ro, .stored, false⟩

/-- R360 0x00300404 [30:0] by i. -/
def PWR_JOB_SEQ : RegDef := ⟨0x300404, [⟨64, 0x10, 0⟩], 0, 31, .const 0, .ro, .stored, false⟩

/-- R360 0x00300404 [31:31] by i. -/
def PWR_JOB_ABANDONED : RegDef := ⟨0x300404, [⟨64, 0x10, 0⟩], 31, 1, .const 0, .ro, .stored, false⟩

/-- R360 0x00300408 [31:0] by i. -/
def PWR_JOB_AVG : RegDef := ⟨0x300408, [⟨64, 0x10, 0⟩], 0, 32, .const 0, .ro, .stored, false⟩

/-- R361 0x00380000 [7:0]. -/
def THM_WARN_C : RegDef := ⟨0x380000, [], 0, 8, .const 95, .rws, .stored, false⟩

/-- R361 0x00380000 [15:8]. -/
def THM_THROTTLE_C : RegDef := ⟨0x380000, [], 8, 8, .const 100, .rws, .stored, false⟩

/-- R361 0x00380000 [23:16]. -/
def THM_HYST_C : RegDef := ⟨0x380000, [], 16, 8, .const 5, .rws, .stored, false⟩

/-- R361 0x00380004 [0:0]. -/
def THM_WARN : RegDef := ⟨0x380004, [], 0, 1, .const 0, .ro, (.derived .thmWarn), false⟩

/-- R361 0x00380004 [1:1]. -/
def THM_THROTTLING : RegDef := ⟨0x380004, [], 1, 1, .const 0, .ro, (.derived .thmThrottling), false⟩

/-- R361 0x00380004 [2:2]. -/
def THM_TRIP_STICKY : RegDef := ⟨0x380004, [], 2, 1, .const 0, .w1c, .stored, false⟩

/-- R361 0x00380004 [3:3]. -/
def THM_SENSOR_FAIL : RegDef := ⟨0x380004, [], 3, 1, .const 0, .ro, (.derived .thmSensorFail), false⟩

/-- R361 0x00380004 [12:8]. -/
def THM_LIMIT : RegDef := ⟨0x380004, [], 8, 5, .const 16, .ro, .stored, false⟩

/-- R361 0x00380008 [10:0]. -/
def THM_MAX : RegDef := ⟨0x380008, [], 0, 11, .const 0, .ro, .stored, false⟩

/-- R361 0x00380008 [21:16]. -/
def THM_MAX_SENSOR : RegDef := ⟨0x380008, [], 16, 6, .const 0, .ro, .stored, false⟩

/-- R361 0x0038000C [10:0]. -/
def THM_PEAK : RegDef := ⟨0x38000C, [], 0, 11, .const 0, .ro, .stored, false⟩

/-- R361 0x00380010 [0:0]. -/
def THM_PEAK_CLEAR : RegDef := ⟨0x380010, [], 0, 1, .const 0, .wo, .stored, true⟩

/-- R361 0x00380100 [10:0] by s. -/
def THM_SENSOR_TEMP : RegDef := ⟨0x380100, [⟨36, 0x4, 0⟩], 0, 11, .const 0, .ro, .stored, false⟩

/-- R361 0x00380100 [11:11] by s. -/
def THM_SENSOR_VALID : RegDef := ⟨0x380100, [⟨36, 0x4, 0⟩], 11, 1, .const 0, .ro, .stored, false⟩

/-- R383 0x00000200 [2:0]. -/
def TOP_UNFREEZE_KIND : RegDef := ⟨0x200, [], 0, 3, .const 0, .wo, .stored, true⟩

/-- R383 0x00000200 [10:4]. -/
def TOP_UNFREEZE_INDEX : RegDef := ⟨0x200, [], 4, 7, .const 0, .wo, .stored, true⟩

/-- R383 0x00000204 [31:0]. -/
def TOP_UNFREEZE_SEQ : RegDef := ⟨0x204, [], 0, 32, .const 0, .rw, .stored, false⟩

/-- R383 0x00000208 [2:0]. -/
def TOP_UNFREEZE_RESULT : RegDef := ⟨0x208, [], 0, 3, .const 0, .ro, .stored, false⟩

/-- R383 0x00000210 [31:0]. -/
def TOP_FROZEN_CORE_0 : RegDef := ⟨0x210, [], 0, 32, .const 0, .ro, (.derived .frozenCore0), false⟩

/-- R383 0x00000214 [31:0]. -/
def TOP_FROZEN_CORE_1 : RegDef := ⟨0x214, [], 0, 32, .const 0, .ro, (.derived .frozenCore1), false⟩

/-- R383 0x00000218 [7:0]. -/
def TOP_FROZEN_CORE_2 : RegDef := ⟨0x218, [], 0, 8, .const 0, .ro, (.derived .frozenCore2), false⟩

/-- R383 0x00000220 [31:0] by i. -/
def TOP_FROZEN_SU : RegDef := ⟨0x220, [⟨4, 0x4, 0⟩], 0, 32, .const 0, .ro, (.derived .frozenSu), false⟩

/-- R383 0x00000230 [3:0]. -/
def TOP_FROZEN_BE : RegDef := ⟨0x230, [], 0, 4, .const 0, .ro, (.derived .frozenBe), false⟩

/-- R383 0x00000230 [4:4]. -/
def TOP_FROZEN_BAR2 : RegDef := ⟨0x230, [], 4, 1, .const 0, .ro, .stored, false⟩

/-- R383 0x00000230 [11:8]. -/
def TOP_RETIRED_BE : RegDef := ⟨0x230, [], 8, 4, .const 0, .ro, (.derived .retiredBe), false⟩

/-- R383 0x00000240 [5:0]. -/
def TOP_FAULTN_MASK : RegDef := ⟨0x240, [], 0, 6, .const 15, .rw, .stored, false⟩

/-- R383 0x00000244 [0:0]. -/
def TOP_ANY_FROZEN : RegDef := ⟨0x244, [], 0, 1, .const 0, .ro, (.derived .anyFrozen), false⟩

/-- R383 0x00000244 [1:1]. -/
def TOP_ANY_PARKED : RegDef := ⟨0x244, [], 1, 1, .const 0, .ro, (.derived .anyParked), false⟩

/-- R383 0x00000244 [2:2]. -/
def TOP_DEGRADED : RegDef := ⟨0x244, [], 2, 1, .const 0, .ro, (.derived .degraded), false⟩

/-- R383 0x00000244 [3:3]. -/
def TOP_MEM_UE : RegDef := ⟨0x244, [], 3, 1, .const 0, .w1c, .stored, false⟩

/-- R383 0x00000244 [4:4]. -/
def TOP_SPARE_IN_USE : RegDef := ⟨0x244, [], 4, 1, .const 0, .ro, (.derived .spareInUse), false⟩

/-- R383 0x00000244 [5:5]. -/
def TOP_ANY_RETIRED : RegDef := ⟨0x244, [], 5, 1, .const 0, .ro, (.derived .anyRetired), false⟩

/-- R383 0x00000244 [16:16]. -/
def TOP_ASSERTED : RegDef := ⟨0x244, [], 16, 1, .const 0, .ro, (.derived .faultNAsserted), false⟩

/-- R383 0x00000248 [31:0]. -/
def TOP_PARKED_LO : RegDef := ⟨0x248, [], 0, 32, .const 0, .ro, .stored, false⟩

/-- R383 0x0000024C [31:0]. -/
def TOP_PARKED_HI : RegDef := ⟨0x24C, [], 0, 32, .const 0, .ro, .stored, false⟩

/-- R383 0x00000250 [31:0]. -/
def TOP_EVT_SEQ : RegDef := ⟨0x250, [], 0, 32, .const 0, .ro, .stored, false⟩

/-- R383 0x00000254 [31:0]. -/
def TOP_EVT_DROPPED : RegDef := ⟨0x254, [], 0, 32, .const 0, .ro, .stored, false⟩

/-- R383 0x00000258 [31:0]. -/
def TOP_EVT_PERSIST_DROPPED : RegDef := ⟨0x258, [], 0, 32, .const 0, .ro, .stored, false⟩

/-- R384 0x00100000 [15:0]. -/
def KPR_OPCODE : RegDef := ⟨0x100000, [], 0, 16, .const 0, .wo, .stored, true⟩

/-- R384 0x00100000 [31:16]. -/
def KPR_CMD_TAG : RegDef := ⟨0x100000, [], 16, 16, .const 0, .wo, .stored, true⟩

/-- R384 0x00100004 [31:0]. -/
def KPR_ARG0 : RegDef := ⟨0x100004, [], 0, 32, .const 0, .rw, .stored, false⟩

/-- R384 0x00100008 [31:0]. -/
def KPR_ARG1 : RegDef := ⟨0x100008, [], 0, 32, .const 0, .rw, .stored, false⟩

/-- R384 0x0010000C [31:0]. -/
def KPR_ARG2 : RegDef := ⟨0x10000C, [], 0, 32, .const 0, .rw, .stored, false⟩

/-- R384 0x00100010 [1:0]. -/
def KPR_STATE : RegDef := ⟨0x100010, [], 0, 2, .const 0, .ro, .stored, false⟩

/-- R384 0x00100010 [2:2]. -/
def KPR_BUSY_WRITE : RegDef := ⟨0x100010, [], 2, 1, .const 0, .w1c, .stored, false⟩

/-- R384 0x00100010 [15:8]. -/
def KPR_ERR : RegDef := ⟨0x100010, [], 8, 8, .const 0, .ro, .stored, false⟩

/-- R384 0x00100010 [31:16]. -/
def KPR_TAG : RegDef := ⟨0x100010, [], 16, 16, .const 0, .ro, .stored, false⟩

/-- R384 0x00100014 [11:0]. -/
def KPR_RLEN : RegDef := ⟨0x100014, [], 0, 12, .const 0, .ro, .stored, false⟩

/-- R384 0x00100800 [31:0] by i. -/
def KPR_RESP : RegDef := ⟨0x100800, [⟨512, 0x4, 0⟩], 0, 32, .const 0, .ro, .stored, false⟩

/-- R411 0x00400000 [2:0]. -/
def HST_GEN : RegDef := ⟨0x400000, [], 0, 3, .const 0, .ro, .stored, false⟩

/-- R411 0x00400000 [7:4]. -/
def HST_WIDTH : RegDef := ⟨0x400000, [], 4, 4, .const 0, .ro, .stored, false⟩

/-- R411 0x00400000 [8:8]. -/
def HST_UP : RegDef := ⟨0x400000, [], 8, 1, .const 0, .ro, .stored, false⟩

/-- R411 0x00400000 [9:9]. -/
def HST_BME : RegDef := ⟨0x400000, [], 9, 1, .const 0, .ro, (.derived .hostBme), false⟩

/-- R411 0x00400000 [10:10]. -/
def HST_IN_L1 : RegDef := ⟨0x400000, [], 10, 1, .const 0, .ro, (.derived .hostL1), false⟩

/-- R411 0x00400004 [19:0]. -/
def HST_BAR2_BASE : RegDef := ⟨0x400004, [], 0, 20, .const 0, .rw, .stored, false⟩

/-- R411 0x00400004 [28:24]. -/
def HST_BAR2_LOG2 : RegDef := ⟨0x400004, [], 24, 5, .const 28, .ro, .stored, false⟩

/-- R411 0x00400008 [31:12]. -/
def HST_HWIN_BASE_LO : RegDef := ⟨0x400008, [], 12, 20, .const 0, .rw, .stored, false⟩

/-- R411 0x0040000C [31:0]. -/
def HST_HWIN_BASE_HI : RegDef := ⟨0x40000C, [], 0, 32, .const 0, .rw, .stored, false⟩

/-- R411 0x00400010 [31:0]. -/
def HST_HWIN_ERR : RegDef := ⟨0x400010, [], 0, 32, .const 0, .ro, .stored, false⟩

/-- R411 0x00400018 [7:0]. -/
def HST_ERR_CODE : RegDef := ⟨0x400018, [], 0, 8, .const 0, .ro, .stored, false⟩

/-- R411 0x00400100 [5:0] by q. -/
def HST_IRQ_VECTOR : RegDef := ⟨0x400100, [⟨23, 0x4, 0⟩], 0, 6, .const 0, .rw, .stored, false⟩

/-- R411 0x00400100 [6:6] by q. -/
def HST_IRQ_EN : RegDef := ⟨0x400100, [⟨23, 0x4, 0⟩], 6, 1, .const 0, .rw, .stored, false⟩

/-- R411 0x00400200 [31:12]. -/
def EVT_BASE_LO : RegDef := ⟨0x400200, [], 12, 20, .const 0, .rw, .stored, false⟩

/-- R411 0x00400240 [31:12]. -/
def RES_BASE_LO : RegDef := ⟨0x400240, [], 12, 20, .const 0, .rw, .stored, false⟩

/-- R411 0x00401000 [31:12] by s. -/
def DSC_BASE_LO : RegDef := ⟨0x401000, [⟨16, 0x40, 0⟩], 12, 20, .const 0, .rw, .stored, false⟩

/-- R411 0x00400204 [31:0]. -/
def EVT_BASE_HI : RegDef := ⟨0x400204, [], 0, 32, .const 0, .rw, .stored, false⟩

/-- R411 0x00400244 [31:0]. -/
def RES_BASE_HI : RegDef := ⟨0x400244, [], 0, 32, .const 0, .rw, .stored, false⟩

/-- R411 0x00401004 [31:0] by s. -/
def DSC_BASE_HI : RegDef := ⟨0x401004, [⟨16, 0x40, 0⟩], 0, 32, .const 0, .rw, .stored, false⟩

/-- R411 0x00400208 [4:0]. -/
def EVT_LOG2 : RegDef := ⟨0x400208, [], 0, 5, .const 0, .rw, .stored, false⟩

/-- R411 0x00400248 [4:0]. -/
def RES_LOG2 : RegDef := ⟨0x400248, [], 0, 5, .const 0, .rw, .stored, false⟩

/-- R411 0x00401008 [4:0] by s. -/
def DSC_LOG2 : RegDef := ⟨0x401008, [⟨16, 0x40, 0⟩], 0, 5, .const 0, .rw, .stored, false⟩

/-- R411 0x00400208 [5:5]. -/
def EVT_EN : RegDef := ⟨0x400208, [], 5, 1, .const 0, .rw, .stored, true⟩

/-- R411 0x00400248 [5:5]. -/
def RES_EN : RegDef := ⟨0x400248, [], 5, 1, .const 0, .rw, .stored, true⟩

/-- R411 0x00401008 [5:5] by s. -/
def DSC_EN : RegDef := ⟨0x401008, [⟨16, 0x40, 0⟩], 5, 1, .const 0, .rw, .stored, true⟩

/-- R411 0x00400208 [6:6]. -/
def EVT_WB_EN : RegDef := ⟨0x400208, [], 6, 1, .const 0, .rw, .stored, false⟩

/-- R411 0x00400248 [6:6]. -/
def RES_WB_EN : RegDef := ⟨0x400248, [], 6, 1, .const 0, .rw, .stored, false⟩

/-- R411 0x00401008 [6:6] by s. -/
def DSC_WB_EN : RegDef := ⟨0x401008, [⟨16, 0x40, 0⟩], 6, 1, .const 0, .rw, .stored, false⟩

/-- R411 0x0040020C [31:0]. -/
def EVT_HIDX : RegDef := ⟨0x40020C, [], 0, 32, .const 0, .rw, .stored, true⟩

/-- R411 0x0040024C [31:0]. -/
def RES_HIDX : RegDef := ⟨0x40024C, [], 0, 32, .const 0, .rw, .stored, true⟩

/-- R411 0x0040100C [31:0] by s. -/
def DSC_HIDX : RegDef := ⟨0x40100C, [⟨16, 0x40, 0⟩], 0, 32, .const 0, .rw, .stored, true⟩

/-- R411 0x00400210 [31:0]. -/
def EVT_DIDX : RegDef := ⟨0x400210, [], 0, 32, .const 0, .ro, .stored, false⟩

/-- R411 0x00400250 [31:0]. -/
def RES_DIDX : RegDef := ⟨0x400250, [], 0, 32, .const 0, .ro, .stored, false⟩

/-- R411 0x00401010 [31:0] by s. -/
def DSC_DIDX : RegDef := ⟨0x401010, [⟨16, 0x40, 0⟩], 0, 32, .const 0, .ro, .stored, false⟩

/-- R411 0x00400214 [15:0]. -/
def EVT_COAL_US : RegDef := ⟨0x400214, [], 0, 16, .const 0, .rw, .stored, false⟩

/-- R411 0x00400254 [15:0]. -/
def RES_COAL_US : RegDef := ⟨0x400254, [], 0, 16, .const 0, .rw, .stored, false⟩

/-- R411 0x00401014 [15:0] by s. -/
def DSC_COAL_US : RegDef := ⟨0x401014, [⟨16, 0x40, 0⟩], 0, 16, .const 0, .rw, .stored, false⟩

/-- R411 0x00400214 [31:16]. -/
def EVT_COAL_CNT : RegDef := ⟨0x400214, [], 16, 16, .const 1, .rw, .stored, false⟩

/-- R411 0x00400254 [31:16]. -/
def RES_COAL_CNT : RegDef := ⟨0x400254, [], 16, 16, .const 1, .rw, .stored, false⟩

/-- R411 0x00401014 [31:16] by s. -/
def DSC_COAL_CNT : RegDef := ⟨0x401014, [⟨16, 0x40, 0⟩], 16, 16, .const 1, .rw, .stored, false⟩

/-- R411 0x00400218 [31:2]. -/
def EVT_WB_LO : RegDef := ⟨0x400218, [], 2, 30, .const 0, .rw, .stored, false⟩

/-- R411 0x00400258 [31:2]. -/
def RES_WB_LO : RegDef := ⟨0x400258, [], 2, 30, .const 0, .rw, .stored, false⟩

/-- R411 0x00401018 [31:2] by s. -/
def DSC_WB_LO : RegDef := ⟨0x401018, [⟨16, 0x40, 0⟩], 2, 30, .const 0, .rw, .stored, false⟩

/-- R411 0x0040021C [31:0]. -/
def EVT_WB_HI : RegDef := ⟨0x40021C, [], 0, 32, .const 0, .rw, .stored, false⟩

/-- R411 0x0040025C [31:0]. -/
def RES_WB_HI : RegDef := ⟨0x40025C, [], 0, 32, .const 0, .rw, .stored, false⟩

/-- R411 0x0040101C [31:0] by s. -/
def DSC_WB_HI : RegDef := ⟨0x40101C, [⟨16, 0x40, 0⟩], 0, 32, .const 0, .rw, .stored, false⟩

/-- R411 0x00400220 [0:0]. -/
def EVT_IDX_ERR : RegDef := ⟨0x400220, [], 0, 1, .const 0, .w1c, .stored, false⟩

/-- R411 0x00400260 [0:0]. -/
def RES_IDX_ERR : RegDef := ⟨0x400260, [], 0, 1, .const 0, .w1c, .stored, false⟩

/-- R411 0x00401020 [0:0] by s. -/
def DSC_IDX_ERR : RegDef := ⟨0x401020, [⟨16, 0x40, 0⟩], 0, 1, .const 0, .w1c, .stored, false⟩

/-- R411 0x00400224 [31:0]. -/
def EVT_COUNT : RegDef := ⟨0x400224, [], 0, 32, .const 0, .ro, .stored, false⟩

/-- R411 0x00400264 [31:0]. -/
def RES_COUNT : RegDef := ⟨0x400264, [], 0, 32, .const 0, .ro, .stored, false⟩

/-- R411 0x00401024 [31:0] by s. -/
def DSC_COUNT : RegDef := ⟨0x401024, [⟨16, 0x40, 0⟩], 0, 32, .const 0, .ro, .stored, false⟩

/-- R411 0x00400280 [31:0]. -/
def HST_RES_DROPPED : RegDef := ⟨0x400280, [], 0, 32, .const 0, .ro, .stored, false⟩

/-- R411 0x00400284 [31:0]. -/
def HST_RES_SEQ : RegDef := ⟨0x400284, [], 0, 32, .const 0, .ro, .stored, false⟩

/-- R411 0x00402000 [1:0] by s. -/
def STR_SRC : RegDef := ⟨0x402000, [⟨16, 0x40, 0⟩], 0, 2, .const 0, .rws, .stored, false⟩

/-- R411 0x00402000 [3:2] by s. -/
def STR_PORT : RegDef := ⟨0x402000, [⟨16, 0x40, 0⟩], 2, 2, .const 0, .rws, .stored, false⟩

/-- R411 0x00402000 [7:4] by s. -/
def STR_FMT : RegDef := ⟨0x402000, [⟨16, 0x40, 0⟩], 4, 4, .const 0, .rws, .stored, false⟩

/-- R411 0x00402000 [10:8] by s. -/
def STR_NBUF : RegDef := ⟨0x402000, [⟨16, 0x40, 0⟩], 8, 3, .const 3, .rws, .stored, false⟩

/-- R411 0x00402004 [12:0] by s. -/
def STR_W : RegDef := ⟨0x402004, [⟨16, 0x40, 0⟩], 0, 13, .const 0, .rws, .stored, false⟩

/-- R411 0x00402004 [28:16] by s. -/
def STR_H : RegDef := ⟨0x402004, [⟨16, 0x40, 0⟩], 16, 13, .const 0, .rws, .stored, false⟩

/-- R411 0x00402008 [31:12] by s. -/
def STR_IFB_LO : RegDef := ⟨0x402008, [⟨16, 0x40, 0⟩], 12, 20, .const 0, .rws, .stored, false⟩

/-- R411 0x0040200C [15:0] by s. -/
def STR_IFB_HI : RegDef := ⟨0x40200C, [⟨16, 0x40, 0⟩], 0, 16, .const 0, .rws, .stored, false⟩

/-- R411 0x00402010 [31:0] by s. -/
def STR_STRIDE : RegDef := ⟨0x402010, [⟨16, 0x40, 0⟩], 0, 32, .const 0, .rws, .stored, false⟩

/-- R411 0x00402014 [17:0] by s. -/
def STR_PITCH0 : RegDef := ⟨0x402014, [⟨16, 0x40, 0⟩], 0, 18, .const 0, .rws, .stored, false⟩

/-- R411 0x00402018 [17:0] by s. -/
def STR_PITCH1 : RegDef := ⟨0x402018, [⟨16, 0x40, 0⟩], 0, 18, .const 0, .rws, .stored, false⟩

/-- R411 0x00402020 [31:0] by s. -/
def STR_FRAMES : RegDef := ⟨0x402020, [⟨16, 0x40, 0⟩], 0, 32, .const 0, .ro, .stored, false⟩

/-- R411 0x00402024 [31:0] by s. -/
def STR_LAST_TIME_LO : RegDef := ⟨0x402024, [⟨16, 0x40, 0⟩], 0, 32, .const 0, .ro, .stored, false⟩

/-- R411 0x00402028 [31:0] by s. -/
def STR_LAST_TIME_HI : RegDef := ⟨0x402028, [⟨16, 0x40, 0⟩], 0, 32, .const 0, .ro, .stored, false⟩

/-- R411 0x0040202C [3:0] by s. -/
def STR_WRITING : RegDef := ⟨0x40202C, [⟨16, 0x40, 0⟩], 0, 4, .const 15, .ro, .stored, false⟩

/-- R411 0x0040202C [7:4] by s. -/
def STR_NEWER : RegDef := ⟨0x40202C, [⟨16, 0x40, 0⟩], 4, 4, .const 0, .ro, .stored, false⟩

/-- R411 0x0040202C [11:8] by s. -/
def STR_OLDER : RegDef := ⟨0x40202C, [⟨16, 0x40, 0⟩], 8, 4, .const 0, .ro, .stored, false⟩

/-- R411 0x0040202C [15:12] by s. -/
def STR_LAST : RegDef := ⟨0x40202C, [⟨16, 0x40, 0⟩], 12, 4, .const 0, .ro, .stored, false⟩

/-- R411 0x00402030 [31:0] by s. -/
def STR_DROPPED : RegDef := ⟨0x402030, [⟨16, 0x40, 0⟩], 0, 32, .const 0, .ro, .stored, false⟩

/-- R412 0x02800000 [0:0] by m. -/
def IN_EN : RegDef := ⟨0x2800000, [⟨4, 0x100000, 0⟩], 0, 1, .const 0, .rws, .stored, false⟩

/-- R412 0x02800000 [1:1] by m. -/
def IN_HDMI_EN : RegDef := ⟨0x2800000, [⟨4, 0x100000, 0⟩], 1, 1, .const 1, .rws, .stored, false⟩

/-- R412 0x02800000 [2:2] by m. -/
def IN_DP_EN : RegDef := ⟨0x2800000, [⟨4, 0x100000, 0⟩], 2, 1, .const 1, .rws, .stored, false⟩

/-- R412 0x02800000 [5:3] by m. -/
def IN_MAX_FRL : RegDef := ⟨0x2800000, [⟨4, 0x100000, 0⟩], 3, 3, .const 6, .rws, .stored, false⟩

/-- R412 0x02800000 [8:6] by m. -/
def IN_MAX_DP : RegDef := ⟨0x2800000, [⟨4, 0x100000, 0⟩], 6, 3, .const 4, .rws, .stored, false⟩

/-- R412 0x02800004 [9:0] by m. -/
def IN_EDID_LEN : RegDef := ⟨0x2800004, [⟨4, 0x100000, 0⟩], 0, 10, .const 256, .rw, .stored, false⟩

/-- R412 0x02800008 [0:0] by m. -/
def IN_EDID_DONE : RegDef := ⟨0x2800008, [⟨4, 0x100000, 0⟩], 0, 1, .const 0, .wo, .stored, true⟩

/-- R412 0x02800010 [2:0] by m. -/
def IN_STATE : RegDef := ⟨0x2800010, [⟨4, 0x100000, 0⟩], 0, 3, .const 0, .ro, .stored, false⟩

/-- R412 0x02800010 [4:3] by m. -/
def IN_IFACE : RegDef := ⟨0x2800010, [⟨4, 0x100000, 0⟩], 3, 2, .const 0, .ro, .stored, false⟩

/-- R412 0x02800010 [6:5] by m. -/
def IN_ENCODING : RegDef := ⟨0x2800010, [⟨4, 0x100000, 0⟩], 5, 2, .const 0, .ro, .stored, false⟩

/-- R412 0x02800010 [8:7] by m. -/
def IN_BPC : RegDef := ⟨0x2800010, [⟨4, 0x100000, 0⟩], 7, 2, .const 0, .ro, .stored, false⟩

/-- R412 0x02800010 [9:9] by m. -/
def IN_LIMITED : RegDef := ⟨0x2800010, [⟨4, 0x100000, 0⟩], 9, 1, .const 0, .ro, .stored, false⟩

/-- R412 0x02800010 [11:10] by m. -/
def IN_COLORIMETRY : RegDef := ⟨0x2800010, [⟨4, 0x100000, 0⟩], 10, 2, .const 0, .ro, .stored, false⟩

/-- R412 0x02800010 [13:12] by m. -/
def IN_EOTF : RegDef := ⟨0x2800010, [⟨4, 0x100000, 0⟩], 12, 2, .const 0, .ro, .stored, false⟩

/-- R412 0x02800014 [12:0] by m. -/
def IN_HACTIVE : RegDef := ⟨0x2800014, [⟨4, 0x100000, 0⟩], 0, 13, .const 0, .ro, .stored, false⟩

/-- R412 0x02800014 [28:16] by m. -/
def IN_VACTIVE : RegDef := ⟨0x2800014, [⟨4, 0x100000, 0⟩], 16, 13, .const 0, .ro, .stored, false⟩

/-- R412 0x02800018 [31:0] by m. -/
def IN_RATE_MHZ : RegDef := ⟨0x2800018, [⟨4, 0x100000, 0⟩], 0, 32, .const 0, .ro, .stored, false⟩

/-- R412 0x0280001C [3:0] by m. -/
def IN_LINK_RATE : RegDef := ⟨0x280001C, [⟨4, 0x100000, 0⟩], 0, 4, .const 0, .ro, .stored, false⟩

/-- R412 0x0280001C [6:4] by m. -/
def IN_LINK_LANES : RegDef := ⟨0x280001C, [⟨4, 0x100000, 0⟩], 4, 3, .const 0, .ro, .stored, false⟩

/-- R412 0x02800020 [31:0] by m. -/
def IN_FRAMES_RX : RegDef := ⟨0x2800020, [⟨4, 0x100000, 0⟩], 0, 32, .const 0, .ro, .stored, false⟩

/-- R412 0x02800024 [31:0] by m. -/
def IN_DISCARDED : RegDef := ⟨0x2800024, [⟨4, 0x100000, 0⟩], 0, 32, .const 0, .ro, .stored, false⟩

/-- R412 0x02800028 [31:0] by m. -/
def IN_LINK_ERRS : RegDef := ⟨0x2800028, [⟨4, 0x100000, 0⟩], 0, 32, .const 0, .ro, .stored, false⟩

/-- R412 0x0280002C [0:0] by m. -/
def IN_CNT_CLEAR : RegDef := ⟨0x280002C, [⟨4, 0x100000, 0⟩], 0, 1, .const 0, .wo, .stored, true⟩

/-- R412 0x02800400 [31:0] by m, i. -/
def IN_EDID : RegDef := ⟨0x2800400, [⟨4, 0x100000, 0⟩, ⟨128, 0x4, 0⟩], 0, 32, .const 0, .rw, .stored, false⟩

/-- R432 0x00200000 [2:0]. -/
def SEC_BOOT_STATE : RegDef := ⟨0x200000, [], 0, 3, .const 0, .ro, .stored, false⟩

/-- R432 0x00200000 [3:3]. -/
def SEC_SLOT : RegDef := ⟨0x200000, [], 3, 1, .const 0, .ro, .stored, false⟩

/-- R432 0x00200000 [4:4]. -/
def SEC_TRYING : RegDef := ⟨0x200000, [], 4, 1, .const 0, .ro, .stored, false⟩

/-- R432 0x00200000 [5:5]. -/
def SEC_FELL_BACK : RegDef := ⟨0x200000, [], 5, 1, .const 0, .ro, .stored, false⟩

/-- R432 0x00200000 [15:8]. -/
def SEC_HALT_CODE : RegDef := ⟨0x200000, [], 8, 8, .const 0, .ro, .stored, false⟩

/-- R432 0x00200000 [31:16]. -/
def SEC_BOOT_MS : RegDef := ⟨0x200000, [], 16, 16, .const 0, .ro, .stored, false⟩

/-- R432 0x00200004 [31:0]. -/
def SEC_FW_VERSION : RegDef := ⟨0x200004, [], 0, 32, .const 0, .ro, .stored, false⟩

/-- R432 0x00200008 [15:0]. -/
def SEC_FW_SVN : RegDef := ⟨0x200008, [], 0, 16, .const 0, .ro, .stored, false⟩

/-- R432 0x00200008 [31:16]. -/
def SEC_FUSED_SVN : RegDef := ⟨0x200008, [], 16, 16, .fused 7 16, .ro, .stored, false⟩

/-- R432 0x0020000C [15:0]. -/
def SEC_TWIN_PROTO : RegDef := ⟨0x20000C, [], 0, 16, .const 0, .ro, .stored, false⟩

/-- R432 0x00200010 [0:0]. -/
def SEC_OPSIG_REQ : RegDef := ⟨0x200010, [], 0, 1, .const 0, .ro, .stored, false⟩

/-- R432 0x00200010 [1:1]. -/
def SEC_STORE_IMG : RegDef := ⟨0x200010, [], 1, 1, .const 0, .ro, .stored, false⟩

/-- R432 0x00200010 [2:2]. -/
def SEC_OWNED : RegDef := ⟨0x200010, [], 2, 1, .const 0, .ro, .stored, false⟩

/-- R432 0x00200010 [3:3]. -/
def SEC_LKEY_SET : RegDef := ⟨0x200010, [], 3, 1, .const 0, .ro, .stored, false⟩

/-- R432 0x00200014 [31:0]. -/
def SEC_OWNER_SEQ : RegDef := ⟨0x200014, [], 0, 32, .const 0, .ro, .stored, false⟩

/-- R432 0x00200018 [31:0]. -/
def SEC_SERIAL_LO : RegDef := ⟨0x200018, [], 0, 32, .fused 8 32, .ro, .fixed, false⟩

/-- R432 0x0020001C [31:0]. -/
def SEC_SERIAL_HI : RegDef := ⟨0x20001C, [], 0, 32, .fused 9 32, .ro, .fixed, false⟩

/-- R432 0x00200020 [11:0]. -/
def SEC_FLASH_MIB : RegDef := ⟨0x200020, [], 0, 12, .const 0, .ro, .stored, false⟩

/-- R432 0x00200020 [18:12]. -/
def SEC_LG_SLOTS_BAD : RegDef := ⟨0x200020, [], 12, 7, .const 0, .ro, .stored, false⟩

/-- R432 0x00200030 [2:0]. -/
def SEC_FW_CMD : RegDef := ⟨0x200030, [], 0, 3, .const 0, .wo, .stored, true⟩

/-- R432 0x00200030 [3:3]. -/
def SEC_FW_FORCE : RegDef := ⟨0x200030, [], 3, 1, .const 0, .wo, .stored, true⟩

/-- R432 0x00200034 [31:0]. -/
def SEC_FW_ADDR_LO : RegDef := ⟨0x200034, [], 0, 32, .const 0, .rw, .stored, false⟩

/-- R432 0x00200038 [15:0]. -/
def SEC_FW_ADDR_HI : RegDef := ⟨0x200038, [], 0, 16, .const 0, .rw, .stored, false⟩

/-- R432 0x0020003C [22:0]. -/
def SEC_FW_LEN : RegDef := ⟨0x20003C, [], 0, 23, .const 0, .rw, .stored, false⟩

/-- R432 0x00200040 [2:0]. -/
def SEC_FW_STATE : RegDef := ⟨0x200040, [], 0, 3, .const 0, .ro, .stored, false⟩

/-- R432 0x00200040 [15:8]. -/
def SEC_FW_ERR : RegDef := ⟨0x200040, [], 8, 8, .const 0, .ro, .stored, false⟩

/-- R432 0x00200044 [31:0]. -/
def SEC_STAGED_VERSION : RegDef := ⟨0x200044, [], 0, 32, .const 0, .ro, .stored, false⟩

/-- R432 0x00200050 [22:0]. -/
def SEC_RECOV_OFF : RegDef := ⟨0x200050, [], 0, 23, .const 0, .rw, .stored, false⟩

/-- R432 0x00200054 [0:0]. -/
def SEC_RECOV_PROGRAM : RegDef := ⟨0x200054, [], 0, 1, .const 0, .wo, .stored, true⟩

/-- R432 0x00200054 [1:1]. -/
def SEC_RECOV_REBOOT : RegDef := ⟨0x200054, [], 1, 1, .const 0, .wo, .stored, true⟩

/-- R432 0x00200058 [1:0]. -/
def SEC_RECOV_STATUS : RegDef := ⟨0x200058, [], 0, 2, .const 0, .ro, .stored, false⟩

/-- R432 0x00201000 [31:0] by i. -/
def SEC_RECOV_BUF : RegDef := ⟨0x201000, [⟨1024, 0x4, 0⟩], 0, 32, .const 0, .rw, .stored, false⟩

/-- R444 0x03000000 [0:0] by x. -/
def WEAR_WEAR_EN : RegDef := ⟨0x3000000, [⟨2, 0x100, 0⟩], 0, 1, .const 0, .rws, .stored, false⟩

/-- R444 0x03000000 [2:1] by x. -/
def WEAR_COMP_MODE : RegDef := ⟨0x3000000, [⟨2, 0x100, 0⟩], 1, 2, .const 0, .rws, .stored, false⟩

/-- R444 0x03000000 [9:3] by x. -/
def WEAR_TILES : RegDef := ⟨0x3000000, [⟨2, 0x100, 0⟩], 3, 7, .const 0, .rws, .stored, false⟩

/-- R444 0x03000000 [31:16] by x. -/
def WEAR_POLL_S : RegDef := ⟨0x3000000, [⟨2, 0x100, 0⟩], 16, 16, .const 60, .rws, .stored, false⟩

/-- R444 0x03000004 [31:0] by x. -/
def WEAR_PANEL_L50_HOURS : RegDef := ⟨0x3000004, [⟨2, 0x100, 0⟩], 0, 32, .const 50000, .rws, .stored, false⟩

/-- R444 0x03000008 [9:0] by x. -/
def WEAR_WARN_PM : RegDef := ⟨0x3000008, [⟨2, 0x100, 0⟩], 0, 10, .const 900, .rws, .stored, false⟩

/-- R444 0x03000008 [28:16] by x. -/
def WEAR_GAIN_FLOOR : RegDef := ⟨0x3000008, [⟨2, 0x100, 0⟩], 16, 13, .const 3277, .rws, .stored, false⟩

/-- R444 0x0300000C [0:0] by x. -/
def WEAR_PANEL_ID_VALID : RegDef := ⟨0x300000C, [⟨2, 0x100, 0⟩], 0, 1, .const 0, .ro, .stored, false⟩

/-- R444 0x0300000C [1:1] by x. -/
def WEAR_LEDGER_VALID : RegDef := ⟨0x300000C, [⟨2, 0x100, 0⟩], 1, 1, .const 0, .ro, .stored, false⟩

/-- R444 0x0300000C [2:2] by x. -/
def WEAR_GAIN_COPY : RegDef := ⟨0x300000C, [⟨2, 0x100, 0⟩], 2, 1, .const 0, .ro, .stored, false⟩

/-- R444 0x0300000C [3:3] by x. -/
def WEAR_FLOOR_HIT : RegDef := ⟨0x300000C, [⟨2, 0x100, 0⟩], 3, 1, .const 0, .w1c, .stored, false⟩

/-- R444 0x03000010 [31:0] by x. -/
def WEAR_PANEL_ID : RegDef := ⟨0x3000010, [⟨2, 0x100, 0⟩], 0, 32, .const 0, .ro, .stored, false⟩

/-- R444 0x03000014 [9:0] by x. -/
def WEAR_MAX_WEAR_PM : RegDef := ⟨0x3000014, [⟨2, 0x100, 0⟩], 0, 10, .const 0, .ro, (.derived .wearMaxPm), false⟩

/-- R444 0x03000014 [27:16] by x. -/
def WEAR_MAX_ZONE : RegDef := ⟨0x3000014, [⟨2, 0x100, 0⟩], 16, 12, .const 0, .ro, (.derived .wearMaxZone), false⟩

/-- R444 0x03000018 [7:0] by x. -/
def WEAR_ERR_CODE : RegDef := ⟨0x3000018, [⟨2, 0x100, 0⟩], 0, 8, .const 0, .ro, .stored, false⟩

/-- R444 0x03000040 [16:0] by x, k. -/
def WEAR_LIN : RegDef := ⟨0x3000040, [⟨2, 0x100, 0⟩, ⟨33, 0x4, 0⟩], 0, 17, .tab 1 [0, 2050, 4100, 6150, 8200, 10250, 12300, 14350, 16400, 18450, 20500, 22550, 24600, 26650, 28700, 30750, 32800, 34850, 36900, 38950, 41000, 43050, 45100, 47150, 49200, 51250, 53300, 55350, 57400, 59450, 61500, 63550, 65536], .rws, .stored, false⟩

/-- R444 0x03001000 [5:0] by x, t. -/
def WEAR_TILE_ZX0 : RegDef := ⟨0x3001000, [⟨2, 0x800, 0⟩, ⟨64, 0x20, 0⟩], 0, 6, .const 0, .rws, .stored, false⟩

/-- R444 0x03001000 [13:8] by x, t. -/
def WEAR_TILE_ZY0 : RegDef := ⟨0x3001000, [⟨2, 0x800, 0⟩, ⟨64, 0x20, 0⟩], 8, 6, .const 0, .rws, .stored, false⟩

/-- R444 0x03001000 [21:16] by x, t. -/
def WEAR_TILE_ZW : RegDef := ⟨0x3001000, [⟨2, 0x800, 0⟩, ⟨64, 0x20, 0⟩], 16, 6, .const 0, .rws, .stored, false⟩

/-- R444 0x03001000 [29:24] by x, t. -/
def WEAR_TILE_ZH : RegDef := ⟨0x3001000, [⟨2, 0x800, 0⟩, ⟨64, 0x20, 0⟩], 24, 6, .const 0, .rws, .stored, false⟩

/-- R444 0x03001004 [6:0] by x, t. -/
def WEAR_TILE_ADDR : RegDef := ⟨0x3001004, [⟨2, 0x800, 0⟩, ⟨64, 0x20, 0⟩], 0, 7, .const 0, .rws, .stored, false⟩

/-- R444 0x03001004 [7:7] by x, t. -/
def WEAR_TILE_VALID : RegDef := ⟨0x3001004, [⟨2, 0x800, 0⟩, ⟨64, 0x20, 0⟩], 7, 1, .const 0, .rws, .stored, false⟩

/-- R444 0x03001008 [31:0] by x, t. -/
def WEAR_TILE_SERIAL_LO : RegDef := ⟨0x3001008, [⟨2, 0x800, 0⟩, ⟨64, 0x20, 0⟩], 0, 32, .const 0, .ro, .stored, false⟩

/-- R444 0x0300100C [31:0] by x, t. -/
def WEAR_TILE_SERIAL_HI : RegDef := ⟨0x300100C, [⟨2, 0x800, 0⟩, ⟨64, 0x20, 0⟩], 0, 32, .const 0, .ro, .stored, false⟩

/-- R444 0x03001010 [31:0] by x, t. -/
def WEAR_TILE_L50_HOURS : RegDef := ⟨0x3001010, [⟨2, 0x800, 0⟩, ⟨64, 0x20, 0⟩], 0, 32, .const 0, .ro, .stored, false⟩

/-- R444 0x03001014 [1:0] by x, t. -/
def WEAR_TILE_STATE : RegDef := ⟨0x3001014, [⟨2, 0x800, 0⟩, ⟨64, 0x20, 0⟩], 0, 2, .const 0, .ro, .stored, false⟩

/-- R444 0x03001014 [2:2] by x, t. -/
def WEAR_TILE_CURVE : RegDef := ⟨0x3001014, [⟨2, 0x800, 0⟩, ⟨64, 0x20, 0⟩], 2, 1, .const 0, .ro, .stored, false⟩

/-- R444 0x03001014 [31:16] by x, t. -/
def WEAR_TILE_READ_FAILS : RegDef := ⟨0x3001014, [⟨2, 0x800, 0⟩, ⟨64, 0x20, 0⟩], 16, 16, .const 0, .ro, .stored, false⟩

/-- R444 0x03002000 [11:0]. -/
def WEAR_ZSEL_ZONE : RegDef := ⟨0x3002000, [], 0, 12, .const 0, .rw, .stored, false⟩

/-- R444 0x03002000 [12:12]. -/
def WEAR_ZSEL_OUT : RegDef := ⟨0x3002000, [], 12, 1, .const 0, .rw, .stored, false⟩

/-- R444 0x03002004 [31:0]. -/
def WEAR_ZONE_LT_LO : RegDef := ⟨0x3002004, [], 0, 32, .const 0, .ro, (.derived .zoneLtLo), false⟩

/-- R444 0x03002008 [15:0]. -/
def WEAR_ZONE_LT_HI : RegDef := ⟨0x3002008, [], 0, 16, .const 0, .ro, .stored, false⟩

/-- R444 0x0300200C [12:0]. -/
def WEAR_ZONE_GAIN : RegDef := ⟨0x300200C, [], 0, 13, .const 4096, .ro, (.derived .zoneGain), false⟩

/-- R444 0x0300200C [25:16]. -/
def WEAR_ZONE_WEAR_PM : RegDef := ⟨0x300200C, [], 16, 10, .const 0, .ro, (.derived .zoneWearPm), false⟩

/-- R444 0x03002010 [1:0]. -/
def WEAR_RESCAN : RegDef := ⟨0x3002010, [], 0, 2, .const 0, .wo, .stored, true⟩

/-- R444 0x03002010 [7:2]. -/
def WEAR_RST_TILE : RegDef := ⟨0x3002010, [], 2, 6, .const 0, .wo, .stored, true⟩

/-- R444 0x03002010 [8:8]. -/
def WEAR_RST_OUT : RegDef := ⟨0x3002010, [], 8, 1, .const 0, .wo, .stored, true⟩

/-- R444 0x03002010 [9:9]. -/
def WEAR_RST_ALL : RegDef := ⟨0x3002010, [], 9, 1, .const 0, .wo, .stored, true⟩

/-- R444 0x03002010 [10:10]. -/
def WEAR_RESET_ZONES : RegDef := ⟨0x3002010, [], 10, 1, .const 0, .wo, .stored, true⟩

/-- R458 0x00000300 [15:0]. -/
def TOP_GPIO_DIR : RegDef := ⟨0x300, [], 0, 16, .const 0, .rw, .stored, false⟩

/-- R458 0x00000304 [15:0]. -/
def TOP_GPIO_OUT : RegDef := ⟨0x304, [], 0, 16, .const 0, .rw, .stored, false⟩

/-- R458 0x00000308 [15:0]. -/
def TOP_GPIO_IN : RegDef := ⟨0x308, [], 0, 16, .const 0, .ro, .stored, false⟩

/-- R458 0x0000030C [15:0]. -/
def TOP_GPIO_STRAP : RegDef := ⟨0x30C, [], 0, 16, .const 0, .ro, .stored, false⟩

/-- R458 0x00000310 [15:0]. -/
def TOP_GPIO_PULL : RegDef := ⟨0x310, [], 0, 16, .const 65535, .rw, .stored, false⟩

/-- R392 0x00410000 [31:0] by v. -/
def HST_MSIX_ADDR_LO : RegDef := ⟨0x410000, [⟨64, 0x10, 0⟩], 0, 32, .const 0, .rw, .stored, false⟩

/-- R392 0x00410004 [31:0] by v. -/
def HST_MSIX_ADDR_HI : RegDef := ⟨0x410004, [⟨64, 0x10, 0⟩], 0, 32, .const 0, .rw, .stored, false⟩

/-- R392 0x00410008 [31:0] by v. -/
def HST_MSIX_DATA : RegDef := ⟨0x410008, [⟨64, 0x10, 0⟩], 0, 32, .const 0, .rw, .stored, false⟩

/-- R392 0x0041000C [0:0] by v. -/
def HST_MSIX_MASK : RegDef := ⟨0x41000C, [⟨64, 0x10, 0⟩], 0, 1, .const 1, .rw, .stored, false⟩

/-- R392 0x00411000 [0:0] by w, v. -/
def HST_MSIX_PBA : RegDef := ⟨0x411000, [⟨2, 0x4, 0⟩, ⟨32, 0x0, 1⟩], 0, 1, .const 0, .ro, .stored, false⟩

end Reg

/-- Part 0 of the register map. -/
def regMapPart0 : List RegDef := [Reg.TOP_ID, Reg.TOP_TB_LO, Reg.TOP_TB_HI, Reg.MC_INDEX, Reg.MC_CLUSTER, Reg.MC_SPARE, Reg.MC_DEVCORE, Reg.MC_STATE, Reg.MC_TASK, Reg.MC_READY, Reg.MC_ACC_SAT, Reg.MC_OUT_SAT, Reg.MC_NAN_ACC, Reg.MC_NAN_INT, Reg.MC_E5M2_FLUSH, Reg.MC_ECC_CORR, Reg.MC_FMT_CAP, Reg.MC_ACC_BASE, Reg.MC_ACC_CNT, Reg.MC_LIMIT, Reg.MC_CAP_LIMIT, Reg.MC_RAMP_LIMIT, Reg.MC_CURVE_ADDR, Reg.MC_CURVE_DATA, Reg.MC_CURVE_X0, Reg.MC_CURVE_ISTEP, Reg.MC_CURVE_LO_MODE, Reg.MC_CURVE_HI_MODE, Reg.MC_MAC_LO, Reg.MC_MAC_HI, Reg.MC_SP_ACCESS, Reg.MC_BUSY, Reg.MC_CNT_CLEAR, Reg.MC_CNT_HOLD, Reg.MC_FAULT_CODE, Reg.MC_FAULT_TASK, Reg.MC_FAULT_PC, Reg.TASK_ENTRY_PC, Reg.TASK_ENABLE, Reg.TASK_CLASS, Reg.TASK_RESIDENT, Reg.TASK_PC, Reg.TASK_TSTATE, Reg.TASK_LOOPS, Reg.TASK_PENDING, Reg.TASK_LAUNCH_OVR, Reg.TASK_DL, Reg.TASK_LAUNCH, Reg.TASK_WAITCYC, Reg.TASK_ISSUED]

/-- Part 1 of the register map. -/
def regMapPart1 : List RegDef := [Reg.TASK_SELECTED, Reg.MC_DBG_TASK, Reg.MC_DBG_SPACE, Reg.MC_DBG_INDEX, Reg.MC_DBG_DATA, Reg.MC_PREEMPT_DELTA, Reg.MC_ENH_WINDOW, Reg.MC_WAIT_LIMIT, Reg.MC_SWITCHES, Reg.SP_BANKS, Reg.SP_SPARE_ROWS, Reg.SP_DEVCORE, Reg.SP_BANK_PG_LO, Reg.SP_BANK_PG_HI, Reg.SP_BANK_ON_LO, Reg.SP_BANK_ON_HI, Reg.SP_PG_BUSY, Reg.SP_AOW_SAT, Reg.SP_AOW_NAN, Reg.SP_CREDIT_SAT, Reg.SP_TAG_ODD, Reg.SP_ECC_CORR, Reg.SP_ECC_DED, Reg.SP_PG_TIMEOUT, Reg.SP_ECC_CORR_CNT, Reg.SP_ECC_BANK, Reg.SP_ECC_PROW, Reg.SP_ECC_WAS_DED, Reg.SP_COLLIDE, Reg.SP_PORT_WAIT, Reg.SP_PG_WAIT_LIMIT, Reg.SP_TASK_BASE, Reg.SP_TASK_BOUND, Reg.SP_REMAP_ROW, Reg.SP_REMAP_VALID, Reg.SP_OUTRT_CRED, Reg.SP_OUTRT_WAITING, Reg.HND_VALID, Reg.HND_KIND, Reg.HND_TAGMODE, Reg.HND_HALVES, Reg.HND_ZFILL, Reg.HND_OWNERS, Reg.HND_RELN, Reg.HND_BASE_ROW, Reg.HND_SIZE, Reg.HND_THALVES, Reg.HND_TSIZE, Reg.SLOT_FULL, Reg.SLOT_RELCNT]

/-- Part 2 of the register map. -/
def regMapPart2 : List RegDef := [Reg.SLOT_GEN, Reg.SP_INRT_VALID, Reg.SP_INRT_HANDLE, Reg.SP_INRT_WRITER, Reg.SP_INRT_ROUTE, Reg.SP_INRT_ALLOC, Reg.SU_UNIT, Reg.SU_CLUSTER, Reg.SU_MASTER, Reg.SU_STATE, Reg.SU_PC, Reg.SU_LOOPS, Reg.SU_PENDING, Reg.SU_TAGS, Reg.SU_ENABLE, Reg.SU_ENTRY_PC, Reg.SU_CACHE, Reg.SU_PIPELINE, Reg.SU_TAGLIM, Reg.SU_TAGRES, Reg.SU_RATE, Reg.SU_BURST, Reg.SU_REG_EN, Reg.SU_TOKENS, Reg.SU_DL, Reg.SU_LAUNCH, Reg.SU_CSTALL_LIMIT, Reg.SU_REARM_OVERRUN, Reg.SU_CREDIT_SAT, Reg.SU_POISON, Reg.SU_MV_CLAMP, Reg.SU_FAULT_CODE, Reg.SU_FAULT_PC, Reg.SU_MVCLAMP_CNT, Reg.SU_LATE_CNT, Reg.SU_BYTES_LO, Reg.SU_BYTES_HI, Reg.SU_CNT_CLEAR, Reg.SU_RT_TCORE, Reg.SU_RT_THANDLE, Reg.SU_RT_ROUTE, Reg.SU_RT_VALID, Reg.SU_RT_TSIZE, Reg.SU_RT_THALVES, Reg.SU_RT_CRED, Reg.SU_RT_WAITING, Reg.SU_RT_CUR_HALF, Reg.SU_WP_TCORE, Reg.SU_WP_THANDLE, Reg.SU_WP_THALVES]

/-- Part 3 of the register map. -/
def regMapPart3 : List RegDef := [Reg.SU_WP_VALID, Reg.SU_WP_TSIZE, Reg.SU_WP_CUR_HALF, Reg.SU_WP_EGEN0, Reg.SU_WP_EGEN1, Reg.SU_DBG_SPACE, Reg.SU_DBG_INDEX, Reg.SU_DBG_DATA, Reg.SU_PROG_W, Reg.DDR_CHANNELS, Reg.DDR_DATARATE, Reg.DDR_CAP_GIB, Reg.DDR_CH_READY, Reg.DDR_COLBITS, Reg.DDR_HIT_SLACK, Reg.DDR_WQ_HIGH, Reg.DDR_WQ_LOW, Reg.DDR_NODL, Reg.DDR_SCRUB_HOURS, Reg.DDR_ECC_CE_CNT, Reg.DDR_ECC_UE_CNT, Reg.DDR_ECC_ADDR_LO, Reg.DDR_ECC_ADDR_HI, Reg.DDR_ECC_WAS_UE, Reg.DDR_REF_POSTPONED, Reg.DDR_HIT_PROMOTED, Reg.DDR_CH_UTIL, Reg.DDR_CNT_CLEAR, Reg.CL_CLUSTER, Reg.CL_CLK_MHZ, Reg.CL_ACTIVE, Reg.CL_RETIRED, Reg.CL_PLAN, Reg.CL_SPARE_FOR, Reg.CL_SC_EN, Reg.CL_SC_HIT, Reg.CL_SC_MISS, Reg.CL_SC_DED, Reg.CL_CNT_CLEAR, Reg.CL_RING_MEMBERS, Reg.CL_RING_SU, Reg.CL_RING_STREAM, Reg.CL_RING_BYTES, Reg.CL_MCG_MEMBERS, Reg.CL_MCG_THANDLE, Reg.CL_MCG_VALID, Reg.CL_MCG_WAIT, Reg.CL_WC_VALID, Reg.CL_WC_PIPELINE, Reg.CL_WC_MEMBERS]

/-- Part 4 of the register map. -/
def regMapPart4 : List RegDef := [Reg.CL_WC_PER_ROW, Reg.CL_WC_LEASE, Reg.CL_WC_CLOSE_LIMIT, Reg.CL_WC_STATE, Reg.CL_WC_ARM_QUEUED, Reg.CL_WC_LEASES, Reg.CL_WC_LGEN, Reg.CL_WC_NEXT, Reg.CL_WC_TILES, Reg.CL_WC_ACCEPTED, Reg.CL_WC_REISSUE, Reg.CL_WC_EXPIRED, Reg.CL_WC_DISCARDED, Reg.TOP_ARM_OUT0, Reg.TOP_ARM_OUT1, Reg.TOP_ARM_PIPE, Reg.TOP_DISCARD, Reg.TOP_ARMED, Reg.TOP_SPLIT, Reg.TOP_INSTALL_PENDING, Reg.TOP_REJECT, Reg.TOP_LATE, Reg.TOP_IMG_OWNED, Reg.TOP_ERR_CODE, Reg.TOP_ERR_DOMAINS, Reg.TOP_ERR_DETAIL, Reg.TOP_PIPE_PACE, Reg.TOP_PIPE_IDLE_US, Reg.TOP_FRAME_OUT0, Reg.TOP_FRAME_OUT1, Reg.TOP_FRAME_PIPE, Reg.TOP_IMG_ADDR_LO, Reg.TOP_IMG_ADDR_HI, Reg.TOP_IMG_LEN_LO, Reg.TOP_IMG_LEN_HI, Reg.TOP_IMG_CMD, Reg.TOP_IMG_STATE, Reg.TOP_IMG_REFUSE, Reg.TOP_IMG_PLAN, Reg.TOP_IMG_DEGRADED, Reg.TOP_DET_PIPE, Reg.TOP_DET_STAGE, Reg.TOP_DET_CORE, Reg.TOP_DET_PLAN, Reg.TOP_DET_ITEM, Reg.TOP_ACT_ADDR_LO, Reg.TOP_ACT_ADDR_HI, Reg.TOP_ACT_LEN_LO, Reg.TOP_ACT_LEN_HI, Reg.TOP_IMG_CUTOVER_US]

/-- Part 5 of the register map. -/
def regMapPart5 : List RegDef := [Reg.TOP_IMG_DIGEST, Reg.TOP_LG_SEQ_LO, Reg.TOP_LG_SEQ_HI, Reg.TOP_LG_OUT_RESTORED, Reg.TOP_LG_PIPE_RESTORED, Reg.TOP_LG_WRITE_PENDING, Reg.TOP_LG_NO_RECORD, Reg.OUT_INDEX, Reg.OUT_ENABLE, Reg.OUT_MODE, Reg.OUT_SPLIT, Reg.OUT_FORCE_BG, Reg.OUT_IFACE, Reg.OUT_SR_EN, Reg.OUT_GUARD_LINES, Reg.OUT_SPLIT_SKEW, Reg.OUT_HACTIVE, Reg.OUT_HTOTAL, Reg.OUT_HFRONT, Reg.OUT_HSYNC, Reg.OUT_HSYNC_POL, Reg.OUT_VACTIVE, Reg.OUT_VTOTAL, Reg.OUT_VFRONT, Reg.OUT_VSYNC, Reg.OUT_VSYNC_POL, Reg.OUT_PCLK_KHZ, Reg.OUT_BPC10, Reg.OUT_ENCODING, Reg.OUT_LIMITED, Reg.OUT_COLORIMETRY, Reg.OUT_EOTF, Reg.OUT_MAXCLL, Reg.OUT_MAXFALL, Reg.OUT_DSC_EN, Reg.OUT_SLICES, Reg.OUT_BLOCK_PRED, Reg.OUT_NATIVE, Reg.OUT_BPP16, Reg.OUT_SLICE_H, Reg.OUT_RATE, Reg.OUT_LANES, Reg.OUT_FALLBACK_EN, Reg.OUT_SSC_EN, Reg.OUT_FEC_EN, Reg.OUT_REF_SRC, Reg.OUT_REF_MULT, Reg.OUT_REF_TRI, Reg.OUT_JUMP_EN, Reg.OUT_JUMP_LINES]

/-- Part 6 of the register map. -/
def regMapPart6 : List RegDef := [Reg.OUT_VB_MIN, Reg.OUT_REF_OFFSET, Reg.OUT_UNLOCK_PX, Reg.OUT_SR_ENTRY, Reg.OUT_RUNNING, Reg.OUT_HPD, Reg.OUT_LINK_UP, Reg.OUT_SR_ACTIVE, Reg.OUT_GL_STATE, Reg.OUT_FREQ_LOCK, Reg.OUT_REF_PRESENT, Reg.OUT_LINK_RATE, Reg.OUT_LINK_LANES, Reg.OUT_FEC_ACTIVE, Reg.OUT_FRAME, Reg.OUT_LINE, Reg.OUT_GL_PHASE, Reg.OUT_GL_REF_PERIOD, Reg.OUT_JUMPS, Reg.OUT_ERR_CODE, Reg.OUT_SR_ENTRIES, Reg.OUT_LINK_FAILS, Reg.OUT_LB_BASE, Reg.OUT_LB_LINES, Reg.OUT_LB_LWM, Reg.OUT_LB_LEVEL, Reg.OUT_LB_CRIT, Reg.OUT_LB_UNDERRUN, Reg.AUXP_ENABLE, Reg.AUXP_MODE, Reg.AUXP_LANES, Reg.AUXP_VIDMODE, Reg.AUXP_CONT_CLK, Reg.AUXP_PIXFMT, Reg.AUXP_TE_SRC, Reg.AUXP_LANE_MBPS, Reg.AUXP_HACTIVE, Reg.AUXP_HTOTAL, Reg.AUXP_HFRONT, Reg.AUXP_HSYNC, Reg.AUXP_VACTIVE, Reg.AUXP_VTOTAL, Reg.AUXP_VFRONT, Reg.AUXP_VSYNC, Reg.AUXP_PCLK_KHZ, Reg.AUXP_SRC_ADDR_LO, Reg.AUXP_SRC_ADDR_HI, Reg.AUXP_PITCH, Reg.AUXP_SRC_FMT, Reg.AUXP_PERIOD_US]

/-- Part 7 of the register map. -/
def regMapPart7 : List RegDef := [Reg.AUXP_FULL_EVERY, Reg.AUXP_BG, Reg.AUXP_RUNNING, Reg.AUXP_TE_SEEN, Reg.AUXP_FRAME, Reg.AUXP_BANDS_PUSHED, Reg.AUXP_UNDERRUN, Reg.AUXP_TE_TIMEOUT, Reg.AUXP_ERR_CODE, Reg.CMP_START, Reg.CMP_STARTED, Reg.CMP_OCURVE_EN, Reg.CMP_OCURVE, Reg.CMP_BGCOLOUR, Reg.CMP_WB_EN, Reg.CMP_WB_TAP, Reg.CMP_WB_FMT, Reg.CMP_WB_COUNT, Reg.CMP_WB_BASE_LO, Reg.CMP_WB_BASE_HI, Reg.CMP_WB_STRIDE, Reg.CMP_WB_PITCH, Reg.CMP_WB_OWN, Reg.CMP_WB_LAST, Reg.CMP_WB_FRAME, Reg.CMP_WB_SKIPPED, Reg.CMP_WB_INCOMPLETE, Reg.CMP_ERR_CODE, Reg.LAY_KIND, Reg.LAY_Z, Reg.LAY_GROUP, Reg.LAY_FMT, Reg.LAY_PREMULT, Reg.LAY_LCURVE_EN, Reg.LAY_GALPHA, Reg.LAY_X, Reg.LAY_Y, Reg.LAY_W, Reg.LAY_H, Reg.LAY_ADDR_LO, Reg.LAY_ADDR_HI, Reg.LAY_FLIP_SEQ, Reg.LAY_PITCH, Reg.LAY_FENCE_ADDR_LO, Reg.LAY_FENCE_ADDR_HI, Reg.LAY_FENCE_EN, Reg.LAY_FENCE_VAL_LO, Reg.LAY_FENCE_VAL_HI, Reg.LAY_FRONT_ADDR_LO, Reg.LAY_FRONT_ADDR_HI]

/-- Part 8 of the register map. -/
def regMapPart8 : List RegDef := [Reg.LAY_FRONT_SEQ, Reg.LAY_PENDING, Reg.LAY_FENCE_MET, Reg.LAY_PEND_SEQ, Reg.LAY_FLIPS, Reg.LAY_HELD, Reg.LAY_REPLACED, Reg.LAY_FENCE_TIMEOUT, Reg.GP_STREAM, Reg.GP_CSC, Reg.GP_HCOEF, Reg.GP_VCOEF, Reg.GP_DN_K, Reg.GP_DN_THRESH, Reg.GP_SRC_X, Reg.GP_SRC_Y, Reg.GP_SRC_W, Reg.GP_SRC_H, Reg.GP_GUARD_CNT, Reg.GP_LATE_CNT, Reg.GP_FORCED_CNT, Reg.GP_OFF_CNT, Reg.GP_LEVEL, Reg.GP_FORCE_GUARD, Reg.LAN_STATE, Reg.LAN_FAILS, Reg.LAN_APPLY_PENDING, Reg.LAN_APPLY_ERR, Reg.LAN_WQ_OVF, Reg.LAN_OPEN_COUNT, Reg.LAN_TIMEOUT_MS, Reg.LAN_CLOSE, Reg.LAN_APPLY, Reg.LAN_NONCE, Reg.LAN_AUTH, Reg.LAN_EN, Reg.LAN_FMT, Reg.LAN_SCALE2, Reg.LAN_IND_EN, Reg.LAN_BASE, Reg.LAN_PITCH, Reg.LAN_W, Reg.LAN_H, Reg.LAN_X, Reg.LAN_Y, Reg.LAN_IND_BASE, Reg.LAN_IND_W, Reg.LAN_IND_H, Reg.LAN_IND_X, Reg.LAN_IND_Y]

/-- Part 9 of the register map. -/
def regMapPart9 : List RegDef := [Reg.LAN_CHECK_EN, Reg.LAN_EXPECT, Reg.LAN_WADDR, Reg.LAN_WDATA, Reg.LAN_CSRC_LO, Reg.LAN_CSRC_HI, Reg.LAN_CDST, Reg.LAN_CLEN, Reg.LAN_CGO, Reg.LAN_CSTATE, Reg.LAN_DENIED, Reg.WL_EN, Reg.WL_WL_EN, Reg.WL_ACT_GUARD, Reg.WL_ACT_IND, Reg.WL_SRC, Reg.WL_GLAYER, Reg.WL_WL_FRAMES, Reg.WL_X, Reg.WL_Y, Reg.WL_W, Reg.WL_H, Reg.WL_SIG, Reg.WL_SIG_FRAME, Reg.WL_COUNT, Reg.WL_FROZEN, Reg.WL_MISMATCH, Reg.WL_GFORCED, Reg.WL_FREEZES, Reg.WL_MISMATCH_CNT, Reg.BCN_PAIR_EN, Reg.BCN_SIDE, Reg.BCN_WALL_EN, Reg.BCN_TOK_MASTER, Reg.BCN_POS, Reg.BCN_PAIRS, Reg.BCN_TOK_ALT, Reg.BCN_ROLE, Reg.BCN_READY, Reg.BCN_ISOLATED, Reg.BCN_SPLIT, Reg.BCN_SHOWN, Reg.BCN_TWIN_ROLE, Reg.BCN_TWIN_PRESENT, Reg.BCN_E_PRESENT, Reg.BCN_W_PRESENT, Reg.BCN_E_RELAY, Reg.BCN_W_RELAY, Reg.BCN_EPOCH, Reg.BCN_HANDOVER_MASK]

/-- Part 10 of the register map. -/
def regMapPart10 : List RegDef := [Reg.BCN_HANDOVER, Reg.BCN_START_WAIT_MS, Reg.BCN_KPR_WD_MS, Reg.BCN_SEL_US, Reg.BCN_TOK_LEAD_US, Reg.BCN_SLACK_WARN_US, Reg.BCN_NBR_STALL_US, Reg.BCN_OWN_MIN_SLACK, Reg.BCN_WALL_MIN_SLACK, Reg.BCN_WALL_MIN_POS, Reg.BCN_TB_OFFSET, Reg.BCN_TAKEOVERS, Reg.BCN_SEAM_RESETS, Reg.BCN_SEAM_PIPES_E_LO, Reg.BCN_SEAM_PIPES_E_HI, Reg.BCN_SEAM_PIPES_W_LO, Reg.BCN_SEAM_PIPES_W_HI, Reg.BCNP_UP, Reg.BCNP_PARTNER, Reg.BCNP_LANES_OK, Reg.BCNP_PARTNER_ID, Reg.BCNP_HOP_DELAY_PS, Reg.BCNP_BEATS_MISSED, Reg.BCNP_NBR_LATE, Reg.BCNP_FEC_CORR, Reg.BCNP_RETRIES, Reg.BCNP_TOK_LATE, Reg.BCNP_TOK_RX, Reg.BCN_MIR_TX, Reg.BCN_MIR_RX, Reg.BCN_FALLBACK, Reg.BCN_MIR_HOLD_US, Reg.BCN_MIR_LATE, Reg.BCNQ_TX_EN, Reg.BCNQ_TX_SLOT_TXN, Reg.BCNQ_TX_CRED, Reg.BCNQ_TX_WAITING, Reg.BCNQ_RX_EN, Reg.BCNQ_RELAY, Reg.BCNQ_ALT_T, Reg.BCNQ_CLUSTER, Reg.BCNQ_PROXY_SU, Reg.BCNQ_PROXY_RT, Reg.BCNQ_HALVES, Reg.BCNQ_STAGE_SLOTS, Reg.BCNQ_RX_SLOT_TXN, Reg.BCNQ_SLOTS_RX, Reg.BCNQ_STALE, Reg.BCNQ_NEXT_K, Reg.PWR_CAP_W]

/-- Part 11 of the register map. -/
def regMapPart11 : List RegDef := [Reg.PWR_WINDOW_MS, Reg.PWR_CTL_MS, Reg.PWR_VSETTLE_US, Reg.PWR_CAP_ACTIVE, Reg.PWR_UNREACHABLE, Reg.PWR_PMBUS_OK, Reg.PWR_P_MEAS_MW, Reg.PWR_P_WIN_MW, Reg.PWR_P_ALLOW_MW, Reg.PWR_P_FIXED_MW, Reg.PWR_P_BASE_MW, Reg.PWR_K, Reg.PWR_VDD_MV, Reg.PWR_AGE_COMP_MV, Reg.PWR_GB_MV, Reg.PWR_OP_MAX, Reg.PWR_P_UNATTR_MW, Reg.PWR_RAIL_ADDR, Reg.PWR_RAIL_PAGE, Reg.PWR_RAIL_VALID, Reg.PWR_RAIL_CORE, Reg.PWR_OP_MHZ, Reg.PWR_OP_VMIN_MV, Reg.PWR_PHASE_OP, Reg.PWR_PHASE_MIN_LIMIT, Reg.PWR_PHASE_RANK, Reg.PWR_PHASE_LIMIT, Reg.PWR_PHASE_DEMAND_MW, Reg.PWR_PHASE_EPF, Reg.PWR_C_MAC8, Reg.PWR_C_MAC16, Reg.PWR_C_SP, Reg.PWR_C_SC, Reg.PWR_C_DDR, Reg.PWR_C_BE, Reg.PWR_JOB_ENERGY, Reg.PWR_JOB_SEQ, Reg.PWR_JOB_ABANDONED, Reg.PWR_JOB_AVG, Reg.THM_WARN_C, Reg.THM_THROTTLE_C, Reg.THM_HYST_C, Reg.THM_WARN, Reg.THM_THROTTLING, Reg.THM_TRIP_STICKY, Reg.THM_SENSOR_FAIL, Reg.THM_LIMIT, Reg.THM_MAX, Reg.THM_MAX_SENSOR, Reg.THM_PEAK]

/-- Part 12 of the register map. -/
def regMapPart12 : List RegDef := [Reg.THM_PEAK_CLEAR, Reg.THM_SENSOR_TEMP, Reg.THM_SENSOR_VALID, Reg.TOP_UNFREEZE_KIND, Reg.TOP_UNFREEZE_INDEX, Reg.TOP_UNFREEZE_SEQ, Reg.TOP_UNFREEZE_RESULT, Reg.TOP_FROZEN_CORE_0, Reg.TOP_FROZEN_CORE_1, Reg.TOP_FROZEN_CORE_2, Reg.TOP_FROZEN_SU, Reg.TOP_FROZEN_BE, Reg.TOP_FROZEN_BAR2, Reg.TOP_RETIRED_BE, Reg.TOP_FAULTN_MASK, Reg.TOP_ANY_FROZEN, Reg.TOP_ANY_PARKED, Reg.TOP_DEGRADED, Reg.TOP_MEM_UE, Reg.TOP_SPARE_IN_USE, Reg.TOP_ANY_RETIRED, Reg.TOP_ASSERTED, Reg.TOP_PARKED_LO, Reg.TOP_PARKED_HI, Reg.TOP_EVT_SEQ, Reg.TOP_EVT_DROPPED, Reg.TOP_EVT_PERSIST_DROPPED, Reg.KPR_OPCODE, Reg.KPR_CMD_TAG, Reg.KPR_ARG0, Reg.KPR_ARG1, Reg.KPR_ARG2, Reg.KPR_STATE, Reg.KPR_BUSY_WRITE, Reg.KPR_ERR, Reg.KPR_TAG, Reg.KPR_RLEN, Reg.KPR_RESP, Reg.HST_GEN, Reg.HST_WIDTH, Reg.HST_UP, Reg.HST_BME, Reg.HST_IN_L1, Reg.HST_BAR2_BASE, Reg.HST_BAR2_LOG2, Reg.HST_HWIN_BASE_LO, Reg.HST_HWIN_BASE_HI, Reg.HST_HWIN_ERR, Reg.HST_ERR_CODE, Reg.HST_IRQ_VECTOR]

/-- Part 13 of the register map. -/
def regMapPart13 : List RegDef := [Reg.HST_IRQ_EN, Reg.EVT_BASE_LO, Reg.RES_BASE_LO, Reg.DSC_BASE_LO, Reg.EVT_BASE_HI, Reg.RES_BASE_HI, Reg.DSC_BASE_HI, Reg.EVT_LOG2, Reg.RES_LOG2, Reg.DSC_LOG2, Reg.EVT_EN, Reg.RES_EN, Reg.DSC_EN, Reg.EVT_WB_EN, Reg.RES_WB_EN, Reg.DSC_WB_EN, Reg.EVT_HIDX, Reg.RES_HIDX, Reg.DSC_HIDX, Reg.EVT_DIDX, Reg.RES_DIDX, Reg.DSC_DIDX, Reg.EVT_COAL_US, Reg.RES_COAL_US, Reg.DSC_COAL_US, Reg.EVT_COAL_CNT, Reg.RES_COAL_CNT, Reg.DSC_COAL_CNT, Reg.EVT_WB_LO, Reg.RES_WB_LO, Reg.DSC_WB_LO, Reg.EVT_WB_HI, Reg.RES_WB_HI, Reg.DSC_WB_HI, Reg.EVT_IDX_ERR, Reg.RES_IDX_ERR, Reg.DSC_IDX_ERR, Reg.EVT_COUNT, Reg.RES_COUNT, Reg.DSC_COUNT, Reg.HST_RES_DROPPED, Reg.HST_RES_SEQ, Reg.STR_SRC, Reg.STR_PORT, Reg.STR_FMT, Reg.STR_NBUF, Reg.STR_W, Reg.STR_H, Reg.STR_IFB_LO, Reg.STR_IFB_HI]

/-- Part 14 of the register map. -/
def regMapPart14 : List RegDef := [Reg.STR_STRIDE, Reg.STR_PITCH0, Reg.STR_PITCH1, Reg.STR_FRAMES, Reg.STR_LAST_TIME_LO, Reg.STR_LAST_TIME_HI, Reg.STR_WRITING, Reg.STR_NEWER, Reg.STR_OLDER, Reg.STR_LAST, Reg.STR_DROPPED, Reg.IN_EN, Reg.IN_HDMI_EN, Reg.IN_DP_EN, Reg.IN_MAX_FRL, Reg.IN_MAX_DP, Reg.IN_EDID_LEN, Reg.IN_EDID_DONE, Reg.IN_STATE, Reg.IN_IFACE, Reg.IN_ENCODING, Reg.IN_BPC, Reg.IN_LIMITED, Reg.IN_COLORIMETRY, Reg.IN_EOTF, Reg.IN_HACTIVE, Reg.IN_VACTIVE, Reg.IN_RATE_MHZ, Reg.IN_LINK_RATE, Reg.IN_LINK_LANES, Reg.IN_FRAMES_RX, Reg.IN_DISCARDED, Reg.IN_LINK_ERRS, Reg.IN_CNT_CLEAR, Reg.IN_EDID, Reg.SEC_BOOT_STATE, Reg.SEC_SLOT, Reg.SEC_TRYING, Reg.SEC_FELL_BACK, Reg.SEC_HALT_CODE, Reg.SEC_BOOT_MS, Reg.SEC_FW_VERSION, Reg.SEC_FW_SVN, Reg.SEC_FUSED_SVN, Reg.SEC_TWIN_PROTO, Reg.SEC_OPSIG_REQ, Reg.SEC_STORE_IMG, Reg.SEC_OWNED, Reg.SEC_LKEY_SET, Reg.SEC_OWNER_SEQ]

/-- Part 15 of the register map. -/
def regMapPart15 : List RegDef := [Reg.SEC_SERIAL_LO, Reg.SEC_SERIAL_HI, Reg.SEC_FLASH_MIB, Reg.SEC_LG_SLOTS_BAD, Reg.SEC_FW_CMD, Reg.SEC_FW_FORCE, Reg.SEC_FW_ADDR_LO, Reg.SEC_FW_ADDR_HI, Reg.SEC_FW_LEN, Reg.SEC_FW_STATE, Reg.SEC_FW_ERR, Reg.SEC_STAGED_VERSION, Reg.SEC_RECOV_OFF, Reg.SEC_RECOV_PROGRAM, Reg.SEC_RECOV_REBOOT, Reg.SEC_RECOV_STATUS, Reg.SEC_RECOV_BUF, Reg.WEAR_WEAR_EN, Reg.WEAR_COMP_MODE, Reg.WEAR_TILES, Reg.WEAR_POLL_S, Reg.WEAR_PANEL_L50_HOURS, Reg.WEAR_WARN_PM, Reg.WEAR_GAIN_FLOOR, Reg.WEAR_PANEL_ID_VALID, Reg.WEAR_LEDGER_VALID, Reg.WEAR_GAIN_COPY, Reg.WEAR_FLOOR_HIT, Reg.WEAR_PANEL_ID, Reg.WEAR_MAX_WEAR_PM, Reg.WEAR_MAX_ZONE, Reg.WEAR_ERR_CODE, Reg.WEAR_LIN, Reg.WEAR_TILE_ZX0, Reg.WEAR_TILE_ZY0, Reg.WEAR_TILE_ZW, Reg.WEAR_TILE_ZH, Reg.WEAR_TILE_ADDR, Reg.WEAR_TILE_VALID, Reg.WEAR_TILE_SERIAL_LO, Reg.WEAR_TILE_SERIAL_HI, Reg.WEAR_TILE_L50_HOURS, Reg.WEAR_TILE_STATE, Reg.WEAR_TILE_CURVE, Reg.WEAR_TILE_READ_FAILS, Reg.WEAR_ZSEL_ZONE, Reg.WEAR_ZSEL_OUT, Reg.WEAR_ZONE_LT_LO, Reg.WEAR_ZONE_LT_HI, Reg.WEAR_ZONE_GAIN]

/-- Part 16 of the register map. -/
def regMapPart16 : List RegDef := [Reg.WEAR_ZONE_WEAR_PM, Reg.WEAR_RESCAN, Reg.WEAR_RST_TILE, Reg.WEAR_RST_OUT, Reg.WEAR_RST_ALL, Reg.WEAR_RESET_ZONES, Reg.TOP_GPIO_DIR, Reg.TOP_GPIO_OUT, Reg.TOP_GPIO_IN, Reg.TOP_GPIO_STRAP, Reg.TOP_GPIO_PULL, Reg.HST_MSIX_ADDR_LO, Reg.HST_MSIX_ADDR_HI, Reg.HST_MSIX_DATA, Reg.HST_MSIX_MASK, Reg.HST_MSIX_PBA]

/-- Every field of BAR0 (R31): an offset no row reaches is unassigned. -/
def regMap : List RegDef :=
  regMapPart0 ++ regMapPart1 ++ regMapPart2 ++ regMapPart3 ++ regMapPart4 ++ regMapPart5 ++ regMapPart6 ++ regMapPart7 ++ regMapPart8 ++ regMapPart9 ++ regMapPart10 ++ regMapPart11 ++ regMapPart12 ++ regMapPart13 ++ regMapPart14 ++ regMapPart15 ++ regMapPart16

end Sys2Proof.Machine
end

