-- ==== Sys2Proof/WellFormed.lean ====
section
/-! DEFINITION. Which commands are well formed: the operand data that an event of the device can carry. The meaning of a command whose data breaks a check ends in the fault illFormed. -/

namespace Sys2Proof

/-- Bytes of an SLH-DSA signature (R418). -/
def slhSigLen : Nat := 16224

/-- Bytes of an OWNER_SET request (R425). -/
def ownerSetLen : Nat := 0x340 + slhSigLen

/-- What LPDDR6 training can report (R187): data rate, capacity in GiB and column bits, a 4-bit field. -/
def ddrConfig (rate capGib colBits : Nat) : Bool := [10667, 9600, 8533].contains rate && [24, 36, 48, 72, 96].contains capGib && colBits < 16

/-- PCIe generation and width of a trained link (R387). -/
def linkConfig (gen width : Nat) : Bool := [3, 4, 5].contains gen && [1, 2, 4, 8].contains width

/-- The checks: a write to TOP_COMMIT sets the bit it is named after (R237), a link, a BAR2 size (R388) or memory is of a kind the part has, and a request has its length (R425). -/
def Instr.wf : Instr → Bool
  | .armOut0 v => v.toNat.testBit 0
  | .armOut1 v => v.toNat.testBit 1
  | .armPipe v => v.toNat.testBit 2
  | .discard v => v.toNat / 16 % 8 != 0
  | .hostLinkUp gen width bar2Log2 _ => linkConfig gen width && 28 ≤ bar2Log2 && bar2Log2 ≤ 36
  | .ddrTrainingDone _ rate capGib colBits => ddrConfig rate capGib colBits
  | .ownerSet _ request => request.length = ownerSetLen
  | .lkeySet _ request => request.length = 96
  | .attest _ nonce => nonce.length = 32
  | _ => true

end Sys2Proof
end

