-- ==== Sys2Proof/Machine/State.lean ====
section
/-! DEFINITION. The state of the device: everything the manual gives it (INVENTORY.md lists each piece with its rule), and the queue of waiting commands. -/

namespace Sys2Proof.Machine

/-- A hardware loop counter LC0 to LC3 (R71, R90, R171): remaining count, first and last index of the body. -/
structure LoopReg where
  count : Nat
  start : Nat
  stop : Nat
  deriving DecidableEq, Repr

/-- A held launch: its word and its deadline in the device time base (R73, R174). -/
structure Launch where
  word : Word
  deadline : Nat
  deriving DecidableEq, Repr

/-- What a task waits for (R96). -/
inductive Wait where
  | none
  | tag (slot : Nat) (want : Bool) (gchk : Bool) (gen pc : Nat)
  | credit
  | take (gd : Nat)
  | done (gd : Nat)
  deriving DecidableEq, Repr

/-- A task context (R71): registers A, S, G, P, LC, the active loops innermost first, the pending launch (R73), its wait,
whether TASK_STALL was raised in the episode (R107), and whether it has yielded (R95). -/
structure Task where
  a : Tab Word := []
  s : Tab Word := []
  g : Tab Word := []
  p : Tab (BitVec 64) := []
  lc : Tab LoopReg := []
  nest : List Nat := []
  pending : Option Launch := none
  wait : Wait := .none
  stalled : Bool := false
  yielded : Bool := false
  deriving DecidableEq, Repr

/-- A write transaction (R148): accumulate-on-write kind (0 none, 1 INT32, 2 FP32), route (none for the weight ring), target
core or multicast group, handle, half, byte offset in the half, data; the task and index of the writer's instruction; and the positions of
poisoned bytes (R190). -/
structure Txn where
  writer : Nat
  aow : Nat
  route : Option Nat
  tcore : Nat
  handle : Nat
  half : Nat
  off : Nat
  data : Bytes
  task : Nat
  pc : Nat
  bad : List Nat := []
  deriving DecidableEq, Repr

/-- A tag update (R142): state, generation mode and value, and where it goes and comes from. -/
structure TagUpd where
  writer : Nat
  route : Option Nat
  tcore : Nat
  handle : Nat
  half : Nat
  full : Bool
  gmode : Nat
  gen : Nat
  task : Nat
  pc : Nat
  deriving DecidableEq, Repr

/-- A SETTAG whose release has not left the core (R93): its task, its own handle index, the update it will send, and what still holds a write
the task made earlier through that handle, or for an EMPTY a read (R146): 0 nothing, 1 the DRAIN that waits for credit, 2 the instruction in the waiting place of the vector
unit, 3 a read of an instruction in a waiting place. -/
structure Release where
  task : Nat
  handle : Nat
  upd : TagUpd
  behind : Nat := 0
  deriving DecidableEq, Repr

/-- An instruction in a waiting place of the vector or the array unit (R69), with the registers it was issued with. -/
structure VecJob where
  task : Nat
  pc : Nat
  ins : IWord
  regs : Task
  deriving DecidableEq, Repr

/-- A DONE that waits for its task's earlier writes (R210), and whether the answer to it is to be discarded (R104). -/
structure DoneWait where
  task : Nat
  wc : Nat
  idx : Nat
  gen : Nat
  void : Bool := false
  deriving DecidableEq, Repr

/-- A zero-fill in progress (R154): the slot, the generation it takes when the fill ends, and the tag updates that have reached the slot meanwhile,
in the order they came. -/
structure ZFill where
  slot : Nat
  gen : Nat
  queued : List TagUpd := []
  deriving DecidableEq, Repr

/-- A matrix core: task contexts, accumulator memory (R49: slot * 4096 + row * 64 + column), program store (R67), curve entries
(R56: table * 256 + entry), MAC counter (R66), releases, transactions of a DRAIN that wait for credit with that DRAIN's task and pc
(R148), the waiting vector instruction, the array instructions that wait for it (R39, R70), waiting DONEs, ECC marks of its memories (R64: accumulator i,
0x10000 + 4 * instruction + word, 0x20000 + curve entry, 0x40000 + 64 * column + word of the array's weight registers, 0x100000 + 64 * (132 * bank + physical row) + word of
a scratchpad row that holds no logical row; 1 single-bit, 2 double-bit), the work
counters owed a freeze message and the close messages owed (R486), banks waking, banks that wait to power down with their outstanding-write counts (R155), zero-fills and
scrub rows. -/
structure Core where
  tasks : Tab Task := []
  acc : Tab Word := []
  prog : Tab IWord := []
  curve : Tab Word := []
  mac : Nat := 0
  releases : List Release := []
  drainQ : List Txn := []
  vecNext : Option VecJob := none
  arrQ : List VecJob := []
  doneQ : List DoneWait := []
  ecc : Tab Nat := []
  freezeOwed : List Nat := []
  closeOwed : Bool := false
  waking : List Nat := []
  pgWait : Tab Nat := []
  owed : Tab Nat := []
  zfills : List ZFill := []
  scrubRow : Tab Nat := []
  deriving DecidableEq, Repr

/-- A pointer of a stream unit (R165): base and strides. -/
structure Ptr where
  base : Nat := 0
  str : Tab Int := []
  deriving DecidableEq, Repr

/-- Where one byte of a stream unit's write comes from: a source byte, or byte `b` of channel `ch` of the gathered pixel (R178). -/
inductive Source where
  | byte (addr : Nat)
  | sample (x y ch b : Nat)
  deriving DecidableEq, Repr

/-- Where a stream unit writes: a device address, a half of a route's handle (R167), or the window half of a ring member, into which it fetches a STREAMED slice (R216). -/
inductive Dest where
  | plain
  | route (r half : Nat)
  | ring (core handle half : Nat)
  deriving DecidableEq, Repr

/-- A destination transaction whose data is not complete (R172): its address or offset, the source of each byte, and whether a request has opened it. -/
structure TxnPlan where
  off : Nat
  srcs : List Source
  opened : Bool := false
  deriving DecidableEq, Repr

/-- One line of the stripe cache (R218): its granule, the way it lies in, its bytes, and the ECC marks of its 32 words (1 single-bit, 2 double-bit). -/
structure ScLine where
  granule : Nat
  way : Nat
  data : Bytes
  ecc : Tab Nat := []
  deriving DecidableEq, Repr

/-- A request (R172): source address and length within one granule, the watch port read, the deadline it carries; once issued, whether it
holds a read tag, whether LPDDR6 has served it with which bytes, and the line it brings to the stripe cache (R218). -/
structure Req where
  addr : Nat
  len : Nat
  wp : Option Nat
  deadline : Nat := 0
  tag : Bool := false
  served : Bool := true
  data : Option Bytes := none
  line : Option ScLine := none
  deriving DecidableEq, Repr

/-- A GATHER with the addresses and registers it was issued with (R178). -/
structure GatherArgs where
  ins : IWord
  xs : Nat
  xv : Nat
  ny : Nat
  fw : Nat
  fh : Nat
  fpitch : Nat
  deriving DecidableEq, Repr

/-- A MOVE, MOVET or GATHER in progress: its instruction index, destination, accumulate kind, the generation a watch-port read names,
requests not yet issued, requests outstanding, transactions not yet written, source bytes received and poisoned; and for GATHER what
it was issued with, and whether its vector field is still being read. -/
structure Transfer where
  pc : Nat
  dest : Dest
  aow : Nat
  gchk : Option Nat
  toIssue : List Req
  flying : List Req
  txns : List TxnPlan
  got : List (Nat × Bytes) := []
  bad : List Nat := []
  gather : Option GatherArgs := none
  vectors : Bool := false
  deriving DecidableEq, Repr

/-- A release of a stream unit that waits (R173): port, route or watch port, half, update, and the transfers before it. -/
structure SuRelease where
  port : Nat
  watch : Bool
  upd : TagUpd
  deriving DecidableEq, Repr

/-- Work of a stream unit in program order. -/
inductive SuItem where
  | xfer (t : Transfer)
  | rel (r : SuRelease)
  deriving DecidableEq, Repr

/-- A stream unit (R165): pointers, N, LC, active loops, geometry, program store, byte counter, token bucket in 1/64,000 token with the time
it was brought up to (R183), the Beacon queues it has written to and not seen acknowledged (R171), shadow descriptor (R174), work in order, a FENCE waiting, a CREDIT_STALL raised in this episode (R180), whether a drain after END
is over that the result engine has not taken up (R402), and how many launches of earlier runs it has still to end (R19). -/
structure Su where
  x : Tab Ptr := []
  n : Tab Word := []
  lc : Tab LoopReg := []
  nest : List Nat := []
  iter : Tab Nat := []
  fw : Nat := 0
  fh : Nat := 0
  fpitch : Word := 0
  ppitch : Word := 0
  prog : Tab IWord := []
  bytes : Nat := 0
  bucket : Nat := 0
  bucketAt : Nat := 0
  acks : List (Nat × Nat) := []
  shadow : Option Launch := none
  work : List SuItem := []
  fence : Bool := false
  stalled : Bool := false
  ended : Bool := false
  stale : Nat := 0
  deriving DecidableEq, Repr

/-- A lease of a work counter (R208). State: 0 HELD, 1 EXPIRED_LIVE, 2 EXPIRED_FROZEN. -/
structure Lease where
  core : Nat
  task : Nat
  idx : Nat
  gen : Nat
  state : Nat
  reported : Bool := false
  deriving DecidableEq, Repr

/-- A work counter (R207 to R212): leases, reissue queue oldest first with the generation whose close it waits for, queued arm,
waiting TAKEs, cores answered in CLOSING, and whether the stripe is the one tile of an empty arm. -/
structure Wc where
  leases : List Lease := []
  reissue : List (Nat × Option Nat) := []
  queuedArm : Option Nat := none
  waiting : List (Nat × Nat) := []
  answered : List Nat := []
  emptyArm : Bool := false
  deriving DecidableEq, Repr

/-- An entry of an LPDDR6 channel queue (R186); `again`: a write that has still to read its granule, in a slot of its own (R191). -/
structure DdrEntry where
  master : Nat
  granule : Nat
  deadline : Nat
  critical : Bool := false
  again : Bool := false
  deriving DecidableEq, Repr

/-- An LPDDR6 channel (R186): read queue, write queue, reads and writes that find their queue full and wait for a place (R185), write-drain mode, open row of each bank, the master
served last (R185), the next granule of the patrol scrub and the time of the last corrected-error event (R189). -/
structure Ddr where
  reads : List DdrEntry := []
  writes : List DdrEntry := []
  waitReads : List DdrEntry := []
  waitWrites : List DdrEntry := []
  draining : Bool := false
  openRow : Tab Nat := []
  lastMaster : Nat := 511
  scrubAt : Nat := 0
  ceAt : Option Nat := none
  deriving DecidableEq, Repr

/-- A boundary engine job (R124, R202): pipeline, first or last layer, stripe, output frame, base of its input frame, deadline, launch
word, first row, next row and the row after its last; and the input rows it holds, each with the codes of its elements (R125). -/
structure BeJob where
  pipe : Nat
  last : Bool
  stripe : Nat
  frame : Nat
  src : Nat
  deadline : Nat
  word : Word
  first : Nat
  next : Nat
  stop : Nat
  window : List (Nat × List Nat) := []
  deriving DecidableEq, Repr

/-- A boundary engine (R123 to R131): queued jobs, the job it holds, the output row in progress, its state, whether it is released and returns to its sets at the next PIPE
boundary (R371), a double-bit error in its memories, and its curve tables (table * 256 + entry). -/
structure Be where
  queue : List BeJob := []
  job : Option BeJob := none
  row : Option Bytes := none
  stopped : Bool := false
  resting : Bool := false
  retired : Bool := false
  ded : Bool := false
  curves : Tab Curve := []
  curve : Tab Word := []
  deriving DecidableEq, Repr

/-- An input frame that has completed (R399): its buffer, its completion time and the stream's FRAMES after it. -/
structure InFrame where
  buf : Nat
  time : Nat
  count : Nat
  deriving DecidableEq, Repr

/-- What a latch point fixed for one output frame (R28, R30, R206, R484): whether there is an input frame, REPEAT, PHASE, its base address
and that of the older latched frame, and the newest input frame. For an analysis run `frame` counts its runs. -/
structure Latch where
  frame : Nat
  live : Bool := false
  rep : Bool := false
  phase : Nat := 0
  newer : Nat := 0
  older : Nat := 0
  src : InFrame := ⟨0, 0, 0⟩
  deadline : Nat := 0
  deriving DecidableEq, Repr

/-- The sequencer's state of a pipeline (R202 to R206): its latches newest first, those whose chain commands are not begun oldest first,
the frame in progress with its next stripe, Q, FRAMES at the last latch, the frames launched with REPEAT = 0 (R303), whether it has to wait for a stripe 0 (R372), whether a frame's job is being counted (R355), and whether its lines come from the guard path (R181, R205):
0 no, 1 a chain command has overrun, 2 it has been halted and no chain command has been issued since. -/
structure Pipe where
  latches : List Latch := []
  todo : List Latch := []
  cur : Option Latch := none
  stripe : Nat := 0
  q : Nat := 0
  lastCount : Option Nat := none
  fresh : List Nat := []
  wait0 : Bool := false
  job : Bool := false
  guarded : Nat := 0
  deriving DecidableEq, Repr

/-- An input stream (R396 to R401): completed frames newest first (at most two), the host copy in progress with its descriptor, whether that copy counts toward COAL_CNT,
buffers being sent to the twin, buffers of analysis runs in progress with their pipelines, fallback, mirrored frames that wait for their hold time with their completion times, and the buffer of
the host copy in progress with the address and index of its descriptor's entry; the buffer that an input port or port T is writing a frame into (15: none). -/
structure Stream where
  done : List InFrame := []
  desc : Option Bytes := none
  aborted : Bool := false
  sending : List Nat := []
  runs : List (Nat × Nat) := []
  fallback : Bool := false
  held : List (Nat × Nat) := []
  copyBuf : Nat := 15
  descAt : Nat := 0
  descIdx : Nat := 0
  capBuf : Nat := 15
  deriving DecidableEq, Repr

/-- A pending flip (R289). -/
structure Flip where
  addr : Nat
  pitch : Nat
  fenceAddr : Nat
  fenceEn : Bool
  fenceVal : Nat
  seq : Nat
  deriving DecidableEq, Repr

/-- A line or source row that a line buffer of the display block holds (R261, R286). -/
structure HeldLine where
  line : Nat
  data : Bytes
  bad : Bool
  deriving DecidableEq, Repr

/-- What the composer takes for a line of a layer. -/
inductive Take where
  | none
  | neural
  | guardLine (data : Bytes)
  | row (data : Bytes)
  deriving DecidableEq, Repr

/-- A layer slot (R276 to R292) with its guard path and line buffers: pitch of the front buffer, pending flip, its fence read (0 none, 1
outstanding, 2 met, 3 not met), whether it took a flip at the last decision; the held source rows, the next to fetch and whether its reads have been asked for; the guard
path's frame, latch, next line and held lines; the frame it is switched off in, and whether its underrun or miss was reported; the lines
decided and not yet composed; the line slots of its enhanced buffer (slot: 0 free, else 1 + frame mod 256 + 256 * line). -/
structure Layer where
  frontPitch : Nat := 0
  pend : Option Flip := none
  fence : Nat := 0
  took : Bool := false
  rows : List HeldLine := []
  nextRow : Nat := 0
  asked : Bool := false
  rowsFor : Nat := 0
  guardFor : Option Latch := none
  guardNext : Nat := 0
  glines : List HeldLine := []
  off : Option Nat := none
  takes : List (Nat × Take) := []
  slots : Tab Nat := []
  deriving DecidableEq, Repr

/-- A short or long frame to come (R253): lines added to the blanking, the slew after it in 1/16 pixel, and which of the two it is. -/
structure Jump where
  lines : Int
  rest : Int
  long : Bool
  deriving DecidableEq, Repr

/-- A frame of write-back (R293): buffer, number of the frame once it has ended, address and bytes of the buffer and its pitch as they stood when it was chosen, and whether every line of
it was written (R294). -/
structure WbFrame where
  buf : Nat
  frame : Nat := 0
  base : Nat
  size : Nat
  pitch : Nat
  whole : Bool := true
  deriving DecidableEq, Repr

/-- An output (R245 to R267, R293, R294, R301, R302): how often OUT_FRAME has wrapped, so that frames are counted without bound (R25); the blanking line in progress, lines of that blanking and of the next, HTOTAL and PCLK_KHZ of that blanking (R247), time of its last boundary,
whether the right half waits for line 0 (R259); frame and next line to be decided; genlock: lines of a jump and its state, the slew left in 1/16 pixel, edges in HOLDOVER, whether GL_REF_RANGE
was raised; frame being written back, and frames whose last writes are under way; line CRCs sent and of the present frame, matching frames, whether a line differed; running
signatures, regions whose mismatch was reported, regions to report again after an APPLY, frames of SIG and regions with a latched SIG_FRAME; the pixels sent for the last line, the lines composed in self-refresh and whether they are being sent (R267); START asked; training in progress; DSC and scrambling of the trained link (R319). -/
structure OutSt where
  wraps : Nat := 0
  blankHt : Nat := 0
  blankKhz : Nat := 0
  waitHalf : Bool := false
  inBlank : Option Nat := none
  blank : Nat := 0
  announced : Nat := 0
  at_ : Nat := 0
  decFrame : Nat := 0
  decided : Nat := 0
  waitLock : Bool := false
  jump : Option Jump := none
  jumpSeen : Nat := 0
  slew : Int := 0
  edges : Nat := 0
  rangeTold : Bool := false
  wb : Option WbFrame := none
  wbWait : List WbFrame := []
  sentCrc : Tab Word := []
  nowCrc : Tab Word := []
  same : Nat := 0
  differed : Bool := false
  sigs : Tab Word := []
  told : List Nat := []
  cleared : List Nat := []
  sigFrame : Tab Nat := []
  sigHeld : List Nat := []
  sent : List Word := []
  late : Tab (List Word) := []
  resend : Bool := false
  startAsked : Bool := false
  training : Bool := false
  dsc : Bool := false
  scrambled : Bool := false
  retry : Bool := false
  deriving DecidableEq, Repr

/-- A write that waits to land in the Lantern store (R298, R299): offset, data and its poisoned bytes (R190), whether a copy made it, and whether an APPLY waits for it (R300). -/
structure LanWrite where
  off : Nat
  data : Bytes
  bad : List Nat := []
  copied : Bool := false
  before : Bool := false
  deriving DecidableEq, Repr

/-- The Lantern layer (R295 to R300): values in force of the staged fields, the nonce drawn, the AUTH bytes being verified, store writes that wait, the staged values
that an APPLY took and the outputs it still waits for, the copy in progress (source, store offset, length), and whether its source has been read. -/
structure Lantern where
  live : Tab Nat := []
  nonce : Option Bytes := none
  auth : Option Bytes := none
  queue : List LanWrite := []
  staged : Tab Nat := []
  applyFor : List Nat := []
  copy : Option (Nat × Nat × Nat) := none
  copyRead : Bool := false
  deriving DecidableEq, Repr

/-- AUXP (R268 to R271): the fields in force, band CRCs at their last push and of the last read, bands to push, periods since the last full push, whether
a read has ended and waits for TE, periods since then; the start of the frame in progress, the next row it scans, whether it shows BG for the rest of the frame, and the pixels it has sent
last: a row, or the bands of a push. -/
structure Auxp where
  live : Tab Nat := []
  crcs : Tab Word := []
  bands : List Nat := []
  periods : Nat := 0
  pending : Tab Word := []
  waiting : Bool := false
  noTe : Nat := 0
  start : Nat := 0
  row : Nat := 0
  off : Bool := false
  sent : List Word := []
  deriving DecidableEq, Repr

/-- An event record (R362) in Keeper's hands. -/
structure EventRec where
  code : Nat
  froze : Bool
  retired : Bool
  gap : Bool
  sev : Nat
  seq : Nat
  time : Nat
  kind : Nat
  index : Nat
  frame : Nat
  arg0 : Nat
  arg1 : Nat
  arg2 : Nat
  deriving DecidableEq, Repr

/-- The ends of a message of the device ring (R24). -/
inductive Node where
  | core (c : Nat)
  | su (u : Nat)
  | be (e : Nat)
  | wc (n w : Nat)
  | seq
  | ring (n : Nat)
  | beacon (p : Nat)
  | none
  deriving DecidableEq, Repr

/-- What a message carries. `unused` reports the unused credits of a removed route to the banks it led into (R150, R155). -/
inductive Body where
  | write (t : Txn)
  | tag (t : TagUpd)
  | credit (route n : Nat)
  | take (task : Nat)
  | done (task idx gen : Nat)
  | takeResp (task : Nat) (idx gen : Word)
  | doneResp (task : Nat) (a b : Word)
  | launch (task : Nat) (l : Launch)
  | arm (rows : Nat)
  | unused (banks : List Nat) (n : Nat)
  | freeze
  | close
  deriving DecidableEq, Repr

/-- A message in flight. Messages of one source and destination keep their order (R24). -/
structure Msg where
  src : Node
  dst : Node
  body : Body
  deriving DecidableEq, Repr

/-- Keeper's event store (R365), log (R366), records waiting for flash, the GAP mark owed, and the freezing records with their place in the ring once delivered (R371). -/
structure Events where
  store : List EventRec := []
  ram : List EventRec := []
  unsaved : List EventRec := []
  gapOwed : Bool := false
  froze : List (EventRec × Option Nat) := []
  deriving DecidableEq, Repr

/-- The wear ledger (R433 to R442), zones keyed output * 2304 + zone: sums of luminance of the frame in progress, on-chip counters, ledger
entries, gains keyed (output * 2 + copy) * 4096 + zone, outputs whose other copy is ready; curves of tiles keyed output * 64 + tile; reads
outstanding, zones reset since the last fold, zones warned of, tiles in an unreadable episode. -/
structure Wear where
  sums : Tab Nat := []
  counters : Tab Nat := []
  ledger : Tab Nat := []
  gains : Tab Nat := []
  ready : List Nat := []
  curves : Tab (List Nat) := []
  reading : List Nat := []
  wiped : List Nat := []
  warned : List Nat := []
  unread : List Nat := []
  deriving DecidableEq, Repr

/-- Corrections counted for a memory row (R379, R380): class and location without the spare, time of the first, how many, and whether a word
was uncorrectable. -/
structure CorrRow where
  cls : Nat
  loc : Nat
  first : Nat
  count : Nat
  ue : Bool
  deriving DecidableEq, Repr

/-- An entry of the repair table in use (R163): class, origin (true: field), LOCATION, and the operating hours at map-out. -/
structure RepairEntry where
  cls : Nat
  field : Bool
  loc : Nat
  stamp : Nat
  deriving DecidableEq, Repr

/-- A message of the Beacon link as a port sends it (R313): port first. -/
inductive BcnMsg where
  | heartbeat (p : Nat) (h : Heartbeat)
  | token (p : Nat) (t : FrameToken)
  | slot (p q : Nat) (s : SeamSlot)
  | slotCredit (p q : Nat)
  | announce (p q n : Nat)
  | epoch (p fe : Nat)
  | mirror (s buf : Nat)
  | keeper (m : KeeperMsg)
  deriving DecidableEq, Repr

/-- A TX queue of a Beacon port (R332, R333): transactions of the present slot that a request has opened, those formed with their data, the deadlines
of the requests that opened slots, the slot index, whether the present wait for a slot credit was counted, and when the port has the acknowledgement of what it sent last (R171);
slots that a relay forwards and that wait for a slot credit (R336). -/
structure SeamTx where
  opened : Nat := 0
  txns : List (Nat × Bytes × List Nat) := []
  deadlines : List Nat := []
  k : Nat := 0
  counted : Bool := false
  ackAt : Nat := 0
  relays : List SeamSlot := []
  deriving DecidableEq, Repr

/-- A receive binding (R334): staged slots, the transactions of slot NEXT_K that still wait for route credit, and the slots that the twin's relay brought (R336). -/
structure SeamRx where
  slots : List SeamSlot := []
  out : Option (List (Nat × Bytes × List Nat)) := none
  viaT : List Nat := []
  deriving DecidableEq, Repr

/-- The Beacon link and the twin (R311 to R338): last heartbeat of each port, consecutive beats of a partner that is not present, ports whose partner is
present; when the device entered WAIT; the claim and its time; whether heartbeats mark a handover, and whether they show the device's claim; loss of health; whether a side
conflict or mismatch was reported; what the owner has sent, and whether it is applied; whether tokens are sent; edges that tokens have given (port, frame, time, the master's time); by output: consecutive frames from
TOK_ALT, use of TOK_ALT, 1 + the frame of the last edge taken; by port: the last token's frame and how many came in sequence; whether the time base has stepped, the difference it still has to make up and the nanoseconds since it last did (R331); the F_e held; whether the next
line start ends ownership (R322); the slot credits each TX queue starts with (R333). -/
structure Beacon where
  heard : Tab (Option Heartbeat) := []
  beats : Tab Nat := []
  present : List Nat := []
  waitFrom : Nat := 0
  claim : Option Nat := none
  marking : Bool := false
  sick : Bool := false
  sideTold : Bool := false
  mismatchTold : Bool := false
  ownerVals : Option (List (Nat × Nat)) := none
  valsApplied : Bool := false
  ownerImage : Option (Bytes × Nat × Nat) := none
  tokenOn : Bool := false
  edges : List (Nat × Nat × Nat × Nat) := []
  altRun : Tab Nat := []
  useAlt : List Nat := []
  lastEdge : Tab Nat := []
  tokRun : Tab (Nat × Nat) := []
  stepped : Bool := false
  drift : Int := 0
  driftNs : Nat := 0
  fe : Option Nat := none
  handOff : Bool := false
  startCred : Tab Nat := []
  deriving DecidableEq, Repr

/-- An image command in progress, or a cut-over (R231 to R234, R243, R377). Kind: 0 none, 1 INSTALL, 2 VALIDATE, 3 from the flash slot, 4 change of plan. Step: 0
before b0, 1 members going idle, 2 step 3 of the cut-over, 3 waiting for b1. `ks`: lost cores whose spare variants the chosen plan takes. -/
structure Install where
  kind : Nat := 0
  step : Nat := 0
  addr : Nat := 0
  len : Nat := 0
  digest : Bytes := []
  rep : ImgReport := {}
  plan : Nat := 0
  ks : List Nat := []
  degraded : Bool := false
  b0 : Nat := 0
  deriving DecidableEq, Repr

/-- The tables that an image gives to one output, or to the boundary engines (R230, R233, R281, R404). -/
structure ImgTables where
  formats : List (Nat × ColourEntry) := []
  hcoefs : List (Nat × List Int) := []
  vcoefs : List (Nat × List Int) := []
  curves : List CurveRec := []
  deriving DecidableEq, Repr

/-- Power and temperature (R341 to R357): energy history newest first (ms, mean mW), with the recorded samples of the present period, and whether a commit has changed the cap in it (R350); last good milliwatts and failures in a row of
each rail; limits each phase ran at in the period, 0 where not at one throughout (R347); model energy in fJ (R353): of the period by pipeline, core share and other
terms, and unattributed; since the last poll; of each pipeline's job in progress; at each rail's last good value (R342); energies of past jobs with their times (R355); sums and counts of the polls for P_BASE,
after boot and in a cut-over, and whether the first is over (R354); frame count at its start; operating point of each cluster; clusters whose clocks switch once the rail has settled; whether
the next PIPE boundary brings points and rail up to date (R345); sensors found not valid; whether THM_WARN was told; the trip latch. -/
structure Power where
  hist : List (Nat × Nat) := []
  sum : Nat := 0
  polls : Nat := 0
  capNew : Bool := false
  railMw : Tab Nat := []
  railFails : Tab Nat := []
  ran : Tab Nat := []
  frames : Nat := 0
  ops : Tab Nat := []
  switching : List (Nat × Nat) := []
  due : Bool := false
  badSensors : List Nat := []
  warned : Bool := false
  tripped : Bool := false
  coreFj : Tab Nat := []
  otherFj : Tab Nat := []
  unattrFj : Nat := 0
  pollFj : Nat := 0
  jobFj : Tab Nat := []
  railFj : Tab Nat := []
  jobs : Tab (List (Nat × Nat)) := []
  bootMw : Nat × Nat := (0, 0)
  cutMw : Nat × Nat := (0, 0)
  based : Bool := false
  deriving DecidableEq, Repr

/-- The owner record (R423): operator keys, sequence number, policy bits, Lantern key. -/
structure OwnerRec where
  rsa : Bytes
  slh : Bytes
  seq : Nat
  opsig : Bool
  store : Bool
  lkey : Option Bytes
  deriving DecidableEq, Repr

/-- A tile record of the wear ledger (R441): SERIAL, L50_HOURS, rectangle and address as the WEAR_TILEt registers hold them, STATE. -/
structure TileRec where
  serial : Nat
  l50 : Nat
  geom : Nat
  addr : Nat
  state : Nat
  deriving DecidableEq, Repr

/-- What a last-good record holds (R242, R441): SEQ, operating hours in 1/3,600 h, DIGEST, plan, modes, register pairs, wear entries with panel identities and tile records; whether it has a ledger (R442). -/
structure GoodRec where
  seq : Nat
  hours : Nat
  digest : Bytes
  plan : Nat
  modes : List Nat
  pairs : List (Nat × Nat)
  ledger : Tab Nat
  panels : List Nat
  tiles : List TileRec
  hasLedger : Bool := true
  deriving DecidableEq, Repr

/-- A boot record whose MAGIC and CRC-32 are right (R420). -/
structure BootRec where
  seq : Nat := 0
  active : Nat := 0
  trying : Bool := false
  count : Nat := 0
  deriving DecidableEq, Repr

/-- A copy of the health region (R416): repair table, retired units, AGE_COMP and OP_MAX, and the bad-slot list (last-good slots by number, copies of this region from 64 on, of the owner
record from 66 on). -/
structure HealthRec where
  seq : Nat := 0
  repair : List RepairEntry := []
  retired : List Nat := []
  ageComp : Nat := 0
  opMax : Nat := 7
  bad : List Nat := []
  deriving DecidableEq, Repr

/-- The flash (R416, R417): the two copies of the boot record, of the owner record and of the health region, each none where the copy is not valid; packages written to the slots since
manufacture; event log; the bytes of the last-good slots; image slot with its length. -/
structure Flash where
  boots : Tab (Option BootRec) := []
  slots : Tab (Option Bytes) := []
  owners : Tab (Option OwnerRec) := []
  health : Tab (Option HealthRec) := []
  log : List EventRec := []
  records : Tab Bytes := []
  image : Option Bytes := none
  deriving DecidableEq, Repr

/-- A mailbox command being carried out (R384, R385, R425): what it will answer, its error, its effect on the owner record, and the Lantern key it sets on a device without one. -/
structure Mail where
  resp : Bytes := []
  err : Nat := 0
  owner : Option OwnerRec := none
  lkey : Option Bytes := none
  event : Option Nat := none
  hostOut : List (Nat × Bytes) := []
  closeWin : Bool := false
  deriving DecidableEq, Repr

/-- The states of the test access port's controller (IEEE 1149.1, R460). -/
inductive Tap where
  | reset | idle
  | selectDr | captureDr | shiftDr | exit1Dr | pauseDr | exit2Dr | updateDr
  | selectIr | captureIr | shiftIr | exit1Ir | pauseIr | exit2Ir | updateIr
  deriving DecidableEq, Repr

/-- The test access port (R460): controller state, instruction as `Config.irCode` numbers it, the instruction and data shift registers (next bit out first), the boundary-scan register's output stage, TDO, and whether SYS_RESET_N was low at the last edge. -/
structure Jtag where
  st : Tap := .reset
  inst : Fin 6 := 1
  ir : List Bool := []
  dr : List Bool := []
  latch : List Bool := []
  tdo : Bool := false
  low : Bool := false
  deriving DecidableEq, Repr

/-- The host side (R386 to R403): advances of each ring not yet signalled, vectors messages were sent for, the result runs that a GAP is owed to, DESC index of records;
the answer of the last BAR2 read (none: Unsupported Request) with its poisoned bytes, and the reads of scratchpads (core, offset, length) that wait for a bank (R157); what the last register read with an effect answered; addresses of host memory that poisoned TLPs have written (R190); the configuration the host has set (R386); log2 of BAR2's size (R388, log 191); the address of a host window request that fails (R391); EDID hold-offs; geometry episodes. -/
structure HostSide where
  unsent : Tab Nat := []
  irqs : List Nat := []
  resGap : Bool := false
  answer : Option (Bytes × List Nat) := none
  reads : List (Nat × Nat × Nat) := []
  cfg : HostCfg := {}
  bar2Log2 : Nat := 28
  failing : Option Nat := none
  lastRead : Nat := 0
  bad : List Nat := []
  hpdLow : List Nat := []
  badGeom : List Nat := []
  deriving DecidableEq, Repr

/-- Boot and firmware (R413 to R430): package of the running firmware, the staged package, the slot the ROM checks, whether it is the second one tried at this
boot, whether the trial of the other slot is over (R420), the PIPE pairs that wait for the first image with its digest (R243), the bad-slot list (R417), TEST_EN; SEQ of the last-good record that was applied (R243); the Lantern key of an unowned
device (log 51); the write of the recovery buffer in progress (R422). -/
structure Boot where
  running : Bytes := []
  staged : Option Bytes := none
  slot : Nat := 0
  second : Bool := false
  fell : Bool := false
  pairs : Option (Bytes × List (Nat × Nat)) := none
  bad : List Nat := []
  testEn : Bool := false
  lgSeq : Option Nat := none
  lkey : Option Bytes := none
  prog : Option (Nat × Bytes) := none
  deriving DecidableEq, Repr

/-- The device. Tables list only what differs from their default. `guardKept`: from step 3 of a cut-over to b1, pipelines of the old plan with their latches, whose layers' guard paths
go on with them (R233). `spareFaults`: spares lost by a fault of the program (R374). -/
structure Dev where
  time : Nat := 0
  free : Nat := 0
  regs : Tab Nat := []
  live : Tab Nat := []
  shadow : Tab Nat := []
  mem : Tab Byte := []
  ecc : Tab Nat := []
  cores : Tab Core := []
  fabric : List Msg := []
  mcReturned : Tab Nat := []
  sus : Tab Su := []
  wcs : Tab Wc := []
  cache : Tab (List ScLine) := []
  scEventAt : Tab Nat := []
  ddr : Tab Ddr := []
  hostMem : Tab Byte := []
  bes : Tab Be := []
  lostBes : List Nat := []
  retired : List Nat := []
  healthDirty : Bool := false
  rings : List RingRec := []
  ringSent : Tab Nat := []
  beCredits : Tab Nat := []
  latched : Tab Nat := []
  reinitMarked : List Nat := []
  reinitRunning : List Nat := []
  reinitQuiet : List Nat := []
  reinitFrame : Tab Nat := []
  planSwitchWanted : Bool := false
  unclosed : List (Nat × Nat) := []
  lostCores : List Nat := []
  events : Events := {}
  limits : Tab Nat := []
  plan : Plan := {}
  tables : Tab ImgTables := []
  adopt : List Nat := []
  pipes : Tab Pipe := []
  guardKept : List (PipeRec × Pipe) := []
  launchQ : Tab (List Launch) := []
  seqRun : Bool := false
  streams : Tab Stream := []
  stopped : List Nat := []
  streamLatch : Tab (List (Nat × Option Nat)) := []
  layers : Tab Layer := []
  outs : Tab OutSt := []
  lantern : Lantern := {}
  auxp : Auxp := {}
  corrRows : List CorrRow := []
  repair : List RepairEntry := []
  hoursBase : Nat := 0
  padDed : Bool := false
  wear : Wear := {}
  selB : List Nat := []
  bcnSent : List BcnMsg := []
  seamTx : Tab SeamTx := []
  seamRx : Tab SeamRx := []
  beacon : Beacon := {}
  inst : Install := {}
  cut : Install := {}
  image : ImgReport := {}
  planNo : Nat := 0
  spareJobs : List (Nat × Nat) := []
  spareAt : Tab Nat := []
  spareFaults : List Nat := []
  parkedKeep : List Nat := []
  power : Power := {}
  flash : Flash := {}
  mail : Mail := {}
  jtag : Jtag := {}
  host : HostSide := {}
  boot : Boot := {}
  analysis : List AnalysisRec := []
  phases : List PhaseRec := []
  slack : Tab Int := []
  slackNow : Tab (Option Int) := []
  pipeFrame : Option Nat := none
  pipeCount : Nat := 0
  lateTold : List Nat := []
  dedAt : List (Nat × Nat) := []
  enhDue : Bool := false
  deriving DecidableEq, Repr

/-- The state: the waiting commands, first in first out, and the device. -/
structure State where
  pending : List Instr
  dev : Dev
  deriving DecidableEq, Repr

/-- How a step can end in a fault. -/
inductive Fault where
  /-- Raised by a command whose operand data breaks a check of WellFormed: no such event occurs on the device. Safe: the machine stops. -/
  | illFormed
  deriving DecidableEq, Repr

/-- How a step can be refused. -/
inductive Refusal where
  /-- Raised by an arm of exec that has no meaning yet. Safe: the machine stops. -/
  | notModelled (mnemonic : String)
  deriving DecidableEq, Repr

/-- The device right after a power-on reset: every register at its reset value, every memory unlisted. -/
def State.reset : State := { pending := [], dev := {} }

end Sys2Proof.Machine
end

