-- ==== Sys2Proof/Machine/Ops.lean ====
section
/-! DEFINITION. The named operations over registers, memory, events and messages that every meaning is written with. -/

namespace Sys2Proof.Machine

/-! ### Outcomes -/

/-- The clocks stand still: after a thermal trip, or while TEST_EN holds the device in reset (R358, R456). -/
def Dev.held (d : Dev) : Bool := d.power.tripped || d.boot.testEn

/-- A command's effect on the device; the queue is not touched, and nothing happens while the device is held. -/
def State.act (s : State) (f : Dev → Dev) : Host.Outcome State Fault Refusal :=
  .next { s with dev := if s.dev.held then s.dev else f s.dev }

/-- As `act`, for what reaches the device whether its clocks run or not: resets and the test access port. -/
def State.actAlways (s : State) (f : Dev → Dev) : Host.Outcome State Fault Refusal := .next { s with dev := f s.dev }

/-- As `act`, for a command whose operand data must be well formed. -/
def State.actIf (s : State) (ok : Bool) (f : Dev → Dev) : Host.Outcome State Fault Refusal :=
  if ok then s.act f else .fault .illFormed

/-! ### Flash records that a boot and a command choose from -/

/-- Of two copies the valid one with the highest sequence number, with its number (R417, R420, R423). -/
def newestCopy (seq : α → Nat) (t : Tab (Option α)) : Option (Nat × α) :=
  [0, 1].foldl (fun best k => match Tab.get none t k, best with
    | some r, some x => if seq x.2 < seq r then some (k, r) else some x
    | some r, none => some (k, r)
    | none, b => b) none

/-- The copy to write next: the one after that with the highest valid sequence number (R417, R420). -/
def nextCopy (seq : α → Nat) (t : Tab (Option α)) : Nat := ((newestCopy seq t).map (fun x => 1 - x.1)).getD 0

/-- The boot record in force (R420); a part with no valid copy boots slot A. -/
def Flash.boot (f : Flash) : BootRec := ((newestCopy BootRec.seq f.boots).map Prod.snd).getD {}

/-- A new boot record takes the place of the older copy (R420). -/
def Flash.putBoot (f : Flash) (active : Nat) (trying : Bool) (count : Nat) : Flash :=
  { f with boots := Tab.put none f.boots (nextCopy BootRec.seq f.boots) (some { seq := f.boot.seq + 1, active := active, trying := trying, count := count }) }

/-- The owner record: the valid copy with the highest OWNER_SEQ (R423). -/
def Flash.owner (f : Flash) : Option OwnerRec := (newestCopy OwnerRec.seq f.owners).map Prod.snd

/-- The Lantern key, if one is set: that of the owner record, or the one an unowned device has been given since its reset (R423, R425; log 51). -/
def Dev.lanternKey (d : Dev) : Option Bytes :=
  match d.flash.owner with
  | some o => o.lkey
  | none => d.boot.lkey

/-! ### Bits -/

/-- Bits [lo+w-1:lo] of a number. -/
def bits (x lo w : Nat) : Nat := x / 2 ^ lo % 2 ^ w

/-- A number as a two's complement value of `w` bits. -/
def toSigned (w x : Nat) : Int := if 2 ^ (w - 1) ≤ x % 2 ^ w then (x % 2 ^ w : Nat) - (2 ^ w : Nat) else (x % 2 ^ w : Nat)

/-- An integer cut to `w` bits. -/
def ofSigned (w : Nat) (i : Int) : Nat := (i % (2 ^ w : Nat)).toNat

/-- Little-endian value of a byte string (R6). -/
def leNat : Bytes → Nat
  | [] => 0
  | b :: bs => b.toNat + 256 * leNat bs

/-- `n` bytes of a value, little-endian (R6). -/
def leBytes : Nat → Nat → Bytes
  | 0, _ => []
  | n + 1, v => BitVec.ofNat 8 v :: leBytes n (v / 256)

/-- Removes the entry at a position. -/
def dropAt {α : Type} : List α → Nat → List α
  | [], _ => []
  | _ :: l, 0 => l
  | a :: l, n + 1 => a :: dropAt l n

/-- One byte into a CRC-32 register (IEEE 802.3, reflected). -/
def crcByte (c : BitVec 32) (b : Byte) : BitVec 32 :=
  (List.range 8).foldl (fun (c : BitVec 32) _ => if c.getLsbD 0 then (c >>> 1) ^^^ 0xEDB88320#32 else c >>> 1) (c ^^^ b.setWidth 32)

/-- CRC-32 continued over bytes from the CRC of what came before; the CRC of no bytes is 0 (R270, R301). -/
def crcAdd (c : BitVec 32) (bs : Bytes) : BitVec 32 := ~~~ (bs.foldl crcByte (~~~ c))

def crc32 (bs : Bytes) : BitVec 32 := crcAdd 0 bs

/-- `n / m` rounded to nearest, ties to even. -/
def rneInt (n : Int) (m : Nat) : Int :=
  let q := n / (m : Int)
  let r := (n % (m : Int)).toNat
  if m < 2 * r || (m = 2 * r && q % 2 ≠ 0) then q + 1 else q

/-! ### Rounding the manual leaves open (log 34) -/

/-- `n / m`, rounded up or down as the part does it. -/
def openDiv (n m : Nat) : Nat := n / m + (if n % m = 0 then 0 else if Config.roundsUp (n % m) m then 1 else 0)

/-- `n / m` rounded to nearest; a tie goes as the part does it. -/
def nearDiv (n m : Nat) : Nat :=
  n / m + (if 2 * (n % m) < m then 0 else if m < 2 * (n % m) then 1 else if Config.roundsUp (n % m) m then 1 else 0)

/-! ### Iteration -/

/-- `f` applied for each index below `n`, in ascending order. -/
def upTo {α : Type} (n : Nat) (f : Nat → α → α) (a : α) : α := (List.range n).foldl (fun acc i => f i acc) a

/-- The index that satisfies `p` with the least key; ties go to the lowest position. -/
def argMin (l : List Nat) (key : Nat → Int) : Option Nat :=
  l.foldl (fun best i => match best with
    | none => some i
    | some b => if key i < key b then some i else some b) none

/-! ### Registers (R7, R8) -/

/-- The value in force of a register field. -/
def Dev.rd (d : Dev) (f : Fld) : Nat := if f.rws then Tab.get f.reset d.live f.key else Tab.get f.reset d.regs f.key

/-- The device writes a register field; the value wraps at the field's width. -/
def Dev.wr (d : Dev) (f : Fld) (v : Nat) : Dev :=
  { d with live := if f.rws then Tab.put f.reset d.live f.key (trunc f.width v) else d.live,
           regs := if f.rws then d.regs else Tab.put f.reset d.regs f.key (trunc f.width v) }

/-- As `wr`, when the condition holds. -/
def Dev.wrIf (d : Dev) (b : Bool) (f : Fld) (v : Nat) : Dev :=
  { d with live := if b then (d.wr f v).live else d.live, regs := if b then (d.wr f v).regs else d.regs }

/-- The shadow copy of an RWS field (R8). -/
def Dev.rdS (d : Dev) (f : Fld) : Nat := if f.rws then Tab.get f.reset d.shadow f.key else d.rd f

/-- Writes the shadow copy of an RWS field. -/
def Dev.wrS (d : Dev) (f : Fld) (v : Nat) : Dev :=
  { d with shadow := if f.rws then Tab.put f.reset d.shadow f.key (trunc f.width v) else d.shadow,
           regs := if f.rws then d.regs else (d.wr f v).regs }

/-- Keeper writes an RWS field: both copies take the value. -/
def Dev.wrB (d : Dev) (f : Fld) (v : Nat) : Dev := (d.wrS f v).wr f v

/-- A one-bit field. -/
def Dev.bit (d : Dev) (f : Fld) : Bool := d.rd f != 0

/-- Sets a one-bit field. -/
def Dev.set (d : Dev) (f : Fld) (b : Bool) : Dev := d.wr f (if b then 1 else 0)

/-- Adds to a counter that wraps at its width. -/
def Dev.inc (d : Dev) (f : Fld) (n : Nat := 1) : Dev := d.wr f (d.rd f + n)

/-- Adds to a counter that saturates at its width. -/
def Dev.incSat (d : Dev) (f : Fld) (n : Nat := 1) : Dev := d.wr f (min (d.rd f + n) (2 ^ f.width - 1))

/-- One bit of a field. -/
def Dev.bitAt (d : Dev) (f : Fld) (i : Nat) : Bool := (d.rd f).testBit i

/-! ### Time -/

/-- A mask of the indices below `n` that satisfy `p`. -/
def maskOf (n : Nat) (p : Nat → Bool) : Nat := ((List.range n).filter p).foldl (fun m i => m + 2 ^ i) 0

/-- One nanosecond of the device time base (R32, R480). A time base that follows a master makes up its difference at 100 ppm: one nanosecond in 10,000 (R331). -/
def Dev.passNs (d : Dev) : Dev :=
  let b := d.beacon
  if b.drift = 0 then { d with time := (d.time + 1) % 2 ^ 64 }
  else if b.driftNs < 9999 then { d with time := (d.time + 1) % 2 ^ 64, beacon := { b with driftNs := b.driftNs + 1 } }
  else if 0 < b.drift then { d with time := (d.time + 2) % 2 ^ 64, beacon := { b with drift := b.drift - 1, driftNs := 0 } }
  else { d with beacon := { b with drift := b.drift + 1, driftNs := 0 } }

/-- Level of GPIO pin `i`: what the device drives, or what stands at the pin (R458). -/
def Dev.gpioPin (d : Dev) (i : Nat) : Bool :=
  if d.bitAt (Reg.TOP_GPIO_DIR.at []) i then d.bitAt (Reg.TOP_GPIO_OUT.at []) i else Config.gpioLevel i d.time

/-- A tick of the time base: GPIO_IN samples the pins every 1 µs (R458). -/
def Dev.tick (d : Dev) : Dev :=
  let e := d.passNs
  if e.time / 1000 = d.time / 1000 then e else e.wr (Reg.TOP_GPIO_IN.at []) (maskOf 16 e.gpioPin)

/-- Sets one bit of a field. -/
def Dev.setBit (d : Dev) (f : Fld) (i : Nat) (b : Bool) : Dev :=
  let v := d.rd f
  d.wr f (if b then v ||| 2 ^ i else v - (if v.testBit i then 2 ^ i else 0))

/-! ### Free values (log 4) -/

/-- The next free value, of `w` bits. -/
def Dev.freeVal (d : Dev) (w : Nat) : Nat := trunc w (Config.freeBits d.free)

/-- SEC_BOOT_STATE reads RUNNING: host accesses reach every block (R421). -/
def Dev.hostOpen (d : Dev) : Bool := d.rd (Reg.SEC_BOOT_STATE.at []) = 3

/-- A host access to a block other than TOP, KPR, HST and SEC, which is ignored before RUNNING (R421). -/
def State.actHost (s : State) (f : Dev → Dev) : Host.Outcome State Fault Refusal :=
  s.act (fun d => if d.hostOpen then f d else d)

/-- A host read of such a block: before RUNNING it answers 0 and has no effect (R421). -/
def State.readHost (s : State) (f : Dev → Dev) : Host.Outcome State Fault Refusal :=
  s.act (fun d => if d.hostOpen then f d else { d with host := { d.host with lastRead := 0 } })

/-- Uses up `n` free values. -/
def Dev.useFree (d : Dev) (n : Nat := 1) : Dev := { d with free := d.free + n }

/-- Writes a value the manual does not state into a field. -/
def Dev.wrFree (d : Dev) (f : Fld) : Dev := (d.wr f (d.freeVal f.width)).useFree

/-! ### Memory (R33) -/

/-- The canonical form of memory: addresses strictly rising, and no entry equal to what an unlisted address reads as. -/
abbrev Memory.wf (m : Tab Byte) : Bool := Tab.wf 0 m

/-- One byte of the device address space; what nothing has written reads 0 (log 7). -/
def Dev.byte (d : Dev) (a : Nat) : Byte := Tab.get 0 d.mem a

/-- `n` bytes from an address on. -/
def Dev.bytes (d : Dev) (a n : Nat) : Bytes := Tab.getList 0 d.mem a n

/-- Stores one byte. -/
def Dev.setByte (d : Dev) (a : Nat) (b : Byte) : Dev := { d with mem := Tab.put 0 d.mem a b }

/-- Stores bytes from an address on. -/
def Dev.setBytes (d : Dev) (a : Nat) (bs : Bytes) : Dev := { d with mem := Tab.putList 0 d.mem a bs }

/-- Little-endian value of `n` bytes from an address on. -/
def Dev.readLe (d : Dev) (a n : Nat) : Nat := leNat (d.bytes a n)

/-- Device address of byte `off` of the scratchpad of core `c` (R33). -/
def spAddr (c off : Nat) : Nat := 0x004000000000 + c * 0x400000 + off

/-! ### Units -/

/-- Register index of core `c` (R32). -/
def cix (c : Nat) (more : List Nat := []) : List Nat := [c / 9, c % 9] ++ more

/-- Register index of stream unit `16 n + u` (R32). -/
def six (k : Nat) (more : List Nat := []) : List Nat := [k / 16, k % 16] ++ more

/-- Forgets that the last read met a double-bit error in a scratchpad. -/
def Dev.padOk (d : Dev) : Dev := { d with padDed := false }

/-- A core. -/
def Dev.core (d : Dev) (c : Nat) : Core := Tab.get {} d.cores c

/-- Changes a core. -/
def Dev.onCore (d : Dev) (c : Nat) (f : Core → Core) : Dev := { d with cores := Tab.modify {} d.cores c f }

/-- A task context. -/
def Dev.task (d : Dev) (c t : Nat) : Task := Tab.get {} (d.core c).tasks t

/-- Changes a task context. -/
def Dev.onTask (d : Dev) (c t : Nat) (f : Task → Task) : Dev :=
  d.onCore c (fun k => { k with tasks := Tab.modify {} k.tasks t f })

/-! ### Messages (R24) -/

/-- Puts a message in flight. -/
def Dev.send (d : Dev) (src dst : Node) (b : Body) : Dev := { d with fabric := d.fabric ++ [⟨src, dst, b⟩] }

/-- A report of unused credits, which power-gating alone takes in (R150, R155). -/
def Body.isReport : Body → Bool
  | .unused _ _ => true
  | _ => false

/-- The message at position `i`, when no earlier message has its source and destination (R24; which of the others arrives first: log 159). A report of unused credits (R150)
has nothing behind it: it holds no later message back. -/
def Dev.arriving (d : Dev) (i : Nat) : Option Msg :=
  match d.fabric[i]? with
  | none => none
  | some m => if (d.fabric.take i).any (fun e => e.src = m.src && e.dst = m.dst && !e.body.isReport) then none else some m

/-- Takes the message at position `i` out of flight. -/
def Dev.taken (d : Dev) (i : Nat) : Dev := { d with fabric := dropAt d.fabric i }

/-! ### Events (R362 to R366) -/

/-- Events of severity CRITICAL that carry no FROZE or RETIRED mark of their own (R364). -/
def criticalCodes : List Nat := [0x0720, 0x0723, 0x0724, 0x0731, 0x0109, 0x0160, 0x0173, 0x090D, 0x0510, 0x0511, 0x0614]

/-- Events of severity ERROR (R364). -/
def errorCodes : List Nat :=
  [0x0401, 0x0320, 0x0211, 0x0152, 0x0151, 0x0210, 0x090C, 0x0722, 0x0726, 0x0728, 0x0734, 0x0740, 0x0901, 0x0904, 0x0803,
   0x0811]

/-- Events of severity WARNING (R364). -/
def warningCodes : List Nat := [0x0730, 0x0721, 0x0725, 0x0727, 0x0733, 0x0150, 0x0540, 0x0530]

/-- Severity of an event (R364). -/
def severity (code : Nat) (froze retired : Bool) : Nat :=
  if froze || retired || criticalCodes.contains code then 3
  else if errorCodes.contains code then 2
  else if warningCodes.contains code || (code / 256 = 6 && code != 0x0605) then 1
  else 0

/-- Events of double-bit and uncorrectable errors (R383 MEM_UE). -/
def memUeCodes : List Nat := [0x0720, 0x0723, 0x0724, 0x0731, 0x0109]

/-- Events Keeper persists whatever their severity (R366). -/
def persistCodes : List Nat := [0x0170, 0x0721, 0x0725, 0x0727, 0x0732, 0x0733]

/-- Drops the oldest record of the lowest severity present (R365). -/
def dropLowest (l : List EventRec) : List EventRec :=
  let low := l.foldl (fun m r => min m r.sev) 4
  match l.findIdx? (fun r => r.sev = low) with
  | none => l
  | some i => dropAt l i

/-- Raises an event (R362 to R366): SOURCE is `kind` and `index`, the arguments fill ARG0 to ARG2 in order. -/
def Dev.raise (d : Dev) (code kind index : Nat) (args : List Nat := []) (froze : Bool := false) (retired : Bool := false) : Dev :=
  let seq := d.rd (Reg.TOP_EVT_SEQ.at [])
  let r : EventRec := ⟨code, froze, retired, false, severity code froze retired, seq, d.time, kind, index,
    trunc 16 (d.pipeFrame.getD 0), trunc 32 (args.getD 0 0), trunc 32 (args.getD 1 0), trunc 32 (args.getD 2 0)⟩
  let d := d.wr (Reg.TOP_EVT_SEQ.at []) (seq + 1)
  let d := d.wrIf (memUeCodes.contains code) (Reg.TOP_MEM_UE.at []) 1
  let full := decide (1024 ≤ d.events.store.length)
  let d := d.wrIf full (Reg.TOP_EVT_DROPPED.at []) (d.rd (Reg.TOP_EVT_DROPPED.at []) + 1)
  let e := d.events
  { d with events :=
      { e with
        store := (if full then dropLowest e.store else e.store) ++ [r],
        gapOwed := e.gapOwed || full,
        ram := (if 4096 ≤ e.ram.length then e.ram.drop 1 else e.ram) ++ [r],
        unsaved := if 2 ≤ r.sev || persistCodes.contains code then e.unsaved ++ [r] else e.unsaved,
        froze := if froze then e.froze ++ [(r, none)] else e.froze } }

/-- Raises an event at most once per second for the items `key` numbers. -/
def Dev.raiseSecond (d : Dev) (code kind index key : Nat) (args : List Nat := []) : Dev :=
  let k := code * 65536 + key
  let last := Tab.get 0 d.limits k
  if last = 0 || last + 1000000000 ≤ d.time + 1 then
    { d with limits := Tab.put 0 d.limits k (d.time + 1) }.raise code kind index args
  else d

/-- Arguments of a 48-bit address (R363). -/
def addrArgs (a : Nat) : List Nat := [a % 2 ^ 32, a / 2 ^ 32 % 2 ^ 16]

/-- The 32 bytes of an event record (R362). -/
def EventRec.toBytes (r : EventRec) : Bytes :=
  leBytes 2 r.code ++
  leBytes 1 ((if r.froze then 1 else 0) + (if r.retired then 2 else 0) + (if r.gap then 4 else 0)) ++
  leBytes 1 r.sev ++ leBytes 4 r.seq ++ leBytes 8 r.time ++ leBytes 2 (r.kind * 4096 + r.index) ++
  leBytes 2 r.frame ++ leBytes 4 r.arg0 ++ leBytes 4 r.arg1 ++ leBytes 4 r.arg2

/-! ### Tasks and their selection (R96 to R99) -/

/-- TSTATE values (R96). -/
def tIdle : Nat := 0
def tReady : Nat := 1
def tRun : Nat := 2
def tWaitTag : Nat := 3
def tWaitCredit : Nat := 4
def tWaitTake : Nat := 5
def tHalted : Nat := 6

/-- MC_STATE values (R65). -/
def mcOff : Nat := 0
def mcIdle : Nat := 1
def mcRun : Nat := 2
def mcFrozen : Nat := 3
def mcRetired : Nat := 4

def Dev.tstate (d : Dev) (c t : Nat) : Nat := d.rd (Reg.TASK_TSTATE.at (cix c [t]))
def Dev.setTstate (d : Dev) (c t v : Nat) : Dev := d.wr (Reg.TASK_TSTATE.at (cix c [t])) v
def Dev.mcState (d : Dev) (c : Nat) : Nat := d.rd (Reg.MC_STATE.at (cix c))

/-- A core that has left OFF and is neither frozen nor retired. -/
def Dev.coreUp (d : Dev) (c : Nat) : Bool := d.mcState c = mcIdle || d.mcState c = mcRun

/-- d_X of R97 in nanoseconds. -/
def Dev.taskSlack (d : Dev) (c t : Nat) : Int :=
  toSigned 32 (d.rd (Reg.TASK_DL.at (cix c [t])) + 2 ^ 32 - trunc 32 d.time)

/-- Rule 1 of R97 puts `x` above `y`. -/
def Dev.enhFirst (d : Dev) (c x y : Nat) : Bool :=
  d.rd (Reg.TASK_CLASS.at (cix c [x])) = 0 && d.rd (Reg.TASK_CLASS.at (cix c [y])) = 1 &&
  decide (d.taskSlack c x ≤ (4000 * d.rd (Reg.MC_ENH_WINDOW.at (cix c)) : Nat))

/-- Task `x` ranks above task `y` (R97). -/
def Dev.ranksAbove (d : Dev) (c x y : Nat) : Bool :=
  if d.enhFirst c x y then true
  else if d.enhFirst c y x then false
  else
    let dx := d.taskSlack c x
    let dy := d.taskSlack c y
    decide (dx < dy) || (decide (dx = dy) && decide (x < y))

/-- The task that issues, if one is selected and enabled. -/
def Dev.running (d : Dev) (c : Nat) : Option Nat :=
  if d.mcState c = mcRun then
    (List.range 8).find? (fun t => d.tstate c t = tRun && d.bit (Reg.TASK_ENABLE.at (cix c [t])))
  else none

/-- Selects task `t` (R98, R108). -/
def Dev.select (d : Dev) (c t : Nat) : Dev :=
  let changed := d.rd (Reg.MC_TASK.at (cix c)) != t
  let d := (d.setTstate c t tRun).inc (Reg.TASK_SELECTED.at (cix c [t]))
  let d := if changed then d.inc (Reg.MC_SWITCHES.at (cix c)) else d
  (d.wr (Reg.MC_TASK.at (cix c)) t).wr (Reg.MC_STATE.at (cix c)) mcRun

/-- Selects the highest-ranking READY task when none is selected; a task that has yielded only when no other is ready (R95, R97). A task that a cleared ENABLE stops is
IDLE here and keeps no other from selection (log 142). A core none of whose tasks is launched is IDLE. -/
def Dev.selectNext (d : Dev) (c : Nat) : Dev :=
  if !d.coreUp c || (List.range 8).any (fun t => d.tstate c t = tRun) then d
  else
    let ready := (List.range 8).filter (fun t => d.tstate c t = tReady && d.bit (Reg.TASK_ENABLE.at (cix c [t])))
    let fresh := ready.filter (fun t => !(d.task c t).yielded)
    let pool := if fresh.isEmpty then ready else fresh
    match pool.find? (fun x => pool.all (fun y => x = y || d.ranksAbove c x y)) with
    | some t => d.select c t
    | none =>
      d.wr (Reg.MC_STATE.at (cix c)) (if (List.range 8).all (fun t => d.tstate c t = tIdle) then mcIdle else mcRun)

/-- Tasks whose ENABLE a frame boundary has cleared stop before their next issue (R107): what they issued stands, their leases are not returned. The manual states no TSTATE for
them: they are IDLE, with nothing pending and no loop active (LOOPS reads 0), and another task is selected (log 142). -/
def Dev.stopDisabled (d : Dev) (c : Nat) : Dev :=
  if !d.coreUp c then d
  else
    let d := upTo 8 (fun t d =>
      if d.bit (Reg.TASK_ENABLE.at (cix c [t])) || d.tstate c t = tIdle || d.tstate c t = tHalted then d
      else (d.onTask c t (fun k => { k with nest := [], pending := none, wait := .none, stalled := false, yielded := false })).setTstate c t tIdle) d
    d.selectNext c

/-- A DRAIN of task `t` waits for credit in the vector unit (R148). -/
def Dev.drainHeld (d : Dev) (c t : Nat) : Bool := (d.core c).drainQ.any (fun x => x.task = t)

/-- Task `t` has nothing more to wait for: it becomes READY and may displace the running task (R98, R99), or waits in WAIT_CREDIT while a DRAIN of it waits for credit (R96, R148).
The cycles of a wait that ends are timing: WAITCYC takes a free value (log 22). -/
def Dev.makeReady (d : Dev) (c t : Nat) : Dev :=
  let ts := d.tstate c t
  let d := if tWaitTag ≤ ts && ts ≤ tWaitTake then d.wrFree (Reg.TASK_WAITCYC.at (cix c [t])) else d
  if d.drainHeld c t then
    ((d.onTask c t (fun k => { k with wait := .credit, stalled := false, yielded := false })).setTstate c t tWaitCredit).selectNext c
  else
  let d := (d.onTask c t (fun k => { k with wait := .none, stalled := false, yielded := false })).setTstate c t tReady
  match d.running c with
  | none => d.selectNext c
  | some x =>
    if d.ranksAbove c t x && (d.enhFirst c t x ||
        decide ((1000 * d.rd (Reg.MC_PREEMPT_DELTA.at (cix c)) : Nat) ≤ d.taskSlack c x - d.taskSlack c t)) then
      (d.setTstate c x tReady).select c t
    else d

/-- A launch takes effect on a task (R73). -/
def Dev.startTask (d : Dev) (c t : Nat) (l : Launch) : Dev :=
  let d := d.onTask c t (fun k => { k with g := Tab.put 0 k.g 0 l.word, nest := [], pending := none })
  let d := d.wr (Reg.TASK_PC.at (cix c [t])) (d.rd (Reg.TASK_ENTRY_PC.at (cix c [t])))
  let d := d.wr (Reg.TASK_DL.at (cix c [t])) l.deadline
  (d.wr (Reg.TASK_LAUNCH.at (cix c [t])) l.word.toNat).makeReady c t

/-! ### Freezing a core (R102 to R105) -/

/-- Whether a message is a write of core `c`. -/
def Msg.writeOf (c : Nat) (m : Msg) : Bool :=
  match m.body with
  | .write x => x.writer = c
  | _ => false

/-- Whether a write of task `t` of core `c` has not been written at its destination. -/
def Dev.taskWrites (d : Dev) (c t : Nat) : Bool :=
  (d.core c).drainQ.any (fun x => x.task = t) || (d.core c).vecNext.any (fun j => j.task = t) ||
  d.fabric.any (fun m => match m.body with
    | .write x => x.writer = c && x.task = t
    | _ => false)

/-- The task number under which a request whose answer is to be discarded travels (R104): no task has it. -/
def voidTask (t : Nat) : Nat := t % 8 + 8

/-- Sends what waits for the core's writes to be written: its DONEs (R210), after a freeze the freeze message of each counter behind the DONEs it follows,
and its close messages (R486). -/
def Dev.settle (d : Dev) (c : Nat) : Dev :=
  let ready := (d.core c).doneQ.filter (fun w => !d.taskWrites c w.task)
  let d := ready.foldl (fun d w =>
    d.send (.core c) (.wc (c / 9) w.wc) (.done (if w.void then voidTask w.task else w.task) w.idx w.gen)) d
  let d := if ready.isEmpty then d
    else d.onCore c (fun k => { k with doneQ := k.doneQ.filter (fun w => !(ready.contains w)) })
  let free := (d.core c).freezeOwed.filter (fun w => !(d.core c).doneQ.any (fun q => q.wc = w))
  let d := free.foldl (fun d w => d.send (.core c) (.wc (c / 9) w) .freeze) d
  let d := if free.isEmpty then d
    else d.onCore c (fun k => { k with freezeOwed := k.freezeOwed.filter (fun w => !(free.contains w)) })
  if (d.core c).closeOwed && (d.core c).freezeOwed.isEmpty && (d.core c).drainQ.isEmpty && (d.core c).vecNext.isNone &&
      !d.fabric.any (Msg.writeOf c) then
    upTo 32 (fun w d => d.send (.core c) (.wc (c / 9) w) .close) (d.onCore c (fun k => { k with closeOwed := false }))
  else d

/-- A message of core `c`'s work counters when the core halts (R104): an answer to TAKE or DONE is discarded, and a request on its way is answered in vain. -/
def Msg.voided (c : Nat) (m : Msg) : Option Msg :=
  match m.body with
  | .takeResp _ _ _ => if m.dst = .core c then none else some m
  | .doneResp _ _ _ => if m.dst = .core c then none else some m
  | .take t => some (if m.src = .core c then { m with body := .take (voidTask t) } else m)
  | .done t idx gen => some (if m.src = .core c then { m with body := .done (voidTask t) idx gen } else m)
  | _ => some m

/-- The answers core `c` waits for from its work counters will be discarded (R104): those under way, those of requests under way, and those of TAKEs that a counter holds. -/
def Dev.voidAnswers (d : Dev) (c : Nat) : Dev :=
  { d with fabric := d.fabric.filterMap (Msg.voided c),
           wcs := d.wcs.map (fun (e : Nat × Wc) => (e.1, { e.2 with waiting := e.2.waiting.map (fun p => if p.1 = c then (c, voidTask p.2) else p) })) }

/-! ### Multicast credits (R217, R370) -/

/-- The boundary engine of a master. A number that R151 leaves reserved (0x048 to 0x0FF, 0x184 and above) stands for an engine that does not exist: credits returned to it reach
no one (log 170). -/
def beOf (m : Nat) : Nat := if 0x180 ≤ m then m - 0x180 else m + 0x100

/-- The end of a master on the device ring (R151). -/
def masterNode (m : Nat) : Node :=
  if m < 72 then .core m else if 0x100 ≤ m && m < 0x180 then .su (m - 0x100) else .be (beOf m)

/-- Key of the credits member `k` of group `g` has returned to a writer's route and the fabric still holds (R217). -/
def mcKey (g k writer route : Nat) : Nat := ((g * 16 + k) * 512 + writer) * 16 + route

/-- Members of a group the fabric waits for: those of CL_MC_MEMBERS that are neither FROZEN nor RETIRED (R217, R370). -/
def Dev.groupWaits (d : Dev) (g : Nat) : List Nat :=
  let n := (g - 72) / 7
  (List.range 9).filter (fun k => (d.rd (Reg.CL_MCG_MEMBERS.at [n, (g - 72) % 7])).testBit k &&
    d.mcState (9 * n + k) != mcFrozen && d.mcState (9 * n + k) != mcRetired)

/-- Passes on what every waited-for member of a group has returned (R217). -/
def Dev.groupRelease (d : Dev) (g writer route : Nat) : Dev :=
  let ks := d.groupWaits g
  match ks with
  | [] => d
  | k0 :: _ =>
    let n := ks.foldl (fun m k => min m (Tab.get 0 d.mcReturned (mcKey g k writer route)))
      (Tab.get 0 d.mcReturned (mcKey g k0 writer route))
    if n = 0 then d
    else
      let d := ks.foldl (fun d k => { d with mcReturned := Tab.modify 0 d.mcReturned (mcKey g k writer route) (· - n) }) d
      d.send (.ring ((g - 72) / 7)) (masterNode writer) (.credit route n)

/-- The fabric of core `c`'s cluster waits no longer for it: what the other members of its groups have returned goes on to the writers (R217, R370). -/
def Dev.groupsGoOn (d : Dev) (c : Nat) : Dev :=
  d.mcReturned.foldl (fun d e =>
    let g := e.1 / 131072
    if 72 ≤ g && (g - 72) / 7 = c / 9 then d.groupRelease g (e.1 / 16 % 512) (e.1 % 16) else d) d

/-- What a freeze and a retirement have in common (R104, R105, R162, R486): no task issues again or waits, pending releases are gone, every answer of a work counter
is discarded, each counter of the cluster is owed a freeze and a close message, the multicast fabric stops waiting for the core (R370), and Keeper resolves the loss at the
next PIPE boundary. -/
def Dev.haltCore (d : Dev) (c state : Nat) : Dev :=
  let d := d.wr (Reg.MC_STATE.at (cix c)) state
  let d := upTo 8 (fun t d => (d.onTask c t (fun k => { k with wait := .none })).setTstate c t tHalted) d
  let d := d.onCore c (fun k =>
    { k with releases := [], doneQ := k.doneQ.map (fun w => { w with void := true }), freezeOwed := List.range 32, closeOwed := true })
  { (d.voidAnswers c).groupsGoOn c with lostCores := d.lostCores ++ [c] }

/-- A fault of the spare within 16 PIPE frames of its engagement, with the code and PC of the core it replaced, is one of the program (R374). -/
def Dev.programFault (d : Dev) (c code pc : Nat) : Bool :=
  let n := c / 9
  let k := d.rd (Reg.CL_SPARE_FOR.at [n])
  c % 9 = 8 && k < 8 &&
  (match Tab.find d.spareAt n with
   | some f => d.pipeCount ≤ f + 16
   | none => false) &&
  code = d.rd (Reg.MC_FAULT_CODE.at (cix (9 * n + k))) && pc = d.rd (Reg.MC_FAULT_PC.at (cix (9 * n + k)))

/-- The core enters FROZEN with a fault (R104, R105, R363, R486). A core that is already FROZEN keeps its record (R368), and an ECC_DED that a waiting instruction of it still meets
raises no second event (log 171). -/
def Dev.freezeCore (d : Dev) (c code t pc : Nat) : Dev :=
  if !d.coreUp c then d
  else
    let d := if d.programFault c code pc then { d with spareFaults := d.spareFaults ++ [c] } else d
    let d := d.haltCore c mcFrozen
    let d := d.wr (Reg.MC_FAULT_CODE.at (cix c)) code
    let d := d.wr (Reg.MC_FAULT_TASK.at (cix c)) t
    let d := d.wr (Reg.MC_FAULT_PC.at (cix c)) pc
    (d.raise (0x0100 + code) 0 c [code + t * 256 + pc * 65536, d.rd (Reg.TASK_LAUNCH.at (cix c [t]))] true).settle c

/-- A core is retired (R162, R376): MC_STATE and CL_RETIRED, its leases expire, and Keeper resolves the loss at the next PIPE boundary (R372). -/
def Dev.retireCore (d : Dev) (c : Nat) : Dev :=
  if d.mcState c = mcRetired then d
  else
    let d := if d.mcState c = mcFrozen then { d.wr (Reg.MC_STATE.at (cix c)) mcRetired with lostCores := d.lostCores ++ [c] }
      else d.haltCore c mcRetired
    ({ d with retired := d.retired ++ [c], healthDirty := true }.raise 0x0170 0 c [] false true).settle c

/-- A double-bit error in a unit's own memories: the second within 24 hours of operation retires a core (R376). -/
def Dev.secondDed (d : Dev) (unit : Nat) : Bool × Dev :=
  let l := d.dedAt.filter (fun e => decide (d.time < e.2 + 86400000000000))
  (l.any (fun e => e.1 = unit), { d with dedAt := l ++ [(unit, d.time)] })

/-- Fault ECC_DED (R103): one in the core's own memories counts toward its retirement, one in a scratchpad toward its row's. -/
def Dev.freezeDed (d : Dev) (c t pc : Nat) : Dev :=
  let pad := d.padDed
  let d := d.freezeCore c 9 t pc
  if pad then d
  else
    let r := d.secondDed c
    if r.1 then r.2.retireCore c else r.2

/-! ### Scratchpad words, banks and ECC (R132, R155 to R160, R482) -/

/-- Physical row of logical row `j` of bank `b` (R132, R161). -/
def Dev.physRow (d : Dev) (c b j : Nat) : Nat :=
  match (List.range 4).find? (fun i => d.bit (Reg.SP_REMAP_VALID.at (cix c [b, i])) && d.rd (Reg.SP_REMAP_ROW.at (cix c [b, i])) = j) with
  | some i => 128 + i
  | none => j

/-- Key, among the ECC marks of a core, of the first word of physical row `p` of bank `b`, for a row that holds no logical row. -/
def rowKey (b p : Nat) : Nat := 0x100000 + 64 * (132 * b + p)

/-- Bank `b` is gated (R155). -/
def Dev.bankGated (d : Dev) (c b : Nat) : Bool :=
  let pg := if b < 32 then d.bitAt (Reg.SP_BANK_PG_LO.at (cix c)) b else d.bitAt (Reg.SP_BANK_PG_HI.at (cix c)) (b - 32)
  let on := if b < 32 then d.bitAt (Reg.SP_BANK_ON_LO.at (cix c)) b else d.bitAt (Reg.SP_BANK_ON_HI.at (cix c)) (b - 32)
  pg && !on

/-- Bank `b` wakes or is being filled (R157). -/
def Dev.bankWaking (d : Dev) (c b : Nat) : Bool := (d.core c).waking.contains b

/-- Banks that bytes `off` to `off + n - 1` lie in. -/
def banksOf (off n : Nat) : List Nat :=
  if n = 0 then [] else (List.range ((off + n - 1) / 65536 - off / 65536 + 1)).map (fun i => off / 65536 + i)

def Dev.anyGated (d : Dev) (c off n : Nat) : Bool := (banksOf off n).any (d.bankGated c)
/-- A bank of a span takes no plain access: it is off, or waits to power down (R155, R156). -/
def Dev.anyShut (d : Dev) (c off n : Nat) : Bool := (banksOf off n).any (fun b => d.bankGated c b || Tab.get 0 (d.core c).pgWait b = 1)
def Dev.anyWaking (d : Dev) (c off n : Nat) : Bool := (banksOf off n).any (d.bankWaking c)

/-- Counts a correction or an uncorrectable word of a memory row (R379, R380): entries expire after 24 hours, and a full table gives up its oldest. -/
def Dev.noteRow (d : Dev) (cls loc : Nat) (ue : Bool) : Dev :=
  let rows := d.corrRows.filter (fun r => decide (d.time < r.first + 86400000000000))
  let old := rows.find? (fun r => r.cls = cls && r.loc = loc)
  { d with corrRows := match old with
      | some _ => rows.map (fun r => if r.cls = cls && r.loc = loc then { r with count := r.count + 1, ue := r.ue || ue } else r)
      | none => (if 4096 ≤ rows.length then rows.drop 1 else rows) ++ [⟨cls, loc, d.time, 1, ue⟩] }

/-- LOCATION of a scratchpad row in the repair table (R163), without the spare. -/
def spRowLoc (c b row : Nat) : Nat := c + b * 128 + row * 8192

/-- Records the last ECC error of a scratchpad (R158, R482). -/
def Dev.spEccLast (d : Dev) (c off : Nat) (ded : Bool) : Dev :=
  let b := off / 65536
  let d := d.noteRow 0 (spRowLoc c b (off / 512 % 128)) ded
  let d := d.wr (Reg.SP_ECC_BANK.at (cix c)) b
  let d := d.wr (Reg.SP_ECC_PROW.at (cix c)) (d.physRow c b (off / 512 % 128))
  d.set (Reg.SP_ECC_WAS_DED.at (cix c)) ded

/-- Corrects a single-bit error (R158). -/
def Dev.spCorrect (d : Dev) (c off : Nat) : Dev :=
  let d := { d with ecc := Tab.put 0 d.ecc (spAddr c off / 8) 0 }
  let d := (d.incSat (Reg.SP_ECC_CORR_CNT.at (cix c))).set (Reg.SP_ECC_CORR.at (cix c)) true
  d.spEccLast c off false

/-- Byte offsets of the 8-byte words that bytes `off` to `off + n - 1` touch. -/
def wordsOf (off n : Nat) : List Nat :=
  if n = 0 then [] else (List.range ((off + n - 1) / 8 - off / 8 + 1)).map (fun i => (off / 8 + i) * 8)

/-- Checks the words a read touches: corrects single-bit errors and answers the first word with a double-bit error (R158, R160). -/
def Dev.spCheck (d : Dev) (c off n : Nat) : Option Nat × Dev :=
  if d.ecc.isEmpty then (none, d)
  else (wordsOf off n).foldl (fun r w =>
    match r.1 with
    | some _ => r
    | none =>
      let m := Tab.get 0 r.2.ecc (spAddr c w / 8)
      if m = 2 then (some w, { (r.2.set (Reg.SP_ECC_DED.at (cix c)) true).spEccLast c w true with padDed := true })
      else if m = 1 then (none, r.2.spCorrect c w)
      else r) (none, d)

/-- Writes plain bytes to one scratchpad word: a part of a word with a double-bit error is lost (R482). -/
def Dev.spWriteWord (d : Dev) (c off : Nat) (data : Bytes) (w : Nat) : Dev :=
  let lo := max off w
  let hi := min (off + data.length) (w + 8)
  let part := (data.drop (lo - off)).take (hi - lo)
  let m := Tab.get 0 d.ecc (spAddr c w / 8)
  let whole := hi - lo = 8
  if whole then { d with ecc := Tab.put 0 d.ecc (spAddr c w / 8) 0 }.setBytes (spAddr c lo) part
  else if m = 2 then
    ((d.raise 0x0720 0 c [w]).set (Reg.SP_ECC_DED.at (cix c)) true).spEccLast c w true
  else
    let d := if m = 1 then d.spCorrect c w else d
    d.setBytes (spAddr c lo) part

/-- Writes plain bytes to a scratchpad (R158, R482). -/
def Dev.spWrite (d : Dev) (c off : Nat) (data : Bytes) : Dev :=
  if d.ecc.isEmpty then d.setBytes (spAddr c off) data
  else (wordsOf off data.length).foldl (fun d w => d.spWriteWord c off data w) d

/-- Adds one 32-bit element at the destination (R153, R482): kind 1 INT32, 2 FP32. An element that no rule aligns may touch two words. -/
def Dev.spAccum (d : Dev) (c off kind : Nat) (v : Word) : Dev :=
  let mark (w : Nat) : Nat := Tab.get 0 d.ecc (spAddr c w / 8)
  match (wordsOf off 4).find? (fun w => mark w = 2) with
  | some w => ((d.raise 0x0720 0 c [w]).set (Reg.SP_ECC_DED.at (cix c)) true).spEccLast c w true
  | none =>
    let d := (wordsOf off 4).foldl (fun d w => if mark w = 1 then d.spCorrect c w else d) d
    let old := BitVec.ofNat 32 (d.readLe (spAddr c off) 4)
    if kind = 1 then
      let r := satInt 32 (old.toInt + v.toInt)
      let d := if r.2 then d.set (Reg.SP_AOW_SAT.at (cix c)) true else d
      d.setBytes (spAddr c off) (leBytes 4 (ofSigned 32 r.1))
    else
      let r := add32 old v
      let d := if isNan32 r then d.set (Reg.SP_AOW_NAN.at (cix c)) true else d
      d.setBytes (spAddr c off) (leBytes 4 r.toNat)

end Sys2Proof.Machine
end

