-- ==== Sys2Proof/Machine/Operands.lean ====
section
/-! DEFINITION. Operand forms of core instructions: fields of the encodings (R74 to R87), element formats (R40 to R45), address registers and their checks (R72, R138, R139). -/

namespace Sys2Proof.Machine

/-! ### Fields -/

/-- Field [lo+w-1:lo] of an instruction. -/
def ifld (x : IWord) (lo w : Nat) : Nat := bits x.toNat lo w

/-- Every listed (low bit, width) range is zero. -/
def zeros (x : IWord) (l : List (Nat × Nat)) : Bool := l.all (fun r => ifld x r.1 r.2 = 0)

/-! ### Formats -/

/-- Bits of one element (R40). -/
def fmtBits (f : Nat) : Nat :=
  if f = 1 || f = 11 then 4 else if f = 9 || f = 10 then 6 else if f = 4 || f = 5 then 16
  else if f = 12 || f = 13 then 32 else 8

/-- The formats with a block scale (R43). -/
def isMx (f : Nat) : Bool := decide (6 ≤ f) && decide (f ≤ 11)

/-- Bytes that `k` elements of a format cover (R42). -/
def fmtBytes (f k : Nat) : Nat := (k * fmtBits f + 7) / 8

/-- The exact value of one element, without its block scale (R40, R43 to R45, R48). -/
def elemNum (f raw : Nat) : Num :=
  match f with
  | 0 => Num.ofInt (toSigned 8 raw)
  | 1 => Num.ofInt (toSigned 4 raw)
  | 2 => FFmt.e4m3.decode raw
  | 3 => FFmt.e5m2.decode raw
  | 4 => FFmt.bf16.decode raw
  | 5 => FFmt.fp16.decode raw
  | 6 => Num.ofInt (toSigned 8 raw)
  | 7 => FFmt.e4m3.decode raw
  | 8 => FFmt.e5m2.decode raw
  | 9 => FFmt.e2m3.decode raw
  | 10 => FFmt.e3m2.decode raw
  | 11 => FFmt.e2m1.decode raw
  | 12 => Num.ofInt (toSigned 32 raw)
  | _ => FFmt.fp32.decode raw

/-- The raw encodings of `k` packed elements (R42). -/
def unpackElems (f : Nat) (bs : Bytes) (k : Nat) : List Nat :=
  let v := leNat bs
  (List.range k).map (fun i => bits v (i * fmtBits f) (fmtBits f))

/-- Rate of an activation and weight pair: 1 single, 2 double, 4 quarter; none for a pair outside R41. -/
def pairRate (a w : Nat) : Option Nat :=
  if a = 0 then (if w = 0 || w = 6 then some 1 else if w = 1 then some 2 else none)
  else if a = 2 || a = 3 then
    (if w = 2 || w = 3 || w = 7 || w = 8 || w = 9 || w = 10 then some 1 else if w = 11 then some 2 else none)
  else if a = 4 || a = 5 then
    (if w = a || w = 2 || w = 3 || (decide (7 ≤ w) && decide (w ≤ 11)) then some 4 else none)
  else none

/-- Whether a pair accumulates in INT32 (R41). -/
def pairInt (a w : Nat) : Bool := a = 0 && (w = 0 || w = 1)

/-- Formats of the vector instructions (R83). -/
def vecFmt (f : Nat) : Bool := [0, 2, 3, 4, 5, 12, 13].contains f

/-- Bytes from one column of a weight tile to the next (R75). -/
def weightPitch (f : Nat) : Nat := if f = 9 || f = 10 then 48 else if f = 4 || f = 5 then 128 else 64

/-! ### Legality (R68) -/

/-- The assigned opcodes (R68). -/
def coreOpcodes : List Nat :=
  [0x00, 0x01, 0x02, 0x04, 0x05, 0x08, 0x09, 0x0A, 0x0B, 0x0C, 0x0D, 0x0E, 0x0F, 0x10, 0x11, 0x12, 0x20, 0x21, 0x22, 0x23, 0x24]

def legalMma (x : IWord) : Bool :=
  match pairRate (ifld x 8 4) (ifld x 12 4) with
  | none => false
  | some r => (ifld x 44 7 ≤ 63 || r = 2) && zeros x [(60, 4), (90, 38)]

def legalMmat (x : IWord) : Bool :=
  match pairRate (ifld x 8 4) (ifld x 12 4) with
  | none => false
  | some r => (ifld x 44 7 ≤ 63 || r = 2) && ifld x 64 4 ≤ 10 && ifld x 68 4 ≤ 10 &&
      ifld x 89 6 + (ifld x 32 6 + 1) ≤ 64 && zeros x [(60, 4), (95, 33)]

def legalDwb (x : IWord) : Bool :=
  let taps := (ifld x 64 4 + 1) * (ifld x 68 4 + 1)
  (pairRate (ifld x 8 4) (ifld x 12 4)).isSome && !isMx (ifld x 12 4) && ifld x 64 4 ≤ 10 && ifld x 68 4 ≤ 10 &&
    taps * (ifld x 38 6 + 1) * (ifld x 44 6 + 1) ≤ 64 && (ifld x 38 6 + 1) * (ifld x 50 6 + 1) ≤ 64 &&
    ifld x 89 6 + (ifld x 32 6 + 1) ≤ 64 && zeros x [(24, 4), (62, 2), (95, 33)]

def legalDrain (x : IWord) : Bool :=
  let ofmt := ifld x 8 4
  let conv := ifld x 12 1 = 1
  let aow := ifld x 13 1 = 1
  let accf := ifld x 14 1
  let d2s := ifld x 70 2
  let b := ifld x 72 2 + 2
  vecFmt ofmt &&
    (conv || ((ofmt = 12 || ofmt = 13) && ifld x 53 2 = 0 && ifld x 55 2 = 0 && ifld x 57 3 = 0)) &&
    (!aow || (!conv && ((ofmt = 12 && accf = 0) || (ofmt = 13 && accf = 1)))) &&
    ifld x 53 2 ≤ 2 && ifld x 55 2 ≤ 2 && ifld x 57 3 ≤ 3 && d2s ≤ 2 &&
    (d2s = 0 || ifld x 72 2 ≤ 2) && (d2s != 2 || ifld x 74 2 < b) &&
    (d2s != 1 || (ifld x 44 6 + 1) % (b * b) = 0) &&
    ifld x 32 6 + ifld x 38 6 + 1 ≤ 64 && zeros x [(15, 1), (31, 1), (62, 2), (76, 52)]

def legalVec (x : IWord) : Bool :=
  match ifld x 0 8 with
  | 0x21 => vecFmt (ifld x 8 4) && vecFmt (ifld x 12 4) && vecFmt (ifld x 28 4) && ifld x 54 3 ≤ 3 && zeros x [(62, 2), (67, 61)]
  | 0x22 => vecFmt (ifld x 8 4) && vecFmt (ifld x 12 4) && zeros x [(31, 1), (70, 58)]
  | 0x23 => vecFmt (ifld x 8 4) && vecFmt (ifld x 12 4) && ifld x 51 3 ≤ 3 && zeros x [(24, 8), (62, 66)]
  | _ => vecFmt (ifld x 8 4) && ifld x 12 2 ≤ 2 && ifld x 56 4 ≤ 10 && ifld x 60 4 ≤ 10 && ifld x 64 4 ≤ 10 &&
      ifld x 68 4 ≤ 10 && zeros x [(14, 2), (26, 6), (80, 48)]

/-- An instruction at index `pc` is legal (R68, R74 to R90, R210). -/
def coreLegal (x : IWord) (pc : Nat) : Bool :=
  match ifld x 0 8 with
  | 0x00 => zeros x [(8, 120)]
  | 0x01 => zeros x [(8, 120)]
  | 0x02 => zeros x [(8, 120)]
  | 0x04 => pc < ifld x 16 12 && zeros x [(14, 2), (28, 4), (48, 80)]
  | 0x05 => ifld x 8 3 ≤ 4 && zeros x [(14, 2), (28, 4), (64, 64)]
  | 0x08 => ifld x 8 4 ≤ 11 && ifld x 18 2 ≤ 2 && (ifld x 18 2 != 2 || ifld x 20 3 ≤ 3) && zeros x [(23, 9), (64, 64)]
  | 0x09 => zeros x [(65, 63)]
  | 0x0A => zeros x [(15, 17), (64, 64)]
  | 0x0B => ifld x 8 3 != 0 && ifld x 11 2 ≤ 1 && zeros x [(16, 48)]
  | 0x0C => ifld x 13 3 != 7 && zeros x [(16, 112)]
  | 0x0D => ifld x 13 3 != 7 && ifld x 16 3 != 7 && zeros x [(19, 109)]
  | 0x0E => ifld x 14 2 != 3 && zeros x [(21, 107)]
  | 0x0F => ifld x 14 2 != 3 && ifld x 17 2 != 3 && zeros x [(22, 106)]
  | 0x10 => legalMma x
  | 0x11 => legalMmat x
  | 0x12 => legalDwb x
  | 0x20 => legalDrain x
  | 0x21 => legalVec x
  | 0x22 => legalVec x
  | 0x23 => legalVec x
  | 0x24 => legalVec x
  | _ => false

/-! ### Registers of a task (R71) -/

def Task.av (k : Task) (i : Nat) : Word := Tab.get 0 k.a i
def Task.gv (k : Task) (i : Nat) : Word := Tab.get 0 k.g i
def Task.sv (k : Task) (i : Nat) : Int := (Tab.get 0 k.s i).toInt
def Task.pv (k : Task) (i : Nat) : BitVec 64 := if i = 0 then BitVec.allOnes 64 else Tab.get 0 k.p i
def Task.lcv (k : Task) (i : Nat) : LoopReg := Tab.get ⟨0, 0, 0⟩ k.lc i
def Task.setG (k : Task) (i : Nat) (v : Word) : Task := { k with g := Tab.put 0 k.g i v }
def Task.setA (k : Task) (i : Nat) (v : Word) : Task := { k with a := Tab.put 0 k.a i v }
def Task.setS (k : Task) (i : Nat) (v : Word) : Task := { k with s := Tab.put 0 k.s i v }
def Task.setP (k : Task) (i : Nat) (v : BitVec 64) : Task := { k with p := Tab.put 0 k.p i v }
def Task.setLc (k : Task) (i : Nat) (v : LoopReg) : Task := { k with lc := Tab.put ⟨0, 0, 0⟩ k.lc i v }

/-- Fields of an address register (R72). -/
def aOffset (w : Word) : Nat := bits w.toNat 0 22
def aHandle (w : Word) : Nat := bits w.toNat 22 6
def aBaserel (w : Word) : Bool := w.toNat.testBit 28
def aHalf (w : Word) : Nat := bits w.toNat 29 1

/-- Where an address register points: bytes from `base` of the own scratchpad, or half `half` of a handle of another core. -/
inductive Loc where
  | own (base limit : Nat)
  | remote (tcore handle route half limit : Nat)
  deriving DecidableEq, Repr

/-- Fault codes of R102. -/
def fIllegal : Nat := 1
def fAccRange : Nat := 2
def fHandle : Nat := 3
def fBound : Nat := 4
def fPcRange : Nat := 5
def fLoopNest : Nat := 6
def fGenAhead : Nat := 7
def fBankOff : Nat := 8
def fEccDed : Nat := 9

/-- TCORE, THANDLE and ROUTE of a REMOTE handle (R137, R164). -/
def Dev.remTcore (d : Dev) (c h : Nat) : Nat := bits (d.rd (Reg.HND_BASE_ROW.at (cix c [h]))) 0 7
def Dev.remThandle (d : Dev) (c h : Nat) : Nat := bits (d.rd (Reg.HND_SIZE.at (cix c [h]))) 0 6
def Dev.remRoute (d : Dev) (c h : Nat) : Nat := bits (d.rd (Reg.HND_SIZE.at (cix c [h]))) 6 4

/-- Handle `h` is valid for task `t` (R137). -/
def Dev.handleFor (d : Dev) (c t h : Nat) : Bool :=
  d.bit (Reg.HND_VALID.at (cix c [h])) && d.bitAt (Reg.HND_OWNERS.at (cix c [h])) t

def Dev.isRemote (d : Dev) (c h : Nat) : Bool := d.rd (Reg.HND_KIND.at (cix c [h])) = 1

/-- Resolves an address register, or answers the fault HANDLE (R72, R137 to R139). `dest` permits a REMOTE handle. -/
def Dev.resolve (d : Dev) (c t : Nat) (w : Word) (dest : Bool) : Option Loc :=
  if aBaserel w then
    let base := d.rd (Reg.SP_TASK_BASE.at (cix c [t]))
    some (.own base (min (d.rd (Reg.SP_TASK_BOUND.at (cix c [t]))) 0x300000 - base))
  else
    let h := aHandle w
    if !d.handleFor c t h then none
    else if d.isRemote c h then
      if dest && (aHalf w = 0 || d.bit (Reg.HND_THALVES.at (cix c [h]))) then
        some (.remote (d.remTcore c h) (d.remThandle c h) (d.remRoute c h) (aHalf w)
          ((d.rd (Reg.HND_TSIZE.at (cix c [h])) + 1) * 512))
      else none
    else if aHalf w = 0 || d.bit (Reg.HND_HALVES.at (cix c [h])) then
      let size := d.rd (Reg.HND_SIZE.at (cix c [h])) + 1
      some (.own ((d.rd (Reg.HND_BASE_ROW.at (cix c [h])) + aHalf w * size) * 512) (size * 512))
    else none

/-- Bytes an instruction touches: a place, the first offset relative to it, and how many. -/
structure Span where
  loc : Loc
  start : Int
  len : Nat
  deriving DecidableEq, Repr

def Loc.limit : Loc → Nat
  | .own _ l => l
  | .remote _ _ _ _ l => l

/-- Every byte lies inside the buffer or bound (R72). A byte before the first one, of a base-relative address too, is outside (log 135). -/
def Span.inside (s : Span) : Bool := s.len = 0 || (decide (0 ≤ s.start) && decide (s.start + s.len ≤ s.loc.limit))

/-- First scratchpad byte of a span of the own scratchpad. -/
def Span.first (s : Span) : Nat :=
  match s.loc with
  | .own b _ => b + s.start.toNat
  | .remote _ _ _ _ _ => s.start.toNat

def Span.touches (s : Span) (p : Nat → Nat → Bool) : Bool :=
  match s.loc with
  | .own _ _ => p s.first s.len
  | .remote _ _ _ _ _ => false

/-- What the checks of the touched bytes answer: go on, a fault (R72, R156), or wait for a bank that wakes (R157). -/
inductive Check where
  | ok
  | fault (code : Nat)
  | wait
  deriving DecidableEq, Repr

/-- The checks made on every byte before an instruction issues (R72, R102). -/
def Dev.checkSpans (d : Dev) (c : Nat) (l : List Span) : Check :=
  if !l.all Span.inside then .fault fBound
  else if l.any (fun s => s.touches (d.anyGated c)) then .fault fBankOff
  else if l.any (fun s => s.touches (d.anyWaking c)) then .wait
  else .ok

end Sys2Proof.Machine
end

