-- ==== Sys2Proof/Machine/Flags.lean ====
section
/-! DEFINITION. The flags of the array and the vector unit (MC_FLAGS, R46, R47, R53 to R55, R64) and the conversions that set them. -/

namespace Sys2Proof.Machine

/-- Flags a conversion raises. -/
structure Flags where
  accSat : Bool := false
  outSat : Bool := false
  nanAcc : Bool := false
  nanInt : Bool := false
  flush : Bool := false
  eccCorr : Bool := false
  deriving DecidableEq, Repr

def Flags.or (a b : Flags) : Flags :=
  ⟨a.accSat || b.accSat, a.outSat || b.outSat, a.nanAcc || b.nanAcc, a.nanInt || b.nanInt, a.flush || b.flush,
    a.eccCorr || b.eccCorr⟩

/-- Sets a field when the condition holds; the MC_FLAGS fields are sticky (R65). -/
def Dev.setIf (d : Dev) (f : Fld) (b : Bool) : Dev := d.wrIf b f 1

/-- Raises the flags in MC_FLAGS of core `c` (R65). -/
def Dev.mcFlags (d : Dev) (c : Nat) (f : Flags) : Dev :=
  let d := d.setIf (Reg.MC_ACC_SAT.at (cix c)) f.accSat
  let d := d.setIf (Reg.MC_OUT_SAT.at (cix c)) f.outSat
  let d := d.setIf (Reg.MC_NAN_ACC.at (cix c)) f.nanAcc
  let d := d.setIf (Reg.MC_NAN_INT.at (cix c)) f.nanInt
  let d := d.setIf (Reg.MC_E5M2_FLUSH.at (cix c)) f.flush
  d.setIf (Reg.MC_ECC_CORR.at (cix c)) f.eccCorr

/-- Narrows FP32 bits into an output format (R54, R55): encoding and flags. -/
def outConv (fmt : Nat) (v : Word) : Nat × Flags :=
  let n := num32 v
  let toInt (w : Nat) : Nat × Flags :=
    if n.isNan then (0, { nanInt := true })
    else
      let r := satInt w n.toIntRne
      (ofSigned w r.1, { outSat := r.2 })
  let toFloat (f : FFmt) : Nat × Flags :=
    let r := f.roundSat n
    (r.1, { outSat := r.2 })
  match fmt with
  | 0 => toInt 8
  | 12 => toInt 32
  | 2 => toFloat .e4m3
  | 3 =>
    let r := FFmt.e5m2.roundSat n
    let mag := r.1 % 128
    if 0 < mag && mag < 4 then (r.1 / 128 * 128, { flush := true }) else (r.1, { outSat := r.2 })
  | 4 => toFloat .bf16
  | 5 => toFloat .fp16
  | _ => (if n.isNan then nan32.toNat else v.toNat, {})

/-- An E5M2 subnormal, which the vector unit takes as zero (R55) and reports in MC_FLAGS.E5M2_FLUSH, read or written (R467). -/
def vecFlush (fmt raw : Nat) : Bool := fmt = 3 && decide (0 < raw % 128) && decide (raw % 128 < 4)

/-- An input element of the vector unit: integers exactly, E5M2 subnormals as zero of their sign (R55, R60). -/
def vecNum (fmt raw : Nat) : Num := if vecFlush fmt raw then .fin (raw.testBit 7) 0 0 else elemNum fmt raw

/-- Stage 3 of R53 for the activations that need no table: 0 none, 1 ReLU, 2 clamp. `Config.actOpen` is the value the manual does not state: of a
NaN under ReLU or clamp, of -0 under ReLU, and of a clamp whose bounds are NaN or out of order (log 21). A clamp takes zeros of either sign as equal (log 130). -/
def applyAct (act : Nat) (lo hi v : Word) : Word :=
  let n := num32 v
  let free := Config.actOpen act lo hi v
  if act = 1 then
    if n.isNan then free
    else if v = 0x80000000 then (if free.getLsbD 0 then 0x80000000 else 0)
    else if n.lt (.fin false 0 0) then 0 else v
  else if act = 2 then
    let l := num32 lo
    let h := num32 hi
    if n.isNan || l.isNan || h.isNan || h.lt l then free
    else if n.lt l then lo else if h.lt n then hi else v
  else v

end Sys2Proof.Machine
end

