-- ==== Sys2Proof/Machine/CoreIssue.lean ====
section
/-! DEFINITION. How a core issues one instruction of its selected task: legality, faults, loops, the advance of PC (R68 to R70, R90, R91, R102 to R104). -/

namespace Sys2Proof.Machine

/-- An issuing instruction: core, task, index, word, and the task's registers. -/
structure Ctx where
  c : Nat
  t : Nat
  pc : Nat
  ins : IWord
  k : Task
  deriving DecidableEq, Repr

def Ctx.f (x : Ctx) (lo w : Nat) : Nat := ifld x.ins lo w

/-- What counts as one handle for the ordering of a task's accesses (R70): a handle, or 64 for every base-relative address. -/
def handleKey (w : Word) : Nat := if aBaserel w then 64 else aHandle w

/-- The handle a vector instruction writes through (R81 to R85): DRAIN and VPAD name it in [19:16], VADD in [27:24], VPOOL and VCVT in [23:20]. -/
def vecDest (ins : IWord) (k : Task) : Nat :=
  let op := ifld ins 0 8
  handleKey (k.av (ifld ins (if op = 0x20 || op = 0x24 then 16 else if op = 0x21 then 24 else 20) 4))

/-- What a vector instruction reads through (R70, R81 to R85): DRAIN its bias and scale vectors where a mode reads them, VADD both operands, the others AX. -/
def vecReads (ins : IWord) (k : Task) : List Nat :=
  let at_ (lo : Nat) : Nat := handleKey (k.av (ifld ins lo 4))
  if ifld ins 0 8 = 0x20 then
    if ifld ins 12 1 = 1 then (if ifld ins 53 2 != 0 then [at_ 20] else []) ++ (if ifld ins 55 2 != 0 then [at_ 24] else []) else []
  else if ifld ins 0 8 = 0x21 then [at_ 16, at_ 20]
  else [at_ 16]

/-- What an array instruction reads through (R70, R74 to R80): activations, weights, and the block scales of an MX format. -/
def arrReadKeys (ins : IWord) (k : Task) : List Nat :=
  ([16, 20] ++ (if ifld ins 0 8 != 0x12 && isMx (ifld ins 12 4) then [24] else [])).map (fun lo => handleKey (k.av (ifld ins lo 4)))

/-- Ends of loops served at index `pc`, innermost first (R90): registers, loops that stay active, and the next index. -/
def serveLoops (k : Task) (pc : Nat) : List Nat → Task × List Nat × Nat
  | [] => (k, [], pc + 1)
  | i :: rest =>
    let l := k.lcv i
    if l.stop = pc then
      if 1 < l.count then (k.setLc i { l with count := l.count - 1 }, i :: rest, l.start)
      else serveLoops k pc rest
    else (k, i :: rest, pc + 1)

/-- PC moves to `next`; passing control to index 4,096 is PC_RANGE (R91). -/
def Dev.setPc (d : Dev) (x : Ctx) (next : Nat) : Dev :=
  if 4096 ≤ next then d.freezeCore x.c fPcRange x.t 4095 else d.wr (Reg.TASK_PC.at (cix x.c [x.t])) next

/-- PC moves past the instruction at `at_`, serving the loops that end there (R90). -/
def Dev.advance (d : Dev) (x : Ctx) (at_ : Nat) : Dev :=
  let k := d.task x.c x.t
  let r := serveLoops k at_ k.nest
  (d.onTask x.c x.t (fun _ => { r.1 with nest := r.2.1 })).setPc x r.2.2

/-- What every issue does: ISSUED counts, and the other tasks may be selected again after a YIELD (R95, R108). -/
def Dev.issued (d : Dev) (x : Ctx) : Dev :=
  let d := d.inc (Reg.TASK_ISSUED.at (cix x.c [x.t]))
  upTo 8 (fun t d => if t ≠ x.t && (d.task x.c t).yielded then d.onTask x.c t (fun k => { k with yielded := false }) else d) d

/-- ECC mark of the four words of a program store instruction: 2 when one holds a double-bit error (R64). -/
def Dev.progEcc (d : Dev) (c pc : Nat) : Nat :=
  (List.range 4).foldl (fun m w => max m (Tab.get 0 (d.core c).ecc (0x10000 + 4 * pc + w))) 0

/-- The instruction the selected task would issue next. -/
def Dev.nextIns (d : Dev) (c t : Nat) : Ctx :=
  let pc := d.rd (Reg.TASK_PC.at (cix c [t]))
  ⟨c, t, pc, Tab.get 0 (d.core c).prog pc, d.task c t⟩

/-- The selected task issues the instruction at its PC when its opcode is `op`. An unassigned opcode or an illegal
instruction faults ILLEGAL (R68); a program word with a double-bit error faults ECC_DED (R64, R102). -/
def Dev.issue (d : Dev) (c op : Nat) (f : Ctx → Dev → Dev) : Dev :=
  match d.running c with
  | none => d
  | some t =>
    let x := d.nextIns c t
    let d := d.padOk
    if d.progEcc c x.pc = 2 then d.freezeDed c t x.pc
    else
      let d := d.setIf (Reg.MC_ECC_CORR.at (cix c)) (d.progEcc c x.pc = 1)
      if !(coreOpcodes.contains (x.f 0 8)) then d.freezeCore c fIllegal t x.pc
      else if x.f 0 8 ≠ op then d
      else if !coreLegal x.ins x.pc then d.freezeCore c fIllegal t x.pc
      else f x d

/-- A control instruction that changes registers of its task only. -/
def Dev.issueRegs (d : Dev) (c op : Nat) (f : Ctx → Task → Task) : Dev :=
  d.issue c op (fun x d => ((d.issued x).onTask c x.t (f x)).advance x x.pc)

/-- The task blocks in a wait (R96). WAITCYC counts core cycles, which is timing: it takes a free value here and when the wait ends (log 22). -/
def Dev.block (d : Dev) (x : Ctx) (ts : Nat) (w : Wait) : Dev :=
  let d := (d.onTask x.c x.t (fun k => { k with wait := w, stalled := false })).setTstate x.c x.t ts
  (d.wrFree (Reg.TASK_WAITCYC.at (cix x.c [x.t]))).selectNext x.c

end Sys2Proof.Machine
end

