-- ==== Sys2Proof/Machine/Energy.lean ====
section
/-! DEFINITION. Model energies: what each activity adds to the account of the pipeline that caused it (R353). Energies are exact, in fJ. -/

namespace Sys2Proof.Machine

/-- The pipeline of a task in the SEQ section (R353). -/
def Dev.taskPipe (d : Dev) (c t : Nat) : Option Nat :=
  (d.plan.pipes.find? (fun r => r.members.any (fun m => m.master = c && m.task = t))).map PipeRec.pipe

/-- The pipeline of a unit outside the cores: SU_CFG.PIPELINE, or that of the engine's job; none, unattributed. -/
def Dev.masterPipe (d : Dev) (master : Nat) : Option Nat :=
  if 0x100 ≤ master && master < 0x180 then
    some (d.rd (Reg.SU_PIPELINE.at [(master - 0x100) / 16, (master - 0x100) % 16]))
  else if 0x180 ≤ master && master < 0x184 then (Tab.get {} d.bes (master - 0x180)).job.map BeJob.pipe
  else none

/-- Adds model energy: to the core share of a pipeline (MAC and scratchpad terms), or to its other terms, and to its job; or to what no pipeline caused. -/
def Dev.spend (d : Dev) (pipe : Option Nat) (core : Bool) (fj : Nat) : Dev :=
  let w := d.power
  let w := { w with pollFj := w.pollFj + fj }
  { d with power := match pipe with
    | none => { w with unattrFj := w.unattrFj + fj }
    | some p =>
      let w := { w with jobFj := Tab.modify 0 w.jobFj p (· + fj) }
      if core then { w with coreFj := Tab.modify 0 w.coreFj p (· + fj) } else { w with otherFj := Tab.modify 0 w.otherFj p (· + fj) } }

/-- `n` multiply-accumulates of a task's array instruction; at quarter rate they cost C_MAC16. -/
def Dev.spendMac (d : Dev) (c t : Nat) (quarter : Bool) (n : Nat) : Dev :=
  d.spend (d.taskPipe c t) true (n * d.rd ((if quarter then Reg.PWR_C_MAC16 else Reg.PWR_C_MAC8).at []))

/-- `n` scratchpad row accesses of a task. -/
def Dev.spendSp (d : Dev) (c t n : Nat) : Dev := d.spend (d.taskPipe c t) true (n * d.rd (Reg.PWR_C_SP.at []))

/-- `n` LPDDR6 bytes of a master. -/
def Dev.spendDdr (d : Dev) (master n : Nat) : Dev := d.spend (d.masterPipe master) false (n * d.rd (Reg.PWR_C_DDR.at []))

/-- `n` LPDDR6 bytes of an input port, a host copy or a mirrored frame: no pipeline has caused them. -/
def Dev.spendFrame (d : Dev) (n : Nat) : Dev := d.spend none false (n * d.rd (Reg.PWR_C_DDR.at []))

/-- A stripe cache access of a master. -/
def Dev.spendSc (d : Dev) (master : Nat) : Dev := d.spend (d.masterPipe master) false (d.rd (Reg.PWR_C_SC.at []))

/-- `n` multiply-accumulates of a boundary engine. -/
def Dev.spendBe (d : Dev) (e n : Nat) : Dev := d.spend (d.masterPipe (0x180 + e)) false (n * d.rd (Reg.PWR_C_BE.at []))

/-- Sum of an energy table. -/
def energySum (t : Tab Nat) : Nat := t.foldl (fun n e => n + e.2) 0

end Sys2Proof.Machine
end

