-- ==== Sys2Proof/Machine/CoreArray.lean ====
section
/-! DEFINITION. Array instructions MMA, MMAT and DWB (R36 to R39, R46 to R50, R74 to R80). -/

namespace Sys2Proof.Machine

/-- Execution that may stop at a word with a double-bit error (R103). -/
structure Run where
  d : Dev
  bad : Bool
  deriving DecidableEq, Repr

def Run.ok (d : Dev) : Run := ⟨d, false⟩

/-- Goes on unless execution has stopped. -/
def Run.andThen (r : Run) (f : Dev → Run) : Run := if r.bad then r else f r.d

/-- `f` for each element in order, stopping at the first that stops. -/
def Run.each {α : Type} (r : Run) (l : List α) (f : α → Dev → Run) : Run := l.foldl (fun r a => r.andThen (f a)) r

/-- Reads scratchpad bytes of the own core; none when a word holds a double-bit error (R158, R160). -/
def Dev.spRead (d : Dev) (c off n : Nat) : Option Bytes × Dev :=
  let r := d.spCheck c off n
  match r.1 with
  | some _ => (none, r.2)
  | none => (some (r.2.bytes (spAddr c off) n), r.2)

/-- Reads a list of byte runs of the own scratchpad and joins them. -/
def Dev.spReadAll (d : Dev) (c : Nat) (runs : List (Nat × Nat)) : Option (List Bytes) × Dev :=
  runs.foldl (fun acc r =>
    match acc.1 with
    | none => acc
    | some l =>
      let q := acc.2.spRead c r.1 r.2
      (q.1.map (fun b => l ++ [b]), q.2)) (some [], d)

/-- Groups of 32 consecutive K indices (R46). -/
def groups32 {α : Type} (l : List α) : List (List α) :=
  (List.range ((l.length + 31) / 32)).map (fun i => (l.drop (32 * i)).take 32)

/-- One result of a group: its rounded sum, scaled for MX weights (R46 steps 3 and 4, R43, R44). -/
def groupResult (wfmt : Nat) (scale : Nat) (products : List Num) : Word :=
  let s := round32 (groupSum products)
  if !isMx wfmt then s
  else if scale = 255 then nan32
  else round32 ((num32 s).scale ((scale : Int) - 127 - (if wfmt = 6 then 6 else 0)))

/-- Accumulates one element (R46, R47): its old bits, the activation row, the weight column and its block scales. -/
def accumulate (afmt wfmt : Nat) (old : Word) (row col : List Num) (scales : List Nat) : Word × Flags :=
  let products := (row.zip col).map (fun p => p.1.mul p.2)
  if pairInt afmt wfmt then
    let sum := products.foldl (fun acc p => acc + p.floor) (0 : Int)
    let r := satInt 32 (old.toInt + sum)
    (BitVec.ofInt 32 r.1, { accSat := r.2 })
  else
    let gs := groups32 products
    let r := (gs.zip (scales ++ List.replicate gs.length 0)).foldl (fun acc g => add32 acc (groupResult wfmt g.2 g.1)) old
    (r, { nanAcc := isNan32 r })

/-- Updates one accumulator element; a double-bit error in a word that is read stops execution (R64, R103). -/
def Dev.accElem (d : Dev) (c idx : Nat) (zero : Bool) (f : Word → Word × Flags) : Run :=
  let m := Tab.get 0 (d.core c).ecc idx
  if m = 2 && !zero then ⟨d, true⟩
  else
    let r := f (if zero then 0 else Tab.get 0 (d.core c).acc idx)
    let d := d.onCore c (fun k => { k with acc := Tab.put 0 k.acc idx r.1, ecc := Tab.put 0 k.ecc idx 0 })
    .ok (d.mcFlags c { r.2 with eccCorr := m = 1 && !zero })

/-- One MMA update (R46): decoded weight columns with their block scales, activation rows, masks, and the accumulator row of row `m`. -/
def Dev.tileUpdate (d : Dev) (x : Ctx) (afmt wfmt : Nat) (zero : Bool) (rowMask colMask : BitVec 64) (nm : Nat)
    (readRow : Nat → Dev → Option (List Num) × Dev) (cols : List (List Num × List Nat)) (accRow : Nat → Nat) : Run :=
  (Run.ok d).each (List.range nm) (fun m d =>
    let q := readRow m d
    match q.1 with
    | none => ⟨q.2, true⟩
    | some row =>
      if !rowMask.getLsbD m then .ok q.2
      else (Run.ok q.2).each (List.zip (List.range cols.length) cols) (fun nc d =>
        if !colMask.getLsbD nc.1 then .ok d
        else d.accElem x.c (accRow m + nc.1) zero (fun old => accumulate afmt wfmt old row nc.2.1 nc.2.2)))

/-- The fields MMA and MMAT share (R74, R77), decoded. -/
structure MmaArgs where
  afmt : Nat
  wfmt : Nat
  m : Nat
  n : Nat
  k : Nat
  zero : Bool
  slot : Nat
  deriving DecidableEq, Repr

def Ctx.mma (x : Ctx) : MmaArgs :=
  ⟨x.f 8 4, x.f 12 4, x.f 32 6 + 1, x.f 38 6 + 1, x.f 44 7 + 1, x.f 31 1 = 1, x.f 28 3⟩

/-- One problem or tap: offsets of its activation rows (row 0), its weight tile and its scale tile, first accumulator row, ZERO. -/
structure Problem where
  act : Int
  wgt : Int
  scl : Int
  row : Nat
  zero : Bool
  deriving DecidableEq, Repr

/-- Slot index and row that accumulator row `r` counted from slot SLOT reaches, as an accumulator index of the core (R49, R50). -/
def Dev.accIndex (d : Dev) (x : Ctx) (slot r : Nat) : Nat :=
  (d.rd (Reg.MC_ACC_BASE.at (cix x.c [x.t])) + slot + r / 64) * 4096 + r % 64 * 64

/-- Slot index `i` lies in the partition of the task (R50). -/
def Dev.slotOk (d : Dev) (x : Ctx) (i : Nat) : Bool :=
  i < min (d.rd (Reg.MC_ACC_CNT.at (cix x.c [x.t]))) 8 && d.rd (Reg.MC_ACC_BASE.at (cix x.c [x.t])) + i ≤ 7

/-- MAC counter (R66) and its energy (R353). -/
def Dev.countMac (d : Dev) (c t : Nat) (quarter : Bool) (n : Nat) : Dev :=
  if d.bit (Reg.MC_CNT_HOLD.at (cix c)) then d
  else (d.onCore c (fun k => { k with mac := trunc 64 (k.mac + n) })).spendMac c t quarter n

/-- SP_ACCESS and BUSY after an array or vector instruction: the accesses and cycles are timing and take free values (log 22). -/
def Dev.countTiming (d : Dev) (c t : Nat) (array : Bool) : Dev :=
  if d.bit (Reg.MC_CNT_HOLD.at (cix c)) then d
  else
    let d := ((d.inc (Reg.MC_SP_ACCESS.at (cix c)) (d.freeVal 32)).spendSp c t (d.freeVal 32)).useFree
    if array then (d.inc (Reg.MC_BUSY.at (cix c)) (d.freeVal 32)).useFree else d

/-- Ends an instruction that may have stopped at a double-bit error (R103). -/
def Run.finish (r : Run) (x : Ctx) : Dev := if r.bad then r.d.freezeDed x.c x.t x.pc else r.d

/-- The array uses its weight registers (R64): `n` columns of `bytes` bytes. A word with a single-bit error is corrected, a word with a double-bit error stops
execution. Loading and using a tile is one step here, so a mark stands for an error that arises in between (log 131). -/
def Dev.useWeights (d : Dev) (c n bytes : Nat) : Run :=
  if (d.core c).ecc.isEmpty then .ok d
  else
    let keys := (List.range n).flatMap (fun (i : Nat) => (List.range ((bytes + 3) / 4)).map (fun (j : Nat) => 0x40000 + 64 * i + j))
    let mark (k : Nat) : Nat := Tab.get 0 (d.core c).ecc k
    if keys.any (fun k => mark k = 2) then ⟨d, true⟩
    else
      let hit := keys.any (fun k => mark k = 1)
      .ok ((d.onCore c (fun q => { q with ecc := q.ecc.filter (fun e => !(keys.contains e.1)) })).mcFlags c { eccCorr := hit })

/-- Runs a list of problems over resolved addresses: `rowRuns` gives the byte runs of activation row `m` relative to the activation address. -/
def Dev.runProblems (d : Dev) (x : Ctx) (a : MmaArgs) (actBase wgtBase sclBase : Nat)
    (rowMask colMask : BitVec 64) (srow : Int) (ps : List Problem) : Run :=
  let nb := (a.k + 31) / 32
  (Run.ok d).each ps (fun p d =>
    let wruns := (List.range a.n).map (fun n => ((wgtBase + p.wgt).toNat + n * weightPitch a.wfmt, fmtBytes a.wfmt a.k))
    let w := d.spReadAll x.c wruns
    let sruns := if isMx a.wfmt then (List.range nb).map (fun b => ((sclBase + p.scl).toNat + b * 64, a.n)) else []
    match w.1 with
    | none => ⟨w.2, true⟩
    | some wb =>
      let q := w.2.spReadAll x.c sruns
      match q.1 with
      | none => ⟨q.2, true⟩
      | some sb =>
        let cols := (List.zip (List.range a.n) wb).map (fun nw =>
          ((unpackElems a.wfmt nw.2 a.k).map (elemNum a.wfmt), sb.map (fun row => (row.getD nw.1 0).toNat)))
        (q.2.useWeights x.c a.n (fmtBytes a.wfmt a.k)).andThen (fun e =>
          e.tileUpdate x a.afmt a.wfmt p.zero rowMask colMask a.m
            (fun m d =>
              let r := d.spRead x.c ((actBase + p.act + m * srow).toNat) (fmtBytes a.afmt a.k)
              (r.1.map (fun b => (unpackElems a.afmt b a.k).map (elemNum a.afmt)), r.2))
            cols (fun m => d.accIndex x a.slot (p.row + m))))

/-- The spans a list of problems reads (R72, R75, R78). -/
def problemSpans (a : MmaArgs) (act wgt : Loc) (scl : Option Loc) (actOff wgtOff sclOff srow : Int) (ps : List Problem) : List Span :=
  let nb := (a.k + 31) / 32
  ps.flatMap (fun p =>
    (List.range a.m).map (fun (m : Nat) => (⟨act, actOff + p.act + m * srow, fmtBytes a.afmt a.k⟩ : Span)) ++
    (List.range a.n).map (fun (n : Nat) => (⟨wgt, wgtOff + p.wgt + (n * weightPitch a.wfmt : Nat), fmtBytes a.wfmt a.k⟩ : Span)) ++
    match scl with
    | none => []
    | some l => (List.range nb).map (fun (b : Nat) => (⟨l, sclOff + p.scl + (b * 64 : Nat), a.n⟩ : Span)))

/-- First scratchpad byte of an own location. -/
def Loc.base : Loc → Nat
  | .own b _ => b
  | .remote _ _ _ _ _ => 0

/-- The problems of MMA (R75). -/
def mmaProblems (x : Ctx) : List Problem :=
  let a := x.mma
  (List.range (x.f 64 8 + 1)).map (fun (p : Nat) =>
    ⟨p * x.k.sv (x.f 72 3), p * x.k.sv (x.f 75 3), (p * (64 * ((a.k + 31) / 32)) : Nat), x.f 78 6 + p * x.f 84 6, a.zero⟩)

/-- The taps of MMAT, ty outer and tx inner (R78). -/
def mmatTaps (x : Ctx) : List Problem :=
  let a := x.mma
  let fh := x.f 64 4 + 1
  let fw := x.f 68 4 + 1
  let dy := x.f 72 4 + 1
  let dx := x.f 76 4 + 1
  (List.range fh).flatMap (fun (ty : Nat) => (List.range fw).map (fun (tx : Nat) =>
    let t := ty * fw + tx
    ⟨(ty * dy : Nat) * x.k.sv (x.f 80 3) + (tx * dx : Nat) * x.k.sv (x.f 83 3), t * x.k.sv (x.f 86 3),
      (t * (64 * ((a.k + 31) / 32)) : Nat), x.f 89 6, a.zero && t = 0⟩))

/-- The sizes of DWB (R79, R80). -/
structure DwbArgs where
  m : Nat
  g : Nat
  ci : Nat
  co : Nat
  fh : Nat
  fw : Nat
  dy : Nat
  dx : Nat
  deriving DecidableEq, Repr

def Ctx.dwb (x : Ctx) : DwbArgs :=
  ⟨x.f 32 6 + 1, x.f 38 6 + 1, x.f 44 6 + 1, x.f 50 6 + 1, x.f 64 4 + 1, x.f 68 4 + 1, x.f 72 4 + 1, x.f 76 4 + 1⟩

/-- Offsets of the taps of output row `m`, relative to A[AACT] (R80). -/
def dwbTapOffsets (x : Ctx) (m : Nat) : List Int :=
  let a := x.dwb
  (List.range a.fh).flatMap (fun (ty : Nat) => (List.range a.fw).map (fun (tx : Nat) =>
    (ty * a.dy : Nat) * x.k.sv (x.f 80 3) + (tx * a.dx : Nat) * x.k.sv (x.f 83 3) + m * x.k.sv (x.f 56 3)))

/-- The column of the block-diagonal weight array (R80): cell k of column n. -/
def dwbColumn (a : DwbArgs) (w : List Num) (n : Nat) : List Num :=
  let taps := a.fh * a.fw
  (List.range (taps * a.g * a.ci)).map (fun k =>
    let t := k / (a.g * a.ci)
    let g := k / a.ci % a.g
    let ci := k % a.ci
    if n / a.co = g then w.getD (((t * a.g + g) * a.ci + ci) * a.co + n % a.co) (.fin false 0 0) else .fin false 0 0)

/-- The problems of MMA or the taps of MMAT. -/
def arrProblems (x : Ctx) : List Problem := if x.f 0 8 = 0x10 then mmaProblems x else mmatTaps x

/-- The accumulator rows an array instruction updates, counted from its slot (R75, R78, R80). -/
def arrRows (x : Ctx) : List Nat :=
  let op := x.f 0 8
  if op = 0x10 then (mmaProblems x).flatMap (fun p => (List.range x.mma.m).map (fun m => p.row + m))
  else if op = 0x11 then (List.range x.mma.m).map (fun m => x.f 89 6 + m)
  else [x.f 89 6]

/-- The spans DWB reads (R80), with its two locations. -/
def Dev.dwbSpans (d : Dev) (x : Ctx) : Option (Loc × Loc × List Span) :=
  let a := x.dwb
  let aact := x.k.av (x.f 16 4)
  let awgt := x.k.av (x.f 20 4)
  match d.resolve x.c x.t aact false, d.resolve x.c x.t awgt false with
  | some la, some lw =>
    some (la, lw, (List.range a.m).flatMap (fun m => (dwbTapOffsets x m).map (fun o =>
      (⟨la, aOffset aact + o, fmtBytes (x.f 8 4) (a.g * a.ci)⟩ : Span))) ++
      [⟨lw, aOffset awgt, fmtBytes (x.f 12 4) (a.fh * a.fw * a.g * a.ci * a.co)⟩])
  | _, _ => none

/-- The spans MMA and MMAT read (R72, R75, R78), with their locations. -/
def Dev.mmaSpans (d : Dev) (x : Ctx) : Option (Loc × Loc × Option Loc × List Span) :=
  let a := x.mma
  let aact := x.k.av (x.f 16 4)
  let awgt := x.k.av (x.f 20 4)
  let ascl := x.k.av (x.f 24 4)
  match d.resolve x.c x.t aact false, d.resolve x.c x.t awgt false,
    (if isMx a.wfmt then (d.resolve x.c x.t ascl false).map some else some none) with
  | some la, some lw, some ls =>
    some (la, lw, ls, problemSpans a la lw ls (aOffset aact) (aOffset awgt) (aOffset ascl) (x.k.sv (x.f 57 3)) (arrProblems x))
  | _, _, _ => none

/-- The checks of an array instruction at issue (R50, R72, R102, R138, R139). -/
def Dev.arrCheck (d : Dev) (x : Ctx) : Check :=
  if !(arrRows x).all (fun r => d.slotOk x (x.f 28 3 + r / 64)) then .fault fAccRange
  else
    match (if x.f 0 8 = 0x12 then (d.dwbSpans x).map (fun r => r.2.2) else (d.mmaSpans x).map (fun r => r.2.2.2)) with
    | none => .fault fHandle
    | some l => d.checkSpans x.c l

/-- Executes an MMA or MMAT that has issued (R46, R66, R75, R78). -/
def Dev.runMma (d : Dev) (x : Ctx) : Dev :=
  match d.mmaSpans x with
  | none => d
  | some (la, lw, ls, _) =>
    let a := x.mma
    let d := (d.countMac x.c x.t (pairRate a.afmt a.wfmt = some 4) ((arrProblems x).length * (a.m * a.k * a.n))).countTiming x.c x.t true
    (d.runProblems x a (la.base + aOffset (x.k.av (x.f 16 4))) (lw.base + aOffset (x.k.av (x.f 20 4)))
      ((ls.map Loc.base).getD 0 + aOffset (x.k.av (x.f 24 4))) (x.k.pv (x.f 51 3)) (x.k.pv (x.f 54 3)) (x.k.sv (x.f 57 3)) (arrProblems x)).finish x

/-- Executes a DWB that has issued (R66, R80). -/
def Dev.runDwb (d : Dev) (x : Ctx) : Dev :=
  match d.dwbSpans x with
  | none => d
  | some (la, lw, _) =>
    let a := x.dwb
    let afmt := x.f 8 4
    let wfmt := x.f 12 4
    let kk := a.fh * a.fw * a.g * a.ci
    let actBase := la.base + aOffset (x.k.av (x.f 16 4))
    let d := (d.countMac x.c x.t (pairRate afmt wfmt = some 4) (a.m * kk * (a.g * a.co))).countTiming x.c x.t true
    let w := d.spRead x.c (lw.base + aOffset (x.k.av (x.f 20 4))) (fmtBytes wfmt (kk * a.co))
    match w.1 with
    | none => (Run.mk w.2 true).finish x
    | some wb =>
      let ws := (unpackElems wfmt wb (kk * a.co)).map (elemNum wfmt)
      let cols := (List.range (a.g * a.co)).map (fun n => (dwbColumn a ws n, ([] : List Nat)))
      ((w.2.useWeights x.c (a.g * a.co) (fmtBytes wfmt kk)).andThen (fun d =>
        d.tileUpdate x afmt wfmt (x.f 31 1 = 1) (x.k.pv (x.f 59 3)) (x.k.pv (x.f 86 3)) a.m
          (fun m d =>
            let r := d.spReadAll x.c ((dwbTapOffsets x m).map (fun (o : Int) => (((actBase : Int) + o).toNat, fmtBytes afmt (a.g * a.ci))))
            (r.1.map (fun l => l.flatMap (fun b => (unpackElems afmt b (a.g * a.ci)).map (elemNum afmt))), r.2))
          cols (fun m => d.accIndex x (x.f 28 3) (x.f 89 6 + m)))).finish x

/-- Executes an array instruction that has issued. -/
def Dev.runArr (d : Dev) (x : Ctx) : Dev := if x.f 0 8 = 0x12 then d.runDwb x else d.runMma x

/-! ### Interlocks with the vector unit (R39, R70) -/

/-- Slots of the accumulator memory that rows counted from slot `slot` of the task's partition lie in. -/
def Dev.slotsAt (d : Dev) (x : Ctx) (slot : Nat) (rows : List Nat) : List Nat :=
  rows.map (fun r => d.rd (Reg.MC_ACC_BASE.at (cix x.c [x.t])) + slot + r / 64)

/-- Slots a DRAIN reads (R82). -/
def Dev.drainSlots (d : Dev) (x : Ctx) : List Nat := d.slotsAt x (x.f 28 3) ((List.range (x.f 38 6 + 1)).map (fun m => x.f 32 6 + m))

/-- An array instruction that issues has to wait in the array unit: behind one that waits already, or because the instruction in the waiting place of the vector unit is a
DRAIN of a slot it updates (R39), or writes through a handle of the same task that it reads through (R70). -/
def Dev.arrWaits (d : Dev) (x : Ctx) : Bool :=
  !(d.core x.c).arrQ.isEmpty ||
  (d.core x.c).vecNext.any (fun j =>
    (ifld j.ins 0 8 = 0x20 && (d.slotsAt x (x.f 28 3) (arrRows x)).any (fun i => (d.drainSlots ⟨x.c, j.task, j.pc, j.ins, j.regs⟩).contains i)) ||
    (j.task = x.t && (arrReadKeys x.ins x.k).contains (vecDest j.ins j.regs)))

/-- Issues an array instruction (R69): it executes, or waits for the vector unit in one of the two places of the array unit; with both taken it does not issue. -/
def Dev.issueArr (d : Dev) (c op : Nat) : Dev :=
  d.issue c op (fun x d =>
    match d.arrCheck x with
    | .fault code => d.freezeCore x.c code x.t x.pc
    | .wait => d
    | .ok =>
      if !d.arrWaits x then ((d.issued x).advance x x.pc).runArr x
      else if 2 ≤ (d.core c).arrQ.length then d
      else ((d.issued x).onCore c (fun k => { k with arrQ := k.arrQ ++ [⟨x.t, x.pc, x.ins, x.k⟩] })).advance x x.pc)

/-- MMA (R75). -/
def execMma (c : Fin 72) (s : State) : Host.Outcome State Fault Refusal := s.act (fun d => d.issueArr c 0x10)

/-- MMAT (R78). -/
def execMmat (c : Fin 72) (s : State) : Host.Outcome State Fault Refusal := s.act (fun d => d.issueArr c 0x11)

/-- DWB (R80). -/
def execDwb (c : Fin 72) (s : State) : Host.Outcome State Fault Refusal := s.act (fun d => d.issueArr c 0x12)

end Sys2Proof.Machine
end

