-- ==== Sys2Proof/Machine/CoreVector.lean ====
section
/-! DEFINITION. Vector instructions DRAIN, VADD, VPOOL, VCVT and VPAD (R52 to R60, R81 to R86), the packing of writes (R148) and accumulate-on-write (R153). -/

namespace Sys2Proof.Machine

/-! ### Packing of writes (R148) -/

/-- An element to be written: byte offset in its buffer and data. -/
abbrev Elem := Int × Bytes

/-- Inserts an element by ascending offset, after those of the same offset. -/
def insertElem (e : Elem) : List Elem → List Elem
  | [] => [e]
  | f :: l => if e.1 < f.1 then e :: f :: l else f :: insertElem e l

/-- Elements in ascending address order. -/
def sortElems (l : List Elem) : List Elem := l.foldl (fun acc e => insertElem e acc) []

/-- Packs sorted elements into runs that end at a row boundary, at a gap or at 512 bytes (R148). `base` is the byte of offset 0 within its row. -/
def packElems (base : Nat) (l : List Elem) : List Elem :=
  (l.foldl (fun acc e => match acc with
    | [] => [e]
    | r :: rest =>
      if r.1 + r.2.length = e.1 && decide (r.2.length + e.2.length ≤ 512) &&
          ((base : Int) + e.1) / 512 = ((base : Int) + r.1) / 512 then (r.1, r.2 ++ e.2) :: rest
      else e :: r :: rest) []).reverse

/-- Splits an element at row boundaries so that each part lies in one destination row. -/
def splitRows (base : Nat) (e : Elem) : List Elem :=
  let start := ((base : Int) + e.1) % 512
  let room := (512 - start).toNat
  if e.2.length ≤ room then [e] else [(e.1, e.2.take room), (e.1 + room, e.2.drop room)]

/-- The transactions of a list of elements (R148). Elements to be added at the destination stay whole, since each is added as one (R153, R154; log 73). -/
def packAll (base aow : Nat) (l : List Elem) : List Elem :=
  packElems base (if aow = 0 then (sortElems l).flatMap (splitRows base) else sortElems l)

/-! ### Destinations -/

/-- Writes a packed run to the own scratchpad, plain or by accumulate-on-write (R153, R154, R158). -/
def Dev.writeOwn (d : Dev) (c off aow : Nat) (data : Bytes) : Dev :=
  if aow = 0 then d.spWrite c off data
  else upTo (data.length / 4) (fun i d =>
    d.spAccum c (off + 4 * i) aow (BitVec.ofNat 32 (leNat ((data.drop (4 * i)).take 4)))) d

/-- Cores a TCORE value reaches: one core, or the members of a multicast group (R217). -/
def Dev.targets (d : Dev) (tcore : Nat) : List Nat :=
  if tcore < 72 then [tcore]
  else
    let g := tcore - 72
    let mem := d.rd (Reg.CL_MCG_MEMBERS.at [g / 7, g % 7])
    (List.range 9).filterMap (fun k => if mem.testBit k then some (9 * (g / 7) + k) else none)

/-- A multicast group whose VALID is 0 (R152). -/
def Dev.badGroup (d : Dev) (tcore : Nat) : Bool :=
  72 ≤ tcore && !d.bit (Reg.CL_MCG_VALID.at [(tcore - 72) / 7, (tcore - 72) % 7])

/-- A transaction leaves its writer; a multicast group's reaches every member (R217). -/
def Dev.sendTxn (d : Dev) (src : Node) (t : Txn) : Dev :=
  if d.badGroup t.tcore then d.send src .none (.write t)
  else (d.targets t.tcore).foldl (fun d c => d.send src (.core c) (.write t)) d

/-- A tag update leaves its writer; a multicast group's reaches every member (R217). -/
def Dev.sendTag (d : Dev) (src : Node) (u : TagUpd) : Dev :=
  if d.badGroup u.tcore then d.send src .none (.tag u)
  else (d.targets u.tcore).foldl (fun d c => d.send src (.core c) (.tag u)) d

/-- The DRAIN that waited for credit has sent everything: releases behind it alone wait for nothing more (R93). -/
def Core.drained (k : Core) : Core :=
  { k with drainQ := [], releases := k.releases.map (fun r => if r.behind = 1 then { r with behind := 0 } else r) }

/-- The unit places of a core without the waiting instructions of task `t`, which is halted (R181). -/
def Core.dropWaiting (t : Nat) (k : Core) : Core :=
  { k with drainQ := k.drainQ.filter (fun x => x.task != t), vecNext := k.vecNext.filter (fun j => j.task != t),
           arrQ := k.arrQ.filter (fun j => j.task != t) }

/-- Sends what a core's DRAIN has waiting while its route holds credit (R148); when nothing waits any more its task is READY. -/
def Dev.pumpDrain (d : Dev) (c : Nat) : List Txn → Dev
  | [] =>
    let d := d.onCore c Core.drained
    upTo 8 (fun t d => if d.tstate c t = tWaitCredit then d.makeReady c t else d) d
  | t :: rest =>
    let r := t.route.getD 0
    let cred := d.rd (Reg.SP_OUTRT_CRED.at (cix c [r]))
    if cred = 0 then
      (d.set (Reg.SP_OUTRT_WAITING.at (cix c [r])) true).onCore c (fun k => { k with drainQ := t :: rest })
    else
      let d := (d.wr (Reg.SP_OUTRT_CRED.at (cix c [r])) (cred - 1)).set (Reg.SP_OUTRT_WAITING.at (cix c [r])) false
      (d.sendTxn (.core c) t).pumpDrain c rest

/-- Sends the transactions of a remote DRAIN; without credit its task waits in WAIT_CREDIT (R148). A task that stands in another wait, or is IDLE, keeps that state while it lasts
(log 172). -/
def Dev.sendRemote (d : Dev) (x : Ctx) (runs : List Elem) (aow tcore handle route half : Nat) : Dev :=
  let txns := runs.map (fun e => (⟨x.c, aow, some route, tcore, handle, half, e.1.toNat, e.2, x.t, x.pc, []⟩ : Txn))
  let d := d.pumpDrain x.c txns
  if (d.core x.c).drainQ.isEmpty then d
  else if d.tstate x.c x.t = tRun || d.tstate x.c x.t = tReady then d.block x tWaitCredit .credit
  else d

/-! ### Element conversion -/

/-- Curve table `i` of a core (R56, R65). -/
def Dev.mcCurve (d : Dev) (c i : Nat) : Curve :=
  ⟨BitVec.ofNat 32 (d.rd (Reg.MC_CURVE_X0.at (cix c [i]))), BitVec.ofNat 32 (d.rd (Reg.MC_CURVE_ISTEP.at (cix c [i]))),
    d.rd (Reg.MC_CURVE_LO_MODE.at (cix c [i])), d.rd (Reg.MC_CURVE_HI_MODE.at (cix c [i]))⟩

/-- Entries a curve evaluation reads (R56). -/
def curveReads (k : Curve) (v : Word) : List Nat :=
  let n := num32 (mul32 (sub32 v k.x0) k.istep)
  if n.isNan then []
  else if n.lt (.fin false 0 0) then (if k.loMode = 1 || k.loMode = 2 then [] else [0])
  else if !(n.lt (.fin false 255 0)) then (if k.hiMode = 1 || k.hiMode = 2 then [] else [255])
  else [n.floor.toNat, n.floor.toNat + 1]

/-- An activation with its operands: kind, curve table, clamp bounds (R53 stage 3). -/
structure Act where
  kind : Nat
  curve : Nat
  lo : Word
  hi : Word
  deriving DecidableEq, Repr

/-- Stages 3 and 4 of R53 on one value; none at a curve entry with a double-bit error (R64). -/
def Dev.finishElem (d : Dev) (c : Nat) (a : Act) (ofmt : Nat) (v : Word) : Option (Nat × Flags) :=
  let k := d.mcCurve c a.curve
  let reads := if a.kind = 3 then curveReads k v else []
  let mark (j : Nat) : Nat := Tab.get 0 (d.core c).ecc (0x20000 + a.curve * 256 + j)
  if reads.any (fun j => mark j = 2) then none
  else
    let r := if a.kind = 3 then evalCurve k (fun j => Tab.get 0 (d.core c).curve (a.curve * 256 + j)) v
      else applyAct a.kind a.lo a.hi v
    let o := outConv ofmt r
    some (o.1, { o.2 with eccCorr := reads.any (fun j => mark j = 1) })

/-- Elements produced so far; `stop` once execution has met a double-bit error (R103). -/
structure Out where
  d : Dev
  elems : List Elem := []
  stop : Bool := false
  deriving DecidableEq, Repr

/-- Produces one element unless execution has stopped. -/
def Out.step (o : Out) (f : Dev → Option Elem × Dev) : Out :=
  if o.stop then o
  else
    let r := f o.d
    match r.1 with
    | none => { o with d := r.2, stop := true }
    | some e => { o with d := r.2, elems := e :: o.elems }

/-- A byte offset relative to an own location. -/
def ownAt (base : Nat) (off : Int) : Nat := ((base : Int) + off).toNat

/-- Reads one element of an own buffer. -/
def Dev.readElem (d : Dev) (c base : Nat) (off : Int) (bytes : Nat) : Option Nat × Dev :=
  let r := d.spRead c (ownAt base off) bytes
  (r.1.map leNat, r.2)

/-! ### DRAIN (R81, R82) -/

structure DrainArgs where
  ofmt : Nat
  conv : Bool
  aow : Nat
  accf : Bool
  slot : Nat
  row0 : Nat
  rows : Nat
  cols : Nat
  sdst : Int
  bmode : Nat
  smode : Nat
  act : Act
  d2s : Nat
  b : Nat
  si : Nat
  deriving DecidableEq, Repr

def drainArgs (x : Ctx) : DrainArgs :=
  ⟨x.f 8 4, x.f 12 1 = 1, if x.f 13 1 = 1 then (if x.f 14 1 = 1 then 2 else 1) else 0, x.f 14 1 = 1, x.f 28 3, x.f 32 6,
    x.f 38 6 + 1, x.f 44 6 + 1, x.k.sv (x.f 50 3), x.f 53 2, x.f 55 2,
    ⟨x.f 57 3, x.f 60 2, x.k.gv (x.f 64 3), x.k.gv (x.f 67 3)⟩, x.f 70 2, x.f 72 2 + 2, x.f 74 2⟩

/-- Destination of the element of row m and column n, relative to ADST (R82). -/
def drainDest (a : DrainArgs) (m n : Nat) : Int :=
  let e := fmtBytes a.ofmt 1
  if a.d2s = 0 then m * a.sdst + (n * e : Nat)
  else if a.d2s = 1 then
    let cc := a.cols / (a.b * a.b)
    let i := n / cc / a.b
    let j := n / cc % a.b
    i * a.sdst + (((a.b * m + j) * cc + n % cc) * e : Nat)
  else ((m / a.b * (a.b * a.b) * a.cols * e + ((a.si * a.b + m % a.b) * a.cols + n) * e : Nat) : Int)

/-- The value of one element before its conversion (R53 stages 1 and 2), of a float or an integer accumulator: bias and scale words where their modes read them. -/
def scaleElem (accf : Bool) (acc : Word) (bias : Option Word) (scale : Option Word) : Word × Flags :=
  let s := scale.getD 0x3F800000
  if accf then
    let v := match bias with
      | some b => add32 acc b
      | none => acc
    (mul32 v s, {})
  else
    let r := match bias with
      | some b => satInt 32 (acc.toInt + b.toInt)
      | none => (acc.toInt, false)
    (round32 ((Num.ofInt r.1).mul (num32 s)), { accSat := r.2 })

/-- An own location with the offset of its address register, or 0 where the operand is not read. -/
def vecBase (l : Option Loc) (w : Word) : Nat := (l.map Loc.base).getD 0 + aOffset w

/-- One element of DRAIN: reads the accumulator word, bias and scale, converts (R53, R82). -/
def Dev.drainElem (d : Dev) (x : Ctx) (a : DrainArgs) (biasBase scaleBase m n : Nat) : Option Elem × Dev :=
  let idx := d.accIndex x a.slot (a.row0 + m) + n
  let mark := Tab.get 0 (d.core x.c).ecc idx
  if mark = 2 then (none, d)
  else
    let d := d.mcFlags x.c { eccCorr := mark = 1 }
    let acc := Tab.get 0 (d.core x.c).acc idx
    if !a.conv then (some (drainDest a m n, leBytes 4 acc.toNat), d)
    else
      let rb := if a.bmode = 0 then (some none, d) else
        (match d.readElem x.c (biasBase + (if a.bmode = 2 then 4 * n else 0)) 0 4 with
        | (none, d) => ((none : Option (Option Word)), d)
        | (some v, d) => (some (some (BitVec.ofNat 32 v)), d))
      match rb.1 with
      | none => (none, rb.2)
      | some bias =>
        let rs := if a.smode = 0 then (some none, rb.2) else
          (match rb.2.readElem x.c (scaleBase + (if a.smode = 2 then 4 * n else 0)) 0 4 with
          | (none, d) => ((none : Option (Option Word)), d)
          | (some v, d) => (some (some (BitVec.ofNat 32 v)), d))
        match rs.1 with
        | none => (none, rs.2)
        | some scale =>
          let v := scaleElem a.accf acc bias scale
          match rs.2.finishElem x.c a.act a.ofmt v.1 with
          | none => (none, rs.2)
          | some o => (some (drainDest a m n, leBytes (fmtBytes a.ofmt 1) o.1), rs.2.mcFlags x.c (v.2.or o.2))

/-- Writes the elements an instruction produced and ends it. -/
def Dev.commitElems (o : Out) (x : Ctx) (dst : Loc) (dstOff : Nat) (aow : Nat) : Dev :=
  let elems := o.elems.reverse.map (fun e => ((dstOff : Int) + e.1, e.2))
  let d := match dst with
    | .own base _ => (packAll base aow elems).foldl (fun d e => d.writeOwn x.c (ownAt base e.1) aow e.2) o.d
    | .remote tc h r half _ => o.d.sendRemote x (packAll 0 aow elems) aow tc h r half
  if o.stop then d.freezeDed x.c x.t x.pc else d

/-- The checks of DRAIN at issue and its resolved addresses (R50, R72, R138, R139). -/
def Dev.drainCheck (d : Dev) (x : Ctx) : Check × Option (Loc × Nat × Nat) :=
  let a := drainArgs x
  let adst := x.k.av (x.f 16 4)
  let abias := x.k.av (x.f 20 4)
  let ascl := x.k.av (x.f 24 4)
  if !d.slotOk x a.slot then (.fault fAccRange, none)
  else
    match d.resolve x.c x.t adst true,
      (if a.conv && a.bmode != 0 then (d.resolve x.c x.t abias false).map some else some none),
      (if a.conv && a.smode != 0 then (d.resolve x.c x.t ascl false).map some else some none) with
    | some ld, some lb, some ls =>
      let vec (mode : Nat) (l : Option Loc) (w : Word) : List Span :=
        match l with
        | none => []
        | some q => [⟨q, aOffset w, if mode = 2 then 4 * a.cols else 4⟩]
      let dst := (List.range a.rows).flatMap (fun m => (List.range a.cols).map (fun n =>
        (⟨ld, aOffset adst + drainDest a m n, fmtBytes a.ofmt 1⟩ : Span)))
      (d.checkSpans x.c (dst ++ vec a.bmode lb abias ++ vec a.smode ls ascl),
        some (ld, vecBase lb abias, vecBase ls ascl))
    | _, _, _ => (.fault fHandle, none)

/-- Executes a DRAIN that has issued (R82). -/
def Dev.runDrain (d : Dev) (x : Ctx) (dst : Loc) (biasBase scaleBase : Nat) : Dev :=
  let a := drainArgs x
  let o := (List.range a.rows).foldl (fun o m =>
    (List.range a.cols).foldl (fun (o : Out) n => o.step (fun d => d.drainElem x a biasBase scaleBase m n)) o) ({ d := d } : Out)
  Dev.commitElems o x dst (aOffset (x.k.av (x.f 16 4))) a.aow

/-! ### VADD and VCVT (R83, R60) -/

def Dev.vaddElem (d : Dev) (x : Ctx) (bx yb i : Nat) : Option Elem × Dev :=
  let xf := x.f 8 4
  let yf := x.f 28 4
  let e := fmtBytes (x.f 12 4) 1
  match d.readElem x.c bx ((i * fmtBytes xf 1 : Nat) : Int) (fmtBytes xf 1) with
  | (none, d) => (none, d)
  | (some rx, d) =>
    match d.readElem x.c yb ((i * fmtBytes yf 1 : Nat) : Int) (fmtBytes yf 1) with
    | (none, d) => (none, d)
    | (some ry, d) =>
      let px := round32 ((vecNum xf rx).mul (num32 (x.k.gv (x.f 48 3))))
      let py := round32 ((vecNum yf ry).mul (num32 (x.k.gv (x.f 51 3))))
      let d := d.mcFlags x.c { flush := vecFlush xf rx || vecFlush yf ry }
      match d.finishElem x.c ⟨x.f 54 3, x.f 57 2, x.k.gv (x.f 59 3), x.k.gv (x.f 64 3)⟩ (x.f 12 4) (add32 px py) with
      | none => (none, d)
      | some o => (some (((i * e : Nat) : Int), leBytes e o.1), d.mcFlags x.c o.2)

def Dev.vcvtElem (d : Dev) (x : Ctx) (bx i : Nat) : Option Elem × Dev :=
  let xf := x.f 8 4
  let e := fmtBytes (x.f 12 4) 1
  match d.readElem x.c bx ((i * fmtBytes xf 1 : Nat) : Int) (fmtBytes xf 1) with
  | (none, d) => (none, d)
  | (some rx, d) =>
    let v := round32 ((vecNum xf rx).mul (num32 (x.k.gv (x.f 48 3))))
    let d := d.mcFlags x.c { flush := vecFlush xf rx }
    match d.finishElem x.c ⟨x.f 51 3, x.f 54 2, x.k.gv (x.f 56 3), x.k.gv (x.f 59 3)⟩ (x.f 12 4) v with
    | none => (none, d)
    | some o => (some (((i * e : Nat) : Int), leBytes e o.1), d.mcFlags x.c o.2)

/-! ### VPOOL (R58, R59, R84) -/

/-- Largest element of a window; NaN if any is NaN (R58). -/
def poolMax : List Num → Num
  | [] => .nan
  | a :: l => l.foldl (fun m v => if m.isNan || v.isNan then .nan else if m.ltZero v then v else m) a

/-- Average of a window (R59). A float sum starts from the window's first element (log 133). An INT32 input has no stated sum: `Config.avgInt32` stands for it (log 23). -/
def poolAvg (fmt n : Nat) (l : List Num) : Word :=
  let sum : Word :=
    if fmt = 0 then round32 ((Num.ofInt (l.foldl (fun acc v => acc + v.floor) (0 : Int))).mul (num32 (recip32 n)))
    else if fmt = 12 then Config.avgInt32 (l.map Num.floor) n
    else match l with
      | [] => 0
      | a :: rest => mul32 (rest.foldl (fun acc v => round32 ((num32 acc).add v)) (round32 a)) (recip32 n)
  sum

/-- One element of VPOOL (R58, R59, R84). The largest element is rounded to FP32 before the conversion of R54, an INT32 element too (log 132). -/
def Dev.vpoolElem (d : Dev) (x : Ctx) (bx p ch : Nat) : Option Elem × Dev :=
  let xf := x.f 8 4
  let ofmt := x.f 12 4
  let e := fmtBytes xf 1
  let win := (List.range (x.f 32 3 + 1)).flatMap (fun (i : Nat) => (List.range (x.f 35 3 + 1)).map (fun (j : Nat) =>
    i * x.k.sv (x.f 25 3) + (p * (x.f 38 3 + 1) + j : Nat) * x.k.sv (x.f 28 3) + ((ch * e : Nat) : Int)))
  let r := win.foldl (fun (acc : Option (List Num) × Dev) o =>
    match acc.1 with
    | none => acc
    | some l =>
      let q := acc.2.readElem x.c bx o e
      (q.1.map (fun v => l ++ [vecNum xf v]), match q.1 with
        | some v => q.2.mcFlags x.c { flush := vecFlush xf v }
        | none => q.2)) (some [], d)
  match r.1 with
  | none => (none, r.2)
  | some l =>
    let ndiv := if x.f 64 6 = 0 then (x.f 32 3 + 1) * (x.f 35 3 + 1) else x.f 64 6
    let v := if x.f 24 1 = 0 then round32 (poolMax l)
      else poolAvg xf ndiv l
    let o := outConv ofmt v
    (some (p * x.k.sv (x.f 41 3) + ((ch * fmtBytes ofmt 1 : Nat) : Int), leBytes (fmtBytes ofmt 1) o.1), r.2.mcFlags x.c o.2)

/-! ### VPAD (R85) -/

/-- Source position of a border position, or none for ZERO (R85). -/
def padSource (mode : Nat) (n : Nat) (p : Int) : Option Int :=
  if mode = 0 then none
  else if mode = 1 || n = 1 then some (min (max p 0) ((n : Int) - 1))
  else
    let per : Int := 2 * ((n : Int) - 1)
    let q := p % per
    some (if (n : Int) ≤ q then per - q else q)

/-- Border positions of VPAD, pass 1 then pass 2, each with its source (R85). -/
def vpadMoves (x : Ctx) : List ((Int × Int) × Option (Int × Int)) × List ((Int × Int) × Option (Int × Int)) :=
  let w := x.f 32 12 + 1
  let h := x.f 44 12 + 1
  let pl := x.f 56 4
  let pr := x.f 60 4
  let pt := x.f 64 4
  let pb := x.f 68 4
  let mode := x.f 12 2
  let colsOut : List Int := (List.range pl).map (fun (i : Nat) => (i : Int) - pl) ++ (List.range pr).map (fun (i : Nat) => (w : Int) + i)
  let rowsOut : List Int := (List.range pt).map (fun (i : Nat) => (i : Int) - pt) ++ (List.range pb).map (fun (i : Nat) => (h : Int) + i)
  let allCols : List Int := (List.range (pl + w + pr)).map (fun (i : Nat) => (i : Int) - pl)
  let pass1 := (List.range h).flatMap (fun (y : Nat) => colsOut.map (fun cx =>
    (((y : Int), cx), (padSource mode w cx).map (fun sx => ((y : Int), sx)))))
  let pass2 := rowsOut.flatMap (fun y => allCols.map (fun cx =>
    ((y, cx), (padSource mode h y).map (fun sy => (sy, cx)))))
  (pass1, pass2)

/-- Offset of channel 0 of pixel (y, x) relative to AX. -/
def vpadOff (x : Ctx) (p : Int × Int) : Int := p.1 * x.k.sv (x.f 20 3) + p.2 * x.k.sv (x.f 23 3)

def Dev.vpadElem (d : Dev) (x : Ctx) (base : Nat) (mv : (Int × Int) × Option (Int × Int)) (ch : Nat) : Option Elem × Dev :=
  let e := fmtBytes (x.f 8 4) 1
  let co : Int := ((ch * e : Nat) : Int)
  match mv.2 with
  | none => (some (vpadOff x mv.1 + co, leBytes e 0), d)
  | some src =>
    match d.readElem x.c base (vpadOff x src + co) e with
    | (none, d) => (none, d)
    | (some v, d) => (some (vpadOff x mv.1 + co, leBytes e v), d)

/-- One pass of VPAD: reads, then writes. -/
def Dev.vpadPass (r : Run) (x : Ctx) (base : Nat) (moves : List ((Int × Int) × Option (Int × Int))) : Run :=
  r.andThen (fun d =>
    let o := moves.foldl (fun o mv => (List.range (x.f 72 8 + 1)).foldl (fun (o : Out) ch =>
      o.step (fun d => d.vpadElem x base mv ch)) o) ({ d := d } : Out)
    ⟨(packAll base 0 o.elems.reverse).foldl (fun d e => d.writeOwn x.c (ownAt base e.1) 0 e.2) o.d, o.stop⟩)

/-! ### Issue and execution -/

/-- Spans that VADD, VPOOL, VCVT and VPAD touch, or HANDLE (R72). The first location is the destination. -/
def Dev.vecSpans (d : Dev) (x : Ctx) : Option (List Loc × List Span) :=
  let res (lo : Nat) : Option (Loc × Int) :=
    let w := x.k.av (x.f lo 4)
    (d.resolve x.c x.t w false).map (fun l => (l, (aOffset w : Int)))
  match x.f 0 8 with
  | 0x21 =>
    match res 24, res 16, res 20 with
    | some ld, some lx, some ly =>
      let n := x.f 32 16 + 1
      some ([ld.1, lx.1, ly.1],
        [⟨ld.1, ld.2, n * fmtBytes (x.f 12 4) 1⟩, ⟨lx.1, lx.2, n * fmtBytes (x.f 8 4) 1⟩, ⟨ly.1, ly.2, n * fmtBytes (x.f 28 4) 1⟩])
    | _, _, _ => none
  | 0x23 =>
    match res 20, res 16 with
    | some ld, some lx =>
      let n := x.f 32 16 + 1
      some ([ld.1, lx.1], [⟨ld.1, ld.2, n * fmtBytes (x.f 12 4) 1⟩, ⟨lx.1, lx.2, n * fmtBytes (x.f 8 4) 1⟩])
    | _, _ => none
  | 0x22 =>
    match res 20, res 16 with
    | some ld, some lx =>
      let ch := x.f 56 8 + 1
      let pixels := List.range (x.f 44 12 + 1)
      some ([ld.1, lx.1],
        pixels.map (fun (p : Nat) => (⟨ld.1, ld.2 + p * x.k.sv (x.f 41 3), ch * fmtBytes (x.f 12 4) 1⟩ : Span)) ++
        pixels.flatMap (fun (p : Nat) => (List.range (x.f 32 3 + 1)).flatMap (fun (i : Nat) =>
          (List.range (x.f 35 3 + 1)).map (fun (j : Nat) =>
            (⟨lx.1, lx.2 + i * x.k.sv (x.f 25 3) + (p * (x.f 38 3 + 1) + j : Nat) * x.k.sv (x.f 28 3),
              ch * fmtBytes (x.f 8 4) 1⟩ : Span)))))
    | _, _ => none
  | _ =>
    match res 16 with
    | some lx =>
      let ch := x.f 72 8 + 1
      let e := fmtBytes (x.f 8 4) 1
      let mv := (vpadMoves x).1 ++ (vpadMoves x).2
      some ([lx.1], mv.flatMap (fun m =>
        (⟨lx.1, lx.2 + vpadOff x m.1, ch * e⟩ : Span) ::
          (match m.2 with
          | none => []
          | some s => [⟨lx.1, lx.2 + vpadOff x s, ch * e⟩])))
    | none => none

/-- Runs a vector instruction that has issued (R60, R82 to R85). -/
def Dev.runVec (d : Dev) (x : Ctx) : Dev :=
  match x.f 0 8 with
  | 0x20 =>
    match (d.drainCheck x).2 with
    | none => d
    | some r => d.runDrain x r.1 r.2.1 r.2.2
  | 0x24 =>
    match d.vecSpans x with
    | some ([lx], _) =>
      let base := lx.base + aOffset (x.k.av (x.f 16 4))
      (Dev.vpadPass (Dev.vpadPass (Run.ok d) x base (vpadMoves x).1) x base (vpadMoves x).2).finish x
    | _ => d
  | 0x21 =>
    match d.vecSpans x with
    | some (ld :: lx :: ly :: _, _) =>
      let o := (List.range (x.f 32 16 + 1)).foldl (fun (o : Out) i => o.step (fun d =>
        d.vaddElem x (lx.base + aOffset (x.k.av (x.f 16 4))) (ly.base + aOffset (x.k.av (x.f 20 4))) i)) ({ d := d } : Out)
      Dev.commitElems o x ld (aOffset (x.k.av (x.f 24 4))) 0
    | _ => d
  | 0x23 =>
    match d.vecSpans x with
    | some (ld :: lx :: _, _) =>
      let o := (List.range (x.f 32 16 + 1)).foldl (fun (o : Out) i => o.step (fun d =>
        d.vcvtElem x (lx.base + aOffset (x.k.av (x.f 16 4))) i)) ({ d := d } : Out)
      Dev.commitElems o x ld (aOffset (x.k.av (x.f 20 4))) 0
    | _ => d
  | _ =>
    match d.vecSpans x with
    | some (ld :: lx :: _, _) =>
      let o := (List.range (x.f 44 12 + 1)).foldl (fun o p => (List.range (x.f 56 8 + 1)).foldl (fun (o : Out) ch =>
        o.step (fun d => d.vpoolElem x (lx.base + aOffset (x.k.av (x.f 16 4))) p ch)) o) ({ d := d } : Out)
      Dev.commitElems o x ld (aOffset (x.k.av (x.f 20 4))) 0
    | _ => d

/-- The checks of a vector instruction at issue. -/
def Dev.vecCheck (d : Dev) (x : Ctx) : Check :=
  if x.f 0 8 = 0x20 then (d.drainCheck x).1
  else
    match d.vecSpans x with
    | none => .fault fHandle
    | some r => d.checkSpans x.c r.2

/-- Issues a vector instruction: behind a DRAIN that waits for credit it takes the waiting place, and with that place taken it does not issue (R69, R148). -/
def Dev.issueVec (d : Dev) (c op : Nat) : Dev :=
  d.issue c op (fun x d =>
    match d.vecCheck x with
    | .fault code => d.freezeCore x.c code x.t x.pc
    | .wait => d
    | .ok =>
      if (d.core c).drainQ.isEmpty then (((d.issued x).advance x x.pc).countTiming x.c x.t false).runVec x
      else if (d.core c).vecNext.isSome then d
      else ((d.issued x).onCore c (fun k => { k with vecNext := some ⟨x.t, x.pc, x.ins, x.k⟩ })).advance x x.pc)

/-- The array instructions that waited for the vector unit execute (R69, R70). -/
def Dev.runArrQ (d : Dev) (c : Nat) : Dev :=
  (d.core c).arrQ.foldl (fun d j => d.runArr ⟨c, j.task, j.pc, j.ins, j.regs⟩) (d.onCore c (fun k => { k with arrQ := [] }))

/-- The instruction in the waiting place of the vector unit executes, then the array instructions that waited for it (R39, R69, R70). -/
def Dev.runWaiting (d : Dev) (c : Nat) (j : VecJob) : Dev :=
  let d := d.onCore c (fun k =>
    { k with vecNext := none, releases := k.releases.map (fun r => if r.behind = 2 then { r with behind := 1 } else if r.behind = 3 then { r with behind := 0 } else r) })
  let d := (d.countTiming c j.task false).runVec ⟨c, j.task, j.pc, j.ins, j.regs⟩
  let d := if (d.core c).drainQ.isEmpty then d.onCore c Core.drained else d
  d.runArrQ c

/-- The vector unit goes on once the waiting DRAIN has sent everything: its task is READY and the waiting instruction executes (R69, R148). -/
def Dev.resumeVec (d : Dev) (c : Nat) : Dev :=
  let d := d.pumpDrain c (d.core c).drainQ
  if !(d.core c).drainQ.isEmpty then d
  else
    match (d.core c).vecNext with
    | none => d.settle c
    | some j => (d.runWaiting c j).settle c

/-- The waiting instructions of a halted task are dropped from the units of its core, and the units go on (R69, R181; log 173). -/
def Dev.dropWaiting (d : Dev) (c t : Nat) : Dev :=
  let d := d.onCore c (Core.dropWaiting t)
  let d := if (d.core c).drainQ.isEmpty then d.resumeVec c else d
  if (d.core c).vecNext.isNone then d.runArrQ c else d

/-- DRAIN (R82). -/
def execDrain (c : Fin 72) (s : State) : Host.Outcome State Fault Refusal := s.act (fun d => d.issueVec c 0x20)

/-- VADD (R60, R83). -/
def execVadd (c : Fin 72) (s : State) : Host.Outcome State Fault Refusal := s.act (fun d => d.issueVec c 0x21)

/-- VPOOL (R58, R59, R84). -/
def execVpool (c : Fin 72) (s : State) : Host.Outcome State Fault Refusal := s.act (fun d => d.issueVec c 0x22)

/-- VCVT (R83). -/
def execVcvt (c : Fin 72) (s : State) : Host.Outcome State Fault Refusal := s.act (fun d => d.issueVec c 0x23)

/-- VPAD (R85). -/
def execVpad (c : Fin 72) (s : State) : Host.Outcome State Fault Refusal := s.act (fun d => d.issueVec c 0x24)

end Sys2Proof.Machine
end

