-- ==== Sys2Proof/Machine/Units.lean ====
section
/-! DEFINITION. Freezing of writers (R131, R152, R156, R176), credits and the slots of handles (R142 to R150, R154). -/

namespace Sys2Proof.Machine

/-- A stream unit. -/
def Dev.su (d : Dev) (u : Nat) : Su := Tab.get {} d.sus u
def Dev.onSu (d : Dev) (u : Nat) (f : Su → Su) : Dev := { d with sus := Tab.modify {} d.sus u f }

/-- A boundary engine. -/
def Dev.be (d : Dev) (e : Nat) : Be := Tab.get {} d.bes e
def Dev.onBe (d : Dev) (e : Nat) (f : Be → Be) : Dev := { d with bes := Tab.modify {} d.bes e f }

/-- SU_STATUS.STATE values (R194). -/
def suIdle : Nat := 0
def suRun : Nat := 1
def suWaitCredit : Nat := 2
def suWaitTag : Nat := 3
def suWaitRtag : Nat := 4
def suWaitReg : Nat := 5
def suDrain : Nat := 6
def suFrozen : Nat := 7

def Dev.suState (d : Dev) (u : Nat) : Nat := d.rd (Reg.SU_STATE.at (six u))
def Dev.setSuState (d : Dev) (u v : Nat) : Dev := d.wr (Reg.SU_STATE.at (six u)) v

/-- Whether pipeline `p` is parked (R375). -/
def Dev.parked (d : Dev) (p : Nat) : Bool :=
  if p < 32 then d.bitAt (Reg.TOP_PARKED_LO.at []) p else d.bitAt (Reg.TOP_PARKED_HI.at []) (p - 32)
def Dev.setParked (d : Dev) (p : Nat) (b : Bool) : Dev :=
  if p < 32 then d.setBit (Reg.TOP_PARKED_LO.at []) p b else d.setBit (Reg.TOP_PARKED_HI.at []) (p - 32) b

/-- A master withdraws its reads: what it asked for is needed no longer. -/
def Dev.withdraw (d : Dev) (master : Nat) : Dev :=
  { d with ddr := d.ddr.map (fun (e : Nat × Ddr) => (e.1, { e.2 with
      reads := e.2.reads.filter (fun q => q.master != master), waitReads := e.2.waitReads.filter (fun q => q.master != master) })) }

/-- No request of a stream unit waits for credit any more (R194). -/
def Dev.endRouteWaits (d : Dev) (u : Nat) : Dev := upTo 8 (fun r d => d.set (Reg.SU_RT_WAITING.at (six u [r])) false) d

/-- A core without the updates of writer `w` that wait in it for a zero-fill (R145, R154). -/
def Core.dropQueued (w : Nat) (k : Core) : Core :=
  { k with zfills := k.zfills.map (fun z => { z with queued := z.queued.filter (fun x => x.writer != w) }) }

/-- What a freeze does to a stream unit, its event apart: its unwritten data, its requests and the releases not yet applied, on their way or waiting for a zero-fill, are discarded
and its pipeline is parked (R176, R375). -/
def Dev.stopSu (d : Dev) (u code pc : Nat) : Dev :=
  let d := (((d.setSuState u suFrozen).onSu u (fun s => { s with work := [], fence := false })).withdraw (0x100 + u)).endRouteWaits u
  let d := { d with
    fabric := d.fabric.filter (fun m => match m.body with
      | .tag x => x.writer != 0x100 + u
      | _ => true)
    cores := d.cores.map (fun (e : Nat × Core) => (e.1, e.2.dropQueued (0x100 + u))) }
  let d := (d.wr (Reg.SU_FAULT_CODE.at (six u)) code).wr (Reg.SU_FAULT_PC.at (six u)) pc
  d.setParked (d.rd (Reg.SU_PIPELINE.at (six u))) true

/-- A stream unit fault of R175. -/
def Dev.faultSu (d : Dev) (u code pc : Nat) : Dev :=
  if d.suState u = suFrozen then d
  else (d.stopSu u code pc).raise (0x0200 + code) 0 (0x100 + u) [code + pc * 256] true

/-- A violation of R34, R152, R156 or R160 by a stream unit, which raises an event of its own; the manual states no fault code for it (log 24).
A unit that is frozen already stays as it is; a transaction of it that is discarded still raises its event (R35, R152, R156). -/
def Dev.violateSu (d : Dev) (u event pc : Nat) (args : List Nat) : Dev :=
  if d.suState u = suFrozen then d.raise event 0 (0x100 + u) args true
  else (((d.stopSu u (d.freeVal 8) pc).useFree).raise event 0 (0x100 + u) args true)

/-- A boundary engine stops (R131): its jobs are not finished. -/
def Dev.stopBe (d : Dev) (e : Nat) : Dev :=
  if (d.be e).stopped then d
  else
    let d := d.onBe e (fun b => { b with stopped := true, queue := [], job := none, row := none })
    { d with lostBes := d.lostBes ++ [e] }.raise 0x0160 0 (0x180 + e) [] true

/-- An engine is retired (R376). -/
def Dev.retireBe (d : Dev) (e : Nat) : Dev :=
  if (d.be e).retired then d
  else
    let d := d.onBe e (fun b => { b with retired := true, queue := [], job := none, row := none })
    { d with retired := d.retired ++ [0x180 + e], healthDirty := true }.raise 0x0160 0 (0x180 + e) [] false true

/-- Freezes the writer of a discarded transaction or tag update (R152, R156): `event` at the destination, the fault code of a core. -/
def Dev.freezeWriter (d : Dev) (writer event code task pc : Nat) (args : List Nat) : Dev :=
  if writer < 72 then
    (if event = 0x0713 then d.raise event 0 writer args true else d).freezeCore writer code task pc
  else if 0x180 ≤ writer then (d.raise event 0 writer args (event = 0x0713)).stopBe (writer - 0x180)
  else d.violateSu (writer - 0x100) event pc args

/-! ### Routes and credits (R148 to R150, R217, R481) -/

/-- The inbound entry of a core that a transaction or tag update matches (R481). -/
def Dev.inbound (d : Dev) (c handle writer route : Nat) : Option Nat :=
  (List.range 32).find? (fun i =>
    d.bit (Reg.SP_INRT_VALID.at (cix c [i])) && d.rd (Reg.SP_INRT_HANDLE.at (cix c [i])) = handle &&
    d.rd (Reg.SP_INRT_WRITER.at (cix c [i])) = writer && d.rd (Reg.SP_INRT_ROUTE.at (cix c [i])) = route)

/-- The multicast group that route `route` of a writer goes to, if it is a multicast route (R137, R167, R217). -/
def Dev.routeGroup (d : Dev) (writer route : Nat) : Option Nat :=
  if writer < 72 then
    (List.range 64).findSome? (fun h =>
      if d.bit (Reg.HND_VALID.at (cix writer [h])) && d.rd (Reg.HND_KIND.at (cix writer [h])) = 1 &&
          bits (d.rd (Reg.HND_SIZE.at (cix writer [h]))) 6 4 = route &&
          72 ≤ bits (d.rd (Reg.HND_BASE_ROW.at (cix writer [h]))) 0 7 then
        some (bits (d.rd (Reg.HND_BASE_ROW.at (cix writer [h]))) 0 7) else none)
  else if 0x100 ≤ writer && writer < 0x180 then
    (List.range 8).findSome? (fun r =>
      let i := six (writer - 0x100) [r]
      if d.bit (Reg.SU_RT_VALID.at i) && d.rd (Reg.SU_RT_ROUTE.at i) = route && 72 ≤ d.rd (Reg.SU_RT_TCORE.at i) then
        some (d.rd (Reg.SU_RT_TCORE.at i)) else none)
  else
    d.plan.beLayers.findSome? (fun l =>
      if !l.engines.getLsbD (beOf writer) || l.last then none
      else if l.route = route && 72 ≤ l.tcore then some l.tcore
      else if l.haloRoute = route && 72 ≤ l.haloCore then some l.haloCore
      else none)

/-- Core `c` returns `n` credits to a writer's route (R149, R217). -/
def Dev.returnCredit (d : Dev) (c writer route n : Nat) : Dev :=
  if n = 0 then d
  else
    match d.routeGroup writer route with
    | none => d.send (.core c) (masterNode writer) (.credit route n)
    | some g =>
      { d with mcReturned := Tab.modify 0 d.mcReturned (mcKey g (c % 9) writer route) (· + n) }.groupRelease g writer route

/-- A slot has passed from FULL to EMPTY: ALLOC credits go to every valid entry naming its handle (R149). -/
def Dev.returnCredits (d : Dev) (c handle : Nat) : Dev :=
  upTo 32 (fun i d =>
    if d.bit (Reg.SP_INRT_VALID.at (cix c [i])) && d.rd (Reg.SP_INRT_HANDLE.at (cix c [i])) = handle then
      d.returnCredit c (d.rd (Reg.SP_INRT_WRITER.at (cix c [i]))) (d.rd (Reg.SP_INRT_ROUTE.at (cix c [i])))
        (d.rd (Reg.SP_INRT_ALLOC.at (cix c [i])))
    else d) d

/-- First scratchpad byte and length of half `half` of a LOCAL handle (R137). -/
def Dev.halfBytes (d : Dev) (c h half : Nat) : Nat × Nat :=
  let size := d.rd (Reg.HND_SIZE.at (cix c [h])) + 1
  ((d.rd (Reg.HND_BASE_ROW.at (cix c [h])) + half * size) * 512, size * 512)

/-- A slot returns to EMPTY with GEN and RELCNT 0 (R142, R150). -/
def Dev.resetSlot (d : Dev) (c sl : Nat) : Dev :=
  ((d.wr (Reg.SLOT_FULL.at (cix c [sl])) 0).wr (Reg.SLOT_GEN.at (cix c [sl])) 0).wr (Reg.SLOT_RELCNT.at (cix c [sl])) 0

/-- Generation after an update (R142): GMODE 0 keeps, 1 adds 1, 2 loads. -/
def genAfter (gmode old v : Nat) : Nat := if gmode = 0 then old else if gmode = 1 then (old + 1) % 65536 else v % 65536

/-- HALF and GEN of a stripe sequence number (R204). -/
def halfGen (two : Bool) (q : Nat) : Nat × Nat := if two then (q % 2, (q / 2 + 1) % 65536) else (0, (q + 1) % 65536)

end Sys2Proof.Machine
end

