-- ==== Sys2Proof/Machine/Memory.lean ====
section
/-! DEFINITION. The device address space (R33 to R35), LPDDR6 with its ECC (R187 to R191) and what enters its channel queues (R185, R186), and the stripe cache (R193, R218). -/

namespace Sys2Proof.Machine

/-- The region an address lies in, with the offset inside it (R33). -/
inductive Region where
  | ddr
  | sp (c off : Nat)
  | lantern (off : Nat)
  | lineBuf (j off : Nat)
  | beacon (p off : Nat)
  | host (a : Nat)
  | unmapped
  deriving DecidableEq, Repr

/-- Address map of R33. -/
def Dev.region (d : Dev) (a : Nat) : Region :=
  if a < d.rd (Reg.DDR_CAP_GIB.at []) * 2 ^ 30 && a < 0x001800000000 then .ddr
  else if 0x004000000000 ≤ a && a < 0x004000000000 + 72 * 0x400000 then
    let o := a - 0x004000000000
    if o % 0x400000 < 0x300000 then .sp (o / 0x400000) (o % 0x400000) else .unmapped
  else if 0x004200000000 ≤ a && a < 0x004201000000 then .lantern (a - 0x004200000000)
  else if 0x004400000000 ≤ a && a < 0x004401000000 then .lineBuf ((a - 0x004400000000) / 0x100000) ((a - 0x004400000000) % 0x100000)
  else if 0x004800000000 ≤ a && a < 0x004803000000 then
    .beacon ((a - 0x004800000000) / 0x1000000) ((a - 0x004800000000) % 0x1000000)
  else if 0x008000000000 ≤ a && a < 0x010000000000 then .host (a - 0x008000000000)
  else .unmapped

/-- Device address of the Lantern store. -/
def lanternBase : Nat := 0x004200000000

/-- Device address of the enhanced line buffer of layer `j`. -/
def lineBufBase (j : Nat) : Nat := 0x004400000000 + j * 0x100000

/-- Host bus address of host window offset `a` (R33, R391). -/
def Dev.hostAddr (d : Dev) (a : Nat) : Nat :=
  d.rd (Reg.HST_HWIN_BASE_LO.at []) * 4096 + d.rd (Reg.HST_HWIN_BASE_HI.at []) * 2 ^ 32 + a

/-- A host window request can be sent: the link is up, and the host has made the function a bus master in D0 (R387, R391). -/
def Dev.hostReady (d : Dev) : Bool := d.bit (Reg.HST_UP.at []) && d.host.cfg.bme && !d.host.cfg.d3hot

/-- The device writes host memory; `bad` are the places of bytes that go in a poisoned TLP (R190). -/
def Dev.hostWrite (d : Dev) (a : Nat) (bs : Bytes) (bad : List Nat := []) : Dev :=
  { d with hostMem := Tab.putList 0 d.hostMem a bs
           host := { d.host with bad := if d.host.bad.isEmpty && bad.isEmpty then []
             else d.host.bad.filter (fun x => x < a || a + bs.length ≤ x) ++ bad.map (a + ·) } }

/-! ### LPDDR6 -/

/-- Channel of an address (R188). -/
def ddrChannel (a : Nat) : Nat := a / 256 % 12

/-- Bank and row of a granule (R188). -/
def Dev.ddrBankRow (d : Dev) (g : Nat) : Nat × Nat :=
  let l := g / 12
  let c := d.rd (Reg.DDR_COLBITS.at [])
  let row := l / 2 ^ (c + 4)
  (Nat.xor (l / 2 ^ c % 16) (row % 16), row)

def Dev.chan (d : Dev) (ch : Nat) : Ddr := Tab.get {} d.ddr ch
def Dev.onChan (d : Dev) (ch : Nat) (f : Ddr → Ddr) : Dev := { d with ddr := Tab.modify {} d.ddr ch f }

/-- Records the last LPDDR6 error (R195). -/
def Dev.ddrLast (d : Dev) (a : Nat) (ue : Bool) : Dev :=
  let br := d.ddrBankRow (a / 256)
  let d := d.noteRow 3 (a / 256 % 12 + a / 128 % 2 * 16 + br.1 * 32 + br.2 * 512) ue
  ((d.wr (Reg.DDR_ECC_ADDR_LO.at []) a).wr (Reg.DDR_ECC_ADDR_HI.at []) (a / 2 ^ 32)).set (Reg.DDR_ECC_WAS_UE.at []) ue

/-- Corrects a word (R189): event 0x0730 at most once per second per channel. -/
def Dev.ddrCorrect (d : Dev) (a : Nat) : Dev :=
  let ch := ddrChannel a
  let d := { d with ecc := Tab.put 0 d.ecc (a / 8) 0 }
  let d := (d.incSat (Reg.DDR_ECC_CE_CNT.at [])).ddrLast a false
  let due := match (d.chan ch).ceAt with
    | none => true
    | some t => t + 1000000000 ≤ d.time
  if due then (d.onChan ch (fun q => { q with ceAt := some d.time })).raise 0x0730 8 0 else d

/-- Reads LPDDR6 words for a reader (event SOURCE `kind`, `index`): corrects, counts, raises one event 0x0731 per read, and answers the addresses of uncorrectable words (R189, R190). -/
def Dev.ddrCheck (d : Dev) (a n kind index : Nat) : List Nat × Dev :=
  if d.ecc.isEmpty then ([], d)
  else
    let r := (wordsOf a n).foldl (fun (acc : List Nat × Dev) w =>
      let m := Tab.get 0 acc.2.ecc (w / 8)
      if m = 1 then (acc.1, acc.2.ddrCorrect w)
      else if m = 2 then (acc.1 ++ [w], (acc.2.incSat (Reg.DDR_ECC_UE_CNT.at [])).ddrLast w true)
      else acc) ([], d)
    match r.1 with
    | [] => r
    | w :: _ => (r.1, r.2.raise 0x0731 kind index (addrArgs w))

/-- Bytes with those of uncorrectable words replaced by values the manual does not state (log 36). -/
def Dev.spoil (d : Dev) (a : Nat) (data : Bytes) (bad : List Nat) : Bytes :=
  (List.zip (List.range data.length) data).map (fun e =>
    if bad.any (fun w => w ≤ a + e.1 && a + e.1 < w + 8) then BitVec.ofNat 8 (Config.freeBits (d.free + e.1)) else e.2)

/-- What a reader that shows its data gets of `n` bytes of LPDDR6: corrected, the bytes of uncorrectable words free; and whether there were such words. -/
def Dev.readShown (d : Dev) (a n kind index : Nat) : Bytes × Bool × Dev :=
  let c := d.ddrCheck a n kind index
  if c.1.isEmpty then (d.bytes a n, false, c.2) else (d.spoil a (d.bytes a n) c.1, true, c.2.useFree n)

/-- Granules that bytes `a` to `a + n - 1` touch. -/
def granuleSpan (a n : Nat) : List Nat := if n = 0 then [] else (List.range ((a + n - 1) / 256 - a / 256 + 1)).map (fun i => a / 256 + i)

/-- A write covers only part of some 8-byte word of granule `g` (R191). -/
def partialIn (a n g : Nat) : Bool :=
  let lo := max a (g * 256)
  let hi := min (a + n) (g * 256 + 256)
  decide (lo < hi) && (lo % 8 != 0 || hi % 8 != 0)

/-- The marks of words after a write of `n` bytes: a word written whole ends its error, poisoned bytes mark theirs (R190). -/
def Dev.markWords (d : Dev) (a n : Nat) (bad : List Nat) : Dev :=
  let d := if d.ecc.isEmpty then d else (wordsOf a n).foldl (fun d w =>
    if a ≤ w && w + 8 ≤ a + n then { d with ecc := Tab.put 0 d.ecc (w / 8) 0 } else d) d
  bad.foldl (fun d b => { d with ecc := Tab.put 0 d.ecc ((a + b) / 8) 2 }) d

/-- Writes LPDDR6 bytes for a writer (event SOURCE `kind`, `index`): a granule of which a word is written in part is read, checked and corrected first (R191). -/
def Dev.ddrWrite (d : Dev) (a : Nat) (bs : Bytes) (bad : List Nat) (kind index : Nat) : Dev :=
  let d := if d.ecc.isEmpty then d else ((granuleSpan a bs.length).filter (partialIn a bs.length)).foldl (fun d g => (d.ddrCheck (g * 256) 256 kind index).2) d
  (d.setBytes a bs).markWords a bs.length bad

/-! ### Channel queues (R185, R186). Masters other than those of R151 take numbers of the model's own (log 149). -/

def wbMaster (o : Nat) : Nat := 0x190 + o
def guardMaster (j : Nat) : Nat := 0x1A0 + j
def lbMaster (j : Nat) : Nat := 0x1B0 + j
def fenceMaster (j : Nat) : Nat := 0x1C0 + j
def auxpMaster : Nat := 0x1D0
def hostMaster : Nat := 0x1D1
def keeperMaster : Nat := 0x1D2
def copyMaster : Nat := 0x1D3
def auxpBandMaster : Nat := 0x1D4

/-- Deadline of a request of the host through BAR2, of Keeper or of the copy engine: its time of issue and NODL microseconds (R185, R298). -/
def Dev.nodl (d : Dev) : Nat := (d.time + 1000 * d.rd (Reg.DDR_NODL.at [])) % 2 ^ 32

/-- A read asks for a place in its channel's queue; one that matches a queued write has its data there (R186). -/
def Dev.askRead (d : Dev) (e : DdrEntry) : Dev :=
  d.onChan (e.granule % 12) (fun q =>
    if (q.writes ++ q.waitWrites).any (fun w => w.granule = e.granule) then q
    else if q.reads.length < 64 then { q with reads := q.reads ++ [e] }
    else { q with waitReads := q.waitReads ++ [e] })

/-- Reads of the granules of a span (R353: their bytes are accounted for). -/
def Dev.askReads (d : Dev) (master deadline : Nat) (critical : Bool) (a n : Nat) : Dev :=
  (granuleSpan a n).foldl (fun d g => d.askRead ⟨master, g, deadline, critical, false⟩) (d.spendDdr master n)

/-- A write joins one of its master to the same granule. -/
def mergeWrite (e : DdrEntry) (l : List DdrEntry) : List DdrEntry :=
  l.map (fun w => if w.master = e.master && w.granule = e.granule then { w with again := w.again || e.again } else w)

/-- A write asks for a place; writes to one granule from one master merge (R186). -/
def Dev.askWrite (d : Dev) (e : DdrEntry) : Dev :=
  d.onChan (e.granule % 12) (fun q =>
    if (q.writes ++ q.waitWrites).any (fun w => w.master = e.master && w.granule = e.granule) then
      { q with writes := mergeWrite e q.writes, waitWrites := mergeWrite e q.waitWrites }
    else if q.writes.length < 64 then { q with writes := q.writes ++ [e] }
    else { q with waitWrites := q.waitWrites ++ [e] })

/-- Writes of the granules of a span; one that covers part of a word takes a second slot (R191). -/
def Dev.askWrites (d : Dev) (master deadline a n : Nat) : Dev :=
  (granuleSpan a n).foldl (fun d g => d.askWrite ⟨master, g, deadline, false, partialIn a n g⟩) (d.spendDdr master n)

/-- A channel takes the writes of the host that wait for a place, once it has served as many of its oldest as that needs. -/
def Ddr.acceptHost (q : Ddr) : Ddr :=
  let mine := q.waitWrites.filter (fun e => e.master = hostMaster)
  if mine.isEmpty then q
  else { q with writes := (q.writes ++ mine).drop (q.writes.length + mine.length - 64), waitWrites := q.waitWrites.filter (fun e => e.master != hostMaster) }

/-- Every BAR2 write so far is accepted by the memory controller (R390). -/
def Dev.acceptHost (d : Dev) : Dev := { d with ddr := d.ddr.map (fun e => (e.1, e.2.acceptHost)) }

/-- The controller can accept a master's writes of a span into its write queues now (R171, R186). -/
def Dev.roomFor (d : Dev) (master a n : Nat) : Bool :=
  (List.range 12).all (fun ch =>
    let q := d.chan ch
    let fresh := ((granuleSpan a n).filter (fun g => g % 12 = ch && !q.writes.any (fun w => w.master = master && w.granule = g))).length
    fresh = 0 || (q.waitWrites.isEmpty && q.writes.length + fresh ≤ 64))

/-- A read of a master has not been served. -/
def Dev.asking (d : Dev) (master : Nat) : Bool :=
  (List.range 12).any (fun ch => ((d.chan ch).reads ++ (d.chan ch).waitReads).any (fun e => e.master = master))

/-! ### Stripe cache -/

/-- Key of the set of granule `g` in cluster `n` (R218). -/
def scKey (n g : Nat) : Nat := n * 2048 + g % 2048

/-- LOCATION of the row of the `way`-th line of a set, without the spare (R218): bank = way, row = set / 2 (log 33). -/
def scRowLoc (n g way : Nat) : Nat := n + way * 8 + g % 2048 / 2 * 128

/-- Corrects the words of a line that hold single-bit errors, and counts them for its row (R218, R379). -/
def Dev.scCorrect (d : Dev) (n : Nat) (l : ScLine) : ScLine × Dev :=
  ({ l with ecc := [] }, (l.ecc.filter (fun e => e.2 = 1)).foldl (fun d _ => d.noteRow 1 (scRowLoc n l.granule l.way) false) d)

/-- Looks a granule up: a line whose word holds a double-bit error is invalidated and missed, single-bit errors are corrected (R218). -/
def Dev.scLookup (d : Dev) (n g : Nat) : Option Bytes × Dev :=
  let set := Tab.get [] d.cache (scKey n g)
  match set.find? (fun l => l.granule = g) with
  | none => (none, d.inc (Reg.CL_SC_MISS.at [n]))
  | some l =>
    let rest := set.filter (fun q => q.granule ≠ g)
    if l.ecc.any (fun e => e.2 = 2) then
      let d := d.noteRow 1 (scRowLoc n g l.way) true
      let d := ({ d with cache := Tab.put [] d.cache (scKey n g) rest }.incSat (Reg.CL_SC_DED.at [n])).inc (Reg.CL_SC_MISS.at [n])
      let d := d.set (Reg.TOP_MEM_UE.at []) true
      let due := Tab.get 0 d.scEventAt n = 0 || Tab.get 0 d.scEventAt n + 1000000000 ≤ d.time + 1
      (none, if due then { d with scEventAt := Tab.put 0 d.scEventAt n (d.time + 1) }.raise 0x0723 4 n else d)
    else
      let r := d.scCorrect n l
      (some l.data, { r.2 with cache := Tab.put [] r.2.cache (scKey n g) (r.1 :: rest) }.inc (Reg.CL_SC_HIT.at [n]))

/-- The line of granule `g` as LPDDR6 holds it now: an uncorrectable word is stored as one (R190). Its way is chosen when it is filled. -/
def Dev.scLine (d : Dev) (g : Nat) : ScLine :=
  ⟨g, 0, d.bytes (g * 256) 256, if d.ecc.isEmpty then [] else
    (List.range 32).foldl (fun t w => if Tab.get 0 d.ecc (g * 32 + w) = 2 then Tab.put 0 t w 2 else t) []⟩

/-- A line after a write of bytes at an address: the bytes that fall into its granule; a word written whole ends its error, a poisoned byte marks its word (R190, R193). -/
def ScLine.store (l : ScLine) (a : Nat) (bs : Bytes) (bad : List Nat) : ScLine :=
  let lo := l.granule * 256
  { l with
    data := (List.range 256).map (fun i => if a ≤ lo + i ∧ lo + i < a + bs.length then bs.getD (lo + i - a) 0 else l.data.getD i 0)
    ecc := (List.range 32).foldl (fun t w =>
      if bad.any (fun b => (a + b) / 8 = l.granule * 32 + w) then Tab.put 0 t w 2
      else if a ≤ lo + 8 * w && lo + 8 * w + 8 ≤ a + bs.length then Tab.put 0 t w 0 else t) l.ecc }

/-- A free way of a set, else that of the line used least recently, which the new one replaces (R218). -/
def freeWay (set : List ScLine) : Nat :=
  match (List.range 16).find? (fun w => !set.any (fun l => l.way = w)) with
  | some w => w
  | none => ((set.drop 15).head?.map ScLine.way).getD 0

/-- Allocates a line in the state it was served in, replacing the least recently used (R218, R472); a line that is there already stays. -/
def Dev.scFill (d : Dev) (n : Nat) (l : ScLine) : Dev :=
  let set := Tab.get [] d.cache (scKey n l.granule)
  if set.any (fun q => q.granule = l.granule) then d
  else { d with cache := Tab.put [] d.cache (scKey n l.granule) (({ l with way := freeWay set } :: set).take 16) }

/-- A request's line after a write (R193). -/
def Req.store (r : Req) (a : Nat) (bs : Bytes) (bad : List Nat) : Req := { r with line := r.line.map (fun l => l.store a bs bad) }

/-- The lines that a unit's outstanding requests bring, after a write by a unit of the same cluster (R193). -/
def Su.storeLines (s : Su) (a : Nat) (bs : Bytes) (bad : List Nat) : Su :=
  { s with work := s.work.map (fun i => match i with
      | .xfer t => .xfer { t with flying := t.flying.map (fun r => r.store a bs bad) }
      | .rel r => .rel r) }

/-- A stream unit's write updates the matching granules in the stripe cache of its own cluster `n`, those on their way there among them, by the bytes it writes (R193, R472). -/
def Dev.scUpdate (d : Dev) (n a : Nat) (bs : Bytes) (bad : List Nat) : Dev :=
  let d := upTo 16 (fun k d => if (d.su (16 * n + k)).work.isEmpty then d else d.onSu (16 * n + k) (fun s => s.storeLines a bs bad)) d
  (granuleSpan a bs.length).foldl (fun d g =>
    let set := Tab.get [] d.cache (scKey n g)
    if set.any (fun l => l.granule = g) then
      { d with cache := Tab.put [] d.cache (scKey n g) (set.map (fun l => if l.granule = g then l.store a bs bad else l)) }
    else d) d

/-- Drops every line of every stripe cache (R193). -/
def Dev.scInvalidate (d : Dev) : Dev := { d with cache := [] }

end Sys2Proof.Machine
end

