-- ==== Sys2Proof/Machine/Raster.lean ====
section
/-! DEFINITION. Outputs, layers and pipelines as the blocks of the display and the sequencer find them: rasters, line times, deadlines (R12, R18, R25, R248, R258, R276), streams and their buffers (R398, R399). -/

namespace Sys2Proof.Machine

/-! ### Outputs and layers -/

def Dev.out (d : Dev) (o : Nat) : OutSt := Tab.get {} d.outs o
def Dev.onOut (d : Dev) (o : Nat) (f : OutSt → OutSt) : Dev := { d with outs := Tab.modify {} d.outs o f }
def Dev.layer (d : Dev) (j : Nat) : Layer := Tab.get {} d.layers j
def Dev.onLayer (d : Dev) (j : Nat) (f : Layer → Layer) : Dev := { d with layers := Tab.modify {} d.layers j f }
def Dev.pipe (d : Dev) (p : Nat) : Pipe := Tab.get {} d.pipes p
def Dev.onPipe (d : Dev) (p : Nat) (f : Pipe → Pipe) : Dev := { d with pipes := Tab.modify {} d.pipes p f }
def Dev.stream (d : Dev) (s : Nat) : Stream := Tab.get {} d.streams s
def Dev.onStream (d : Dev) (s : Nat) (f : Stream → Stream) : Dev := { d with streams := Tab.modify {} d.streams s f }

/-- Split mode in force (R258). -/
def Dev.split (d : Dev) : Bool := d.bit (Reg.OUT_SPLIT.at [0])

/-- The output whose raster carries layer `j` (R276). -/
def Dev.rasterOf (d : Dev) (j : Nat) : Nat := if d.split then 0 else j / 8

/-- The output that drives the raster of output `o`. -/
def Dev.rasterBase (d : Dev) (o : Nat) : Nat := if d.split then 0 else o

def Dev.outRuns (d : Dev) (o : Nat) : Bool := d.bit (Reg.OUT_RUNNING.at [o])
def Dev.vactive (d : Dev) (o : Nat) : Nat := d.rd (Reg.OUT_VACTIVE.at [o])
def Dev.hactive (d : Dev) (o : Nat) : Nat := d.rd (Reg.OUT_HACTIVE.at [o])

/-- The output frame an output shows, counted without the wrap of OUT_FRAME (R25). -/
def Dev.outFrame (d : Dev) (o : Nat) : Nat := (d.out o).wraps * 2 ^ 32 + d.rd (Reg.OUT_FRAME.at [o])

/-- The output whose boundaries pace PIPE (R235): none, the idle boundary paces it. -/
def Dev.pipePacer (d : Dev) : Option Nat :=
  let on (o : Nat) : Bool := d.bit (Reg.OUT_ENABLE.at [o])
  if d.split then (if on 0 then some 0 else none)
  else
    let o := d.rd (Reg.TOP_PIPE_PACE.at [])
    if on o then some o else if on (1 - o) then some (1 - o) else none

/-- Line buffer registers of layer `j` (R260). -/
def lbIx (j : Nat) : List Nat := [j / 8, j % 8]

/-- Level of a layer's line buffer: the complete rows held that a line not yet composed still needs (R261). -/
def Dev.lbLevel (d : Dev) (j : Nat) : Nat := (d.layer j).rows.length

/-- The requests of a layer's line buffer are deadline-critical: its level is below its low watermark (R26, R261). -/
def Dev.lbCritical (d : Dev) (j : Nat) : Bool := d.rd (Reg.LAY_KIND.at [j]) = 1 && d.lbLevel j < d.rd (Reg.OUT_LB_LWM.at (lbIx j))

/-- Width of the raster of output `o`: both halves in split mode (R258). -/
def Dev.rasterWidth (d : Dev) (o : Nat) : Nat := if d.split then 2 * d.hactive 0 else d.hactive o

/-- Duration of `n` lines of `ht` pixels at `khz`, in nanoseconds. -/
def lineTime (ht khz : Nat) (n : Int) : Int := n * ((ht * 1000000 : Nat) : Int) / ((max khz 1 : Nat) : Int)

/-- Duration of `n` lines in nanoseconds. -/
def Dev.linesNs (d : Dev) (o : Nat) (n : Int) : Int := lineTime (d.rd (Reg.OUT_HTOTAL.at [o])) (d.rd (Reg.OUT_PCLK_KHZ.at [o])) n

/-- Line deadline D(y) of line `y` of the output frame `frame` (R12), from the announced blanking (R248), which keeps its old totals (R247). The frame whose lines
follow the last boundary is FRAME + 1. -/
def Dev.lineDeadlineAt (d : Dev) (o frame y : Nat) : Int :=
  let q := d.out o
  let g : Int := d.rd (Reg.OUT_GUARD_LINES.at [o])
  let n := (y : Int) - g
  let base := (q.at_ : Int) + lineTime q.blankHt q.blankKhz (q.blank + min n 0) + d.linesNs o (max n 0)
  if frame ≤ d.outFrame o + 1 then base
  else (q.at_ : Int) + lineTime q.blankHt q.blankKhz q.blank + d.linesNs o (((d.vactive o + q.announced : Nat) : Int) + n)

/-- One bit of a pair of registers LO and HI that hold 64 bits. -/
def Dev.bit64 (d : Dev) (lo hi : Fld) (i : Nat) : Bool := if i < 32 then d.bitAt lo i else d.bitAt hi (i - 32)

/-! ### Pipelines -/

/-- The SEQ record of a pipeline of the installed plan (R229). -/
def Dev.pipeRec (d : Dev) (p : Nat) : Option PipeRec := d.plan.pipes.find? (fun r => r.pipe = p && !r.members.isEmpty)

/-- The enhancement pipeline of layer `j`. -/
def Dev.pipeOfLayer (d : Dev) (j : Nat) : Option PipeRec :=
  d.plan.pipes.find? (fun r => !r.members.isEmpty && !r.analysis && r.layer = j)

/-- The raster a pipeline is timed by. -/
def Dev.pipeRaster (d : Dev) (r : PipeRec) : Nat :=
  if d.split then 0 else if r.output = 2 then (if r.layer < 16 then r.layer / 8 else 0) else r.output % 2

/-- The latch of a pipeline for an output frame. -/
def Dev.latchFor (d : Dev) (p frame : Nat) : Option Latch := (d.pipe p).latches.find? (fun l => l.frame = frame)

/-! ### Streams (R396 to R399) -/

/-- First address of buffer `i` of stream `s` (R398). -/
def Dev.bufBase (d : Dev) (s i : Nat) : Nat :=
  d.rd (Reg.STR_IFB_LO.at [s]) * 4096 + d.rd (Reg.STR_IFB_HI.at [s]) * 2 ^ 32 + i * d.rd (Reg.STR_STRIDE.at [s])

/-- Streams that programs of pipeline `p` name in PSET (R171). -/
def Dev.programsRead (d : Dev) (p s : Nat) : Bool :=
  d.sus.any (fun e => d.rd (Reg.SU_PIPELINE.at (six e.1)) = p &&
    e.2.prog.any (fun i => bits i.2.toNat 0 8 = 3 && 2 ≤ bits i.2.toNat 11 2 && bits i.2.toNat 16 4 = s))

/-- Pipeline `p` reads stream `s`. -/
def Dev.pipeReads (d : Dev) (p s : Nat) : Bool :=
  match d.pipeRec p with
  | some r => r.stream = s || d.programsRead p s
  | none => false

/-- The older latched frame of a pipeline is needed (R399): it re-times, or its guard path has DN_K ≠ 0. -/
def Dev.needsOlder (d : Dev) (p : Nat) : Bool :=
  match d.pipeRec p with
  | some r => r.retime || (r.layer < 16 && d.rd (Reg.GP_DN_K.at [r.layer]) != 0)
  | none => false

/-- A guard path that goes on through a cut-over reads buffer `i` of stream `s` (R233). -/
def Dev.keptHeld (d : Dev) (s i : Nat) : Bool :=
  d.guardKept.any (fun k => k.1.stream = s && (k.2.latches.take 2).any (fun l => l.live && (l.newer = d.bufBase s i || l.older = d.bufBase s i)))

/-- A buffer of a stream is held (R399). -/
def Dev.bufHeld (d : Dev) (s i : Nat) : Bool :=
  d.rd (Reg.STR_WRITING.at [s]) = i || (d.stream s).capBuf = i || d.keptHeld s i ||
  (List.range 64).any (fun p => d.pipeReads p s && (Tab.get [] d.streamLatch (p * 16 + s)).any (fun l =>
    l.1 = i || (d.needsOlder p && l.2 = some i))) ||
  (d.stream s).runs.any (fun r => r.2 = i) || (d.stream s).sending.contains i

/-- The buffer a new frame takes: the first after LAST, in ascending rotation, that is not held (R399). -/
def Dev.freeBuf (d : Dev) (s : Nat) : Option Nat :=
  let n := max (d.rd (Reg.STR_NBUF.at [s])) 1
  let last := d.rd (Reg.STR_LAST.at [s])
  ((List.range n).map (fun k => (last + 1 + k) % n)).find? (fun i => !d.bufHeld s i)

end Sys2Proof.Machine
end

