-- ==== Sys2Proof/Machine/Pixels.lean ====
section
/-! DEFINITION. Pixels: source formats (R397), colour conversion in (R127, R404), 10-bit codes (R128), memory formats (R278), curves of the output path (R281) and the scaler of a guard path (R285). -/

namespace Sys2Proof.Machine

/-! ### Source frames (R397, R398) -/

/-- Component depth of a source format. -/
def srcDepth (fmt : Nat) : Nat := if fmt = 2 || fmt = 6 || fmt = 7 then 10 else 8

/-- 4:2:0 formats halve the chroma rows, 4:2:2 and 4:2:0 formats the chroma columns. -/
def chroma420 (fmt : Nat) : Bool := fmt = 4 || fmt = 6 || fmt = 8
def chroma422 (fmt : Nat) : Bool := fmt = 3 || fmt = 5 || fmt = 7

/-- Addresses of planes 1 and 2 of a frame at `base`. -/
def Dev.planeBase (d : Dev) (s base k : Nat) : Nat :=
  let h := d.rd (Reg.STR_H.at [s])
  let hc := if chroma420 (d.rd (Reg.STR_FMT.at [s])) then h / 2 else h
  let p1 := base + d.rd (Reg.STR_PITCH0.at [s]) * h
  if k = 0 then base else if k = 1 then p1 else p1 + d.rd (Reg.STR_PITCH1.at [s]) * hc

/-- One chroma component (1 or 2) at chroma sample (cx, cy) of its grid. -/
def Dev.chromaAt (d : Dev) (s base comp cx cy : Nat) : Nat :=
  let fmt := d.rd (Reg.STR_FMT.at [s])
  let row1 := d.planeBase s base 1 + cy * d.rd (Reg.STR_PITCH1.at [s])
  match fmt with
  | 3 => (d.byte (base + cy * d.rd (Reg.STR_PITCH0.at [s]) + 4 * cx + (if comp = 1 then 1 else 3))).toNat
  | 4 => (d.byte (row1 + 2 * cx + (comp - 1))).toNat
  | 5 => (d.byte (row1 + 2 * cx + (comp - 1))).toNat
  | 6 => d.readLe (row1 + 4 * cx + 2 * (comp - 1)) 2 / 64
  | 7 => d.readLe (row1 + 4 * cx + 2 * (comp - 1)) 2 / 64
  | _ => (d.byte (d.planeBase s base comp + cy * d.rd (Reg.STR_PITCH1.at [s]) + cx)).toNat

/-- Integer codes of channels 0, 1 and 2 of pixel (x, y) of a source frame (R397), with chroma upsampled (R127 step 2): LINEAR averages the pixel's own chroma
sample, one of the two nearest wherever the samples lie, and a neighbour, ties to even (log 30). -/
def Dev.srcCodes (d : Dev) (s base : Nat) (linear : Bool) (x y : Nat) : List Nat :=
  let fmt := d.rd (Reg.STR_FMT.at [s])
  let row := base + y * d.rd (Reg.STR_PITCH0.at [s])
  let sub := chroma420 fmt || chroma422 fmt
  let chroma (comp : Nat) : Nat :=
    if !sub then d.chromaAt s base comp x y
    else
      let cx := x / 2
      let cy := if chroma420 fmt then y / 2 else y
      if linear then
        let w := d.rd (Reg.STR_W.at [s]) / 2
        let h := d.rd (Reg.STR_H.at [s]) / 2
        let near := [(cx - 1, cy), (min (cx + 1) (w - 1), cy)] ++ (if chroma420 fmt then [(cx, cy - 1), (cx, min (cy + 1) (h - 1))] else [])
        let n := near.getD (Config.chromaSecond x y % near.length) (cx, cy)
        (rneInt ((d.chromaAt s base comp cx cy + d.chromaAt s base comp n.1 n.2 : Nat) : Int) 2).toNat
      else d.chromaAt s base comp cx cy
  match fmt with
  | 0 => [2, 1, 0].map (fun i => (d.byte (row + 3 * x + i)).toNat)
  | 1 => [2, 1, 0].map (fun i => (d.byte (row + 4 * x + i)).toNat)
  | 2 =>
    let w := d.readLe (row + 4 * x) 4
    [bits w 20 10, bits w 10 10, bits w 0 10]
  | 3 => [(d.byte (row + 2 * x)).toNat, chroma 1, chroma 2]
  | 6 => [d.readLe (row + 2 * x) 2 / 64, chroma 1, chroma 2]
  | 7 => [d.readLe (row + 2 * x) 2 / 64, chroma 1, chroma 2]
  | _ => [(d.byte (row + x)).toNat, chroma 1, chroma 2]

/-- Byte runs of row `y` of a source frame, all planes. -/
def Dev.srcRuns (d : Dev) (s base y : Nat) : List (Nat × Nat) :=
  let fmt := d.rd (Reg.STR_FMT.at [s])
  let w := d.rd (Reg.STR_W.at [s])
  let p0 := base + y * d.rd (Reg.STR_PITCH0.at [s])
  let pc (k : Nat) : Nat := d.planeBase s base k + (if chroma420 fmt then y / 2 else y) * d.rd (Reg.STR_PITCH1.at [s])
  match fmt with
  | 0 => [(p0, 3 * w)]
  | 1 => [(p0, 4 * w)]
  | 2 => [(p0, 4 * w)]
  | 3 => [(p0, 2 * w)]
  | 4 => [(p0, w), (pc 1, w)]
  | 5 => [(p0, w), (pc 1, w)]
  | 6 => [(p0, 2 * w), (pc 1, 2 * w)]
  | 7 => [(p0, 2 * w), (pc 1, 2 * w)]
  | 8 => [(p0, w), (pc 1, w / 2), (pc 2, w / 2)]
  | _ => [(p0, w), (pc 1, w), (pc 2, w)]

/-- The bytes of columns [x, x+n) in the runs of a source row; where two columns share a chroma sample, those of whole pairs. -/
def Dev.cropRuns (d : Dev) (s base y x n : Nat) : List (Nat × Nat) :=
  let fmt := d.rd (Reg.STR_FMT.at [s])
  let w := max (d.rd (Reg.STR_W.at [s])) 1
  let sub := chroma420 fmt || chroma422 fmt
  let lo := if sub then x / 2 * 2 else x
  let hi := min w (if sub then (x + n + 1) / 2 * 2 else x + n)
  (d.srcRuns s base y).map (fun r => (r.1 + r.2 * lo / w, r.2 * (hi - lo) / w))

/-! ### Colour conversion in (R127, R404) -/

/-- The tables in force at output `k` (0, 1), or in the boundary engines (2). -/
def Dev.tablesOf (d : Dev) (k : Nat) : ImgTables := Tab.get {} d.tables k

/-- The colour entry of an index, or the default for a depth (R404). -/
def Dev.colourEntry (d : Dev) (k i depth : Nat) : ColourEntry :=
  match (d.tablesOf k).formats.find? (fun e => e.1 = i) with
  | some e => e.2
  | none =>
    let one : Word := 0x3F800000
    { linear := false, alphaSrc := 2, alphaK := one, off1 := [0, 0, 0], gain := List.replicate 3 (recip32 (2 ^ depth - 1)),
      mat := [one, 0, 0, 0, one, 0, 0, 0, one], off2 := [0, 0, 0] }

/-- A 3×3 matrix with offsets, in FP32, terms added in order (log 31). -/
def matrix3 (mat off v : List Word) : List Word :=
  (List.range 3).map (fun i =>
    let t (k : Nat) : Word := mul32 (mat.getD (3 * i + k) 0) (v.getD k 0)
    add32 (add32 (add32 (t 0) (t 1)) (t 2)) (off.getD i 0))

/-- Steps 3 and 4 of R127 on the codes of a pixel, and its fourth channel: source alpha (1, no source format carries one), luma before step 4, or the constant. -/
def colourIn (e : ColourEntry) (codes : List Nat) : List Word :=
  let v := (List.range 3).map (fun i => mul32 (sub32 (round32 (Num.ofInt (codes.getD i 0))) (e.off1.getD i 0)) (e.gain.getD i 0))
  let alpha := if e.alphaSrc = 0 then 0x3F800000 else if e.alphaSrc = 1 then v.getD 0 0 else e.alphaK
  matrix3 e.mat e.off2 v ++ [alpha]

/-- 10-bit code of a value (R128 step 5): round(v × 1,023), ties to even, saturated; NaN gives 0. -/
def code10 (v : Word) : Nat :=
  let n := num32 v
  if n.isNan then 0 else (min (max (n.mul (Num.ofInt 1023)).toIntRne 0) 1023).toNat

/-! ### Pixels of the composer -/

/-- A composed or source pixel: 10-bit components and alpha. -/
structure Px where
  r : Nat
  g : Nat
  b : Nat
  a : Nat := 1023
  deriving DecidableEq, Repr

/-- The word of a pixel in a line buffer (R282). -/
def Px.word (p : Px) : Word := BitVec.ofNat 32 (p.b + p.g * 1024 + p.r * 1048576)

def pxOfWord (w : Nat) : Px := ⟨bits w 20 10, bits w 10 10, bits w 0 10, 1023⟩

/-- Widening of components to 10 bits (R278). -/
def widen8 (c : Nat) : Nat := c * 4 + c / 64
def widen6 (c : Nat) : Nat := c * 16 + c / 4
def widen5 (c : Nat) : Nat := c * 32 + c

/-- Bytes of a pixel in a memory format (R278). -/
def memBytes (fmt : Nat) : Nat := if fmt = 0 then 2 else if fmt = 1 then 3 else 4

/-- A pixel of a memory format from its little-endian value (R278). -/
def memPixel (fmt v : Nat) : Px :=
  match fmt with
  | 0 => ⟨widen5 (bits v 11 5), widen6 (bits v 5 6), widen5 (bits v 0 5), 1023⟩
  | 1 => ⟨widen8 (bits v 16 8), widen8 (bits v 8 8), widen8 (bits v 0 8), 1023⟩
  | 2 => ⟨widen8 (bits v 16 8), widen8 (bits v 8 8), widen8 (bits v 0 8), 1023⟩
  | 3 => ⟨widen8 (bits v 16 8), widen8 (bits v 8 8), widen8 (bits v 0 8), widen8 (bits v 24 8)⟩
  | _ => ⟨bits v 20 10, bits v 10 10, bits v 0 10, bits v 30 2 * 341⟩

/-- A pixel of the Lantern store (R295). -/
def lanternPixel (fmt v : Nat) : Px :=
  match fmt with
  | 0 => memPixel 0 v
  | 1 => ⟨widen5 (bits v 10 5), widen5 (bits v 5 5), widen5 (bits v 0 5), bits v 15 1 * 1023⟩
  | 2 => memPixel 2 v
  | _ => memPixel 3 v

/-- Value of the little-endian bytes of pixel `x` of a row. -/
def rowPixel (data : Bytes) (size x : Nat) : Nat := leNat ((data.drop (x * size)).take size)

/-- One component of a composed pixel (R279). -/
def blend (premult : Bool) (galpha s a dst : Nat) : Nat :=
  let e := (a * galpha + 127) / 255
  if premult then min 1023 (s + (dst * (1023 - e) + 511) / 1023) else (s * e + dst * (1023 - e) + 511) / 1023

/-- A layer's pixel over the running result (R279). -/
def Px.over (s : Px) (premult : Bool) (galpha : Nat) (p : Px) : Px :=
  ⟨blend premult galpha s.r s.a p.r, blend premult galpha s.g s.a p.g, blend premult galpha s.b s.a p.b, 1023⟩

/-- A curve of the output path (R281): a curve the image does not supply is the identity. -/
def Dev.outCurve (d : Dev) (k target v : Nat) : Nat :=
  match (d.tablesOf k).curves.find? (fun c => c.target = target) with
  | none => v
  | some c => code10 (c.entries.getD v 0)

/-- Applies curves `target`, `target + 1` and `target + 2` to the channels. -/
def Dev.curvePx (d : Dev) (k target : Nat) (p : Px) : Px :=
  ⟨d.outCurve k target p.r, d.outCurve k (target + 1) p.g, d.outCurve k (target + 2) p.b, p.a⟩

/-! ### The scaler of a guard path (R284, R285) -/

/-- First tap index and phase of output sample `x` (R285). -/
def scalePos (srcN n x : Nat) : Int × Nat :=
  let step := (srcN * 65536 + n / 2) / max n 1
  let p : Int := ((2 * x + 1) * step - 65536 : Int) / 2
  (p / 65536, (p / 1024 % 64).toNat)

/-- One filtered sample; `s` reads a sample of the crop, held at its edge. -/
def scaleTap (coef : List Int) (taps back : Nat) (srcN n x : Nat) (s : Nat → Nat) : Nat :=
  let q := scalePos srcN n x
  let edge (i : Int) : Nat := (min (max i 0) ((srcN : Int) - 1)).toNat
  let sum := (List.range taps).foldl (fun (acc : Int) (t : Nat) =>
    acc + coef.getD (q.2 * taps + t) 0 * (s (edge (q.1 - (back : Int) + (t : Int))) : Nat)) 0
  (min (max ((sum + 512) / 1024) 0) 1023).toNat

/-- The default coefficient sets (R285). -/
def defaultCoef (taps at_ : Nat) : List Int := (List.range 64).flatMap (fun _ => (List.range taps).map (fun t => if t = at_ then 1024 else 0))

def Dev.hcoef (d : Dev) (k i : Nat) : List Int := (((d.tablesOf k).hcoefs.find? (fun e => e.1 = i)).map Prod.snd).getD (defaultCoef 8 3)
def Dev.vcoef (d : Dev) (k i : Nat) : List Int := (((d.tablesOf k).vcoefs.find? (fun e => e.1 = i)).map Prod.snd).getD (defaultCoef 6 2)

/-- Rows of the crop that output row `y` needs. -/
def scaleRows (srcN n y : Nat) : List Nat :=
  let i := (scalePos srcN n y).1
  (List.range 6).map (fun (t : Nat) => (min (max (i - 2 + (t : Int)) 0) ((srcN : Int) - 1)).toNat)

/-- Temporal de-noise of one component (R284 step 3). -/
def denoise (k thresh c p : Nat) : Nat :=
  let diff : Int := (p : Int) - c
  if diff.natAbs ≤ thresh then ((c : Int) + ((k : Int) * diff + 8) / 16).toNat else c

end Sys2Proof.Machine
end

