-- ==== Sys2Proof/Machine/Wear.lean ====
section
/-! DEFINITION. Panel identity, the wear ledger and the compensation of the output path (R433 to R443). -/

namespace Sys2Proof.Machine

/-! ### Who is shown (R318, R435) -/

/-- TWIN_SEL of the output names the device's own side, or the device is in SOLO. -/
def Dev.selMine (d : Dev) (o : Nat) : Bool :=
  d.rd (Reg.BCN_ROLE.at []) = 0 || (d.selB.contains o == d.bit (Reg.BCN_SIDE.at []))

/-! ### Zones and tiles (R433, R434) -/

def zoneCount : Nat := 2304
def zoneKey (o z : Nat) : Nat := o * zoneCount + z

/-- Zone of a pixel of an output's own half. -/
def Dev.zoneOf (d : Dev) (o x y : Nat) : Nat := 64 * (36 * y / max (d.vactive (d.rasterBase o)) 1) + 64 * x / max (d.hactive (d.rasterBase o)) 1

def Dev.tiles (d : Dev) (o : Nat) : List Nat :=
  (List.range (min (d.rd (Reg.WEAR_TILES.at [o])) 64)).filter (fun t => d.bit (Reg.WEAR_TILE_VALID.at [o, t]))

/-- Zone `z` lies in tile `t`. -/
def Dev.inTile (d : Dev) (o t z : Nat) : Bool :=
  let x0 := d.rd (Reg.WEAR_TILE_ZX0.at [o, t])
  let y0 := d.rd (Reg.WEAR_TILE_ZY0.at [o, t])
  x0 ≤ z % 64 && z % 64 ≤ x0 + d.rd (Reg.WEAR_TILE_ZW.at [o, t]) && y0 ≤ z / 64 && z / 64 ≤ y0 + d.rd (Reg.WEAR_TILE_ZH.at [o, t])

def Dev.tileOf (d : Dev) (o z : Nat) : Option Nat := (d.tiles o).find? (fun t => d.inTile o t z)

/-- L50 of a zone, hours (R438). -/
def Dev.lifeOf (d : Dev) (o z : Nat) : Nat :=
  match d.tileOf o z with
  | some t => d.rd (Reg.WEAR_TILE_L50_HOURS.at [o, t])
  | none => d.rd (Reg.WEAR_PANEL_L50_HOURS.at [o])

/-- WEAR_PM of a zone (R438). -/
def Dev.wearPm (d : Dev) (o z : Nat) : Nat :=
  let e := Tab.get 0 d.wear.ledger (zoneKey o z)
  let life := d.lifeOf o z
  if life = 0 then Config.wearOpen e else 1000 * e / (life * 3600 * 65536)

def Dev.onWear (d : Dev) (f : Wear → Wear) : Dev := { d with wear := f d.wear }

/-! ### Compensation (R439) -/

/-- Linear interpolation between points at codes min(32k, 1,023): the two values and the fraction. -/
def segment (pts : Nat → Nat) (c : Nat) : Nat × Nat × Nat × Nat :=
  let k := min (c / 32) 31
  (pts k, pts (k + 1), c - 32 * k, min (32 * (k + 1)) 1023 - 32 * k)

/-- A uniformity curve, rounded to nearest even and saturated. -/
def uniform (pts : Nat → Nat) (c : Nat) : Nat :=
  let s := segment pts c
  (min (max (rneInt ((s.1 : Int) * s.2.2.2 + ((s.2.1 : Int) - s.1) * s.2.2.1) s.2.2.2) 0) 1023).toNat

/-- The zone gain at a pixel: bilinear between zone centres, held outside the outer ones. -/
def Dev.gainAt (d : Dev) (o x y : Nat) : Nat :=
  let w := max (d.hactive (d.rasterBase o)) 1
  let h := max (d.vactive (d.rasterBase o)) 1
  let u := min ((2 * x + 1) * 64 - w) (63 * 2 * w)
  let v := min ((2 * y + 1) * 36 - h) (35 * 2 * h)
  let g (i j : Nat) : Nat :=
    Tab.get 4096 d.wear.gains ((o * 2 + d.rd (Reg.WEAR_GAIN_COPY.at [o])) * 4096 + 64 * min j 35 + min i 63)
  let i := u / (2 * w)
  let j := v / (2 * h)
  let fu := u % (2 * w)
  let fv := v % (2 * h)
  nearDiv ((g i j * (2 * w - fu) + g (i + 1) j * fu) * (2 * h - fv) + (g i (j + 1) * (2 * w - fu) + g (i + 1) (j + 1) * fu) * fv)
    (4 * w * h)

/-- What is sent to the panel for a composed pixel at (x, y) of the output's own half (R439). -/
def Dev.compensate (d : Dev) (o x y : Nat) (p : Px) : Px :=
  let mode := d.rd (Reg.WEAR_COMP_MODE.at [o])
  if mode = 0 || mode = 3 then p
  else
    let z := d.zoneOf o x y
    let uni (c v : Nat) : Nat :=
      match d.tileOf o z with
      | some t =>
        if d.bit (Reg.WEAR_TILE_CURVE.at [o, t]) then
          uniform (fun k => ((Tab.get [] d.wear.curves (o * 64 + t)).getD (33 * c + k) 0)) v
        else v
      | none => v
    let g := if mode = 2 then d.gainAt o x y else 4096
    let one (c v : Nat) : Nat := let u := uni c v
      if mode = 2 then min 1023 ((u * g + 2048) / 4096) else u
    ⟨one 0 p.r, one 1 p.g, one 2 p.b, p.a⟩

/-! ### Accumulation (R437) -/

/-- LIN of a component. -/
def Dev.linOf (d : Dev) (o c : Nat) : Nat :=
  let s := segment (fun k => d.rd (Reg.WEAR_LIN.at [o, k])) c
  if s.1 ≤ s.2.1 then s.1 + openDiv ((s.2.1 - s.1) * s.2.2.1) s.2.2.2 else s.1 - openDiv ((s.1 - s.2.1) * s.2.2.1) s.2.2.2

def Dev.luminance (d : Dev) (o : Nat) (p : Px) : Nat :=
  (13933 * d.linOf o p.r + 46871 * d.linOf o p.g + 4732 * d.linOf o p.b) / 65536

def Dev.accumulates (d : Dev) (o : Nat) : Bool :=
  d.bit (Reg.WEAR_WEAR_EN.at [o]) && d.bit (Reg.OUT_ENABLE.at [o]) && d.bit (Reg.OUT_LINK_UP.at [o]) && d.selMine o

/-- Adds the pixels of an active line, as sent. -/
def Dev.wearLine (d : Dev) (o y : Nat) (px : List Px) : Dev :=
  if !d.accumulates o then d
  else
    (List.zip (List.range px.length) px).foldl (fun d e =>
      let k := zoneKey o (d.zoneOf o e.1 y)
      d.onWear (fun w => { w with sums := Tab.modify 0 w.sums k (fun v => v + d.luminance o e.2) })) d

/-- Pixels of one zone: columns x with floor(64x / W) = c, times rows. -/
def zoneSpan (n parts i : Nat) : Nat := (n * (i + 1) + parts - 1) / parts - (n * i + parts - 1) / parts

/-- At a frame boundary each counter advances by the zone mean times the duration of the frame, and a ready gain copy comes into use (R437, R440). -/
def Dev.wearBoundary (d : Dev) (o frameNs : Nat) : Dev :=
  let w := d.hactive (d.rasterBase o)
  let h := d.vactive (d.rasterBase o)
  let mine := d.wear.sums.filter (fun e => e.1 / zoneCount = o)
  let d := mine.foldl (fun d e =>
    let z := e.1 % zoneCount
    let m := nearDiv e.2 (max (zoneSpan w 64 (z % 64) * zoneSpan h 36 (z / 64)) 1)
    d.onWear (fun q => { q with counters := Tab.modify 0 q.counters e.1 (fun v => (v + m * frameNs) % 2 ^ 64) })) d
  let d := d.onWear (fun q => { q with sums := q.sums.filter (fun e => e.1 / zoneCount != o) })
  if d.wear.ready.contains o then
    (d.wr (Reg.WEAR_GAIN_COPY.at [o]) (1 - d.rd (Reg.WEAR_GAIN_COPY.at [o]))).onWear (fun q => { q with ready := q.ready.filter (· != o) })
  else d

/-- Requests a last-good record (R241, R441). -/
def Dev.requestLastGood (d : Dev) : Dev := d.set (Reg.TOP_LG_WRITE_PENDING.at []) true

/-- Zones of an output with wear. -/
def Dev.wornZones (d : Dev) (o : Nat) : List Nat := (d.wear.ledger.filter (fun e => e.1 / zoneCount = o)).map (fun e => e.1 % zoneCount)

/-- The highest WEAR_PM of an output, and its zone (R438, R444). -/
def Dev.wearTop (d : Dev) (o : Nat) : Nat × Nat :=
  (d.wornZones o).foldl (fun (m : Nat × Nat) z => if m.1 < d.wearPm o z then (d.wearPm o z, z) else m) (0, 0)

/-- What a 10-bit field shows of a WEAR_PM (log 164). -/
def shownPm (pm : Nat) : Nat := if pm < 1024 then pm else Config.wearOpen pm

/-- After a change of the ledger, or a commit that changes a rated life or WARN_PM: WEAR_LIMIT of a zone that first reaches WARN_PM (R438). -/
def Dev.wearCheck (d : Dev) (o : Nat) : Dev :=
  (d.wornZones o).foldl (fun d z =>
    if d.rd (Reg.WEAR_WARN_PM.at [o]) ≤ d.wearPm o z && !d.wear.warned.contains (zoneKey o z) then
      (d.onWear (fun w => { w with warned := w.warned ++ [zoneKey o z] })).raise 0x0362 1 o [o, z]
    else d) d

/-- Adds increments to the ledger. -/
def Dev.addWear (d : Dev) (o : Nat) (incs : List (Nat × Nat)) : Dev :=
  (incs.foldl (fun d e => d.onWear (fun w => { w with ledger := Tab.modify 0 w.ledger (zoneKey o e.1) (fun v => (v + e.2) % 2 ^ 48) })) d).wearCheck o

/-- The device sends Keeper messages to its twin (R313). -/
def Dev.tellTwin (d : Dev) (ms : List KeeperMsg) : Dev :=
  if d.beacon.sick then d else { d with bcnSent := d.bcnSent ++ ms.map BcnMsg.keeper }

def finTwo (o : Nat) : Fin 2 := Fin.ofNat 2 o

/-- LEDGER_FOLD (R436, R437): each second. -/
def execLedgerFold (s : State) : Host.Outcome State Fault Refusal :=
  s.act (fun d =>
    let incs (o : Nat) : List (Nat × Nat) := (d.wear.counters.filter (fun e => e.1 / zoneCount = o && 1000000000 ≤ e.2)).map
      (fun e => (e.1 % zoneCount, e.2 / 1000000000))
    let both := [(0, incs 0), (1, incs 1)]
    let wiped := d.wear.wiped
    let d := d.onWear (fun w => { w with
      counters := w.counters.foldl (fun t e => Tab.put 0 t e.1 (e.2 % 1000000000)) []
      wiped := [] })
    let kept := both.map (fun e => (e.1, e.2.filter (fun i => !wiped.contains (zoneKey e.1 i.1))))
    let d := kept.foldl (fun d e => if e.2.isEmpty then d else d.addWear e.1 e.2) d
    d.tellTwin ((kept.filter (fun e => !e.2.isEmpty && d.selMine e.1)).map (fun e => KeeperMsg.wear (finTwo e.1) e.2)))

/-- Sets zones of an output to 0 in the ledger (R436). -/
def Dev.wipeZones (d : Dev) (o : Nat) (p : Nat → Bool) : Dev :=
  let ks := ((List.range zoneCount).filter p).map (zoneKey o)
  (d.onWear (fun w => { w with
    ledger := w.ledger.filter (fun e => !ks.contains e.1)
    warned := w.warned.filter (fun k => !ks.contains k)
    wiped := w.wiped.filter (fun k => !ks.contains k) ++ ks })).wearCheck o

/-- WEAR_GAIN_UPDATE (R440, R441): each hour of operation. A gain is open where the formula divides by 0 or gives more than 13 bits (log 34). -/
def execWearGainUpdate (s : State) : Host.Outcome State Fault Refusal :=
  s.act (fun d =>
    let d := upTo 2 (fun o d =>
      let l (z : Nat) : Int × Nat :=
        let den : Nat := d.lifeOf o z * 3600 * 65536 * 2
        ((den : Int) - (Tab.get 0 d.wear.ledger (zoneKey o z) : Nat), den)
      let zs := List.range zoneCount
      let low := zs.foldl (fun (m : Int × Nat) z => let q := l z
        if q.1 * m.2 < m.1 * q.2 then q else m) (l 0)
      let unstated := zs.any (fun z => (l z).2 = 0)
      let gain (z : Nat) : Int :=
        let q := l z
        if unstated || q.1 = 0 then (trunc 13 (Config.wearOpen (zoneKey o z)) : Nat)
        else
          let g : Nat := nearDiv (4096 * low.1.natAbs * q.2) (low.2 * q.1.natAbs)
          if 0 < q.1 && low.1 < 0 then -(g : Int)
          else if 8192 ≤ g then (trunc 13 (Config.wearOpen (zoneKey o z)) : Nat) else g
      let floor : Nat := d.rd (Reg.WEAR_GAIN_FLOOR.at [o])
      let copy := 1 - d.rd (Reg.WEAR_GAIN_COPY.at [o])
      let d' := d.onWear (fun w => { w with
        gains := zs.foldl (fun t z => Tab.put 4096 t ((o * 2 + copy) * 4096 + z) (max (floor : Int) (gain z)).toNat) w.gains
        ready := if w.ready.contains o then w.ready else w.ready ++ [o] })
      if zs.any (fun z => decide (gain z < floor)) then d'.set (Reg.WEAR_FLOOR_HIT.at [o]) true else d') d
    d.requestLastGood)

/-! ### Identity (R435, R436) -/

/-- Keeper begins to read the EEPROM of every valid tile of an output, on a device that may. -/
def Dev.readTiles (d : Dev) (o : Nat) : Dev :=
  if d.selMine o then
    d.onWear (fun w => { w with reading := (d.tiles o).foldl (fun l t => if l.contains (o * 64 + t) then l else l ++ [o * 64 + t]) w.reading })
  else d

/-- An identity read fails: TILE_UNREADABLE once per episode, which a valid read of the same identity ends (R436). Identity `k` is 64 times the output plus the tile, or 128 plus the output for its panel. -/
def Dev.unreadable (d : Dev) (o k : Nat) : Dev :=
  if d.wear.unread.contains k then d
  else (d.onWear (fun w => { w with unread := w.unread ++ [k] })).raise 0x0361 1 o

def Dev.readable (d : Dev) (k : Nat) : Dev := d.onWear (fun w => { w with unread := w.unread.filter (· != k) })

/-- A panel identity read ends (R435, R436): `none`, a read that failed, which leaves PANEL_ID and PANEL_ID_VALID as they are (log 189). -/
def Dev.panelIdentity (d : Dev) (o : Nat) (read : Option Nat) : Dev :=
  match read with
  | none => d.unreadable o (128 + o)
  | some id =>
    let changed := id != d.rd (Reg.WEAR_PANEL_ID.at [o])
    let d := ((d.readable (128 + o)).set (Reg.WEAR_PANEL_ID_VALID.at [o]) true).wr (Reg.WEAR_PANEL_ID.at [o]) id
    if changed && d.rd (Reg.WEAR_TILES.at [o]) = 0 then
      ((d.wipeZones o (fun _ => true)).raise 0x0360 1 o [o, 0x40, id]).requestLastGood
    else d

/-- An EEPROM's fields at an offset. -/
def eeField (e : Bytes) (at_ n : Nat) : Nat := leNat ((e.drop at_).take n)

/-- An identity read of a tile ends (R436): `none`, no acknowledge. The event's ARG2 holds SERIAL bits 31 to 0 (log 165). -/
def Dev.tileIdentity (d : Dev) (o t : Nat) (e : Option Bytes) : Dev :=
  let bad (st : Nat) : Dev :=
    ((d.wr (Reg.WEAR_TILE_STATE.at [o, t]) st).incSat (Reg.WEAR_TILE_READ_FAILS.at [o, t])).unreadable o (o * 64 + t)
  match e with
  | none => bad 2
  | some b =>
    let serial := eeField b 8 8
    if (crc32 (b.take 252)).toNat != eeField b 252 4 then bad 3
    else if eeField b 0 4 != 0x54494C45 || eeField b 4 2 != 1 || serial = 0 then bad 2
    else
      let same := serial = d.rd (Reg.WEAR_TILE_SERIAL_LO.at [o, t]) + d.rd (Reg.WEAR_TILE_SERIAL_HI.at [o, t]) * 2 ^ 32
      let d := (d.wr (Reg.WEAR_TILE_STATE.at [o, t]) 1).readable (o * 64 + t)
      let load (d : Dev) : Dev :=
        (d.set (Reg.WEAR_TILE_CURVE.at [o, t]) true).onWear (fun w => { w with
          curves := Tab.put [] w.curves (o * 64 + t) ((List.range 99).map (fun i => eeField b (0x20 + 2 * i) 2)) })
      if same then (if d.bit (Reg.WEAR_TILE_CURVE.at [o, t]) then d else load d)
      else
        let d := (d.wr (Reg.WEAR_TILE_SERIAL_LO.at [o, t]) serial).wr (Reg.WEAR_TILE_SERIAL_HI.at [o, t]) (serial / 2 ^ 32)
        let d := d.wr (Reg.WEAR_TILE_L50_HOURS.at [o, t]) (eeField b 0x10 4)
        let d := (load d).wipeZones o (fun z => d.inTile o t z)
        (d.raise 0x0360 1 o [o, t, serial]).requestLastGood

/-- WEAR_POLL (R435): the POLL_S seconds of one output have passed. -/
def execWearPoll (o : Fin 2) (s : State) : Host.Outcome State Fault Refusal :=
  s.act (fun d => if d.rd (Reg.WEAR_POLL_S.at [o.val]) = 0 then d else d.readTiles o.val)

/-- RESCAN (R435, R444). -/
def execRescan (mask : BitVec 2) (s : State) : Host.Outcome State Fault Refusal :=
  s.actHost (fun d => upTo 2 (fun o d => if mask.getLsbD o then d.readTiles o else d) d)

/-- TILE_READ_DONE (R435, R436): a read in progress ends; the result goes to the twin. -/
def execTileReadDone (o : Fin 2) (t : Fin 64) (eeprom : Option Bytes) (s : State) : Host.Outcome State Fault Refusal :=
  s.act (fun d =>
    let k := o.val * 64 + t.val
    if d.wear.reading.contains k then
      let d := d.onWear (fun w => { w with reading := w.reading.filter (· != k) })
      (d.tileIdentity o t eeprom).tellTwin [.tile o t eeprom]
    else d)

/-- RESET_ZONES (R436, R444): the selected zones are set to 0, none where RST_TILE names a tile that is not in use (log 166); the RESCAN bits of the same write act too. -/
def execResetZones (v : Word) (s : State) : Host.Outcome State Fault Refusal :=
  s.actHost (fun d =>
    let v := v.toNat
    let d := upTo 2 (fun o d => if v.testBit o then d.readTiles o else d) d
    if !v.testBit 10 then d
    else
      let o := bits v 8 1
      let t := bits v 2 6
      ((d.wipeZones o (fun z => v.testBit 9 || ((d.tiles o).contains t && d.inTile o t z))).raise 0x0363 1 o).requestLastGood)

end Sys2Proof.Machine
end

