-- ==== Sys2Proof/Machine/Auxp.lean ====
section
/-! DEFINITION. The auxiliary output (R268 to R271). -/

namespace Sys2Proof.Machine

def Dev.onAuxp (d : Dev) (f : Auxp → Auxp) : Dev := { d with auxp := f d.auxp }

/-- The value in force of an AUXP field: those of the OUT1 commit take effect at AUXP's own blanking or period (R269). -/
def Dev.ax (d : Dev) (f : Fld) : Nat := Tab.get f.reset d.auxp.live f.key

/-- A key of the AUXP block. -/
def auxpKey (k : Nat) : Bool := 0x02200000 * 32 ≤ k && k < 0x02300000 * 32

/-- AUXP takes the committed fields. -/
def Dev.auxpAdopt (d : Dev) : Dev :=
  let d := d.onAuxp (fun a => { a with live := d.live.filter (fun e => auxpKey e.1) })
  let on := d.ax (Reg.AUXP_ENABLE.at []) != 0
  let was := d.bit (Reg.AUXP_RUNNING.at [])
  let d := d.set (Reg.AUXP_RUNNING.at []) on
  if on && !was then
    d.onAuxp (fun a => { a with start := d.time, row := 0, off := false, crcs := [], pending := [], bands := [], periods := 0, waiting := false, noTe := 0 })
  else if on then d else d.withdraw auxpMaster

/-- Nanoseconds of an AUXP frame. -/
def Dev.auxpFrameNs (d : Dev) : Nat :=
  max (d.ax (Reg.AUXP_HTOTAL.at []) * d.ax (Reg.AUXP_VTOTAL.at []) * 1000000 / max (d.ax (Reg.AUXP_PCLK_KHZ.at [])) 1) 1

/-- Bytes of one row of the source plane. -/
def Dev.auxpRow (d : Dev) : Nat := d.ax (Reg.AUXP_HACTIVE.at []) * memBytes (d.ax (Reg.AUXP_SRC_FMT.at []))

def Dev.auxpRowAddr (d : Dev) (y : Nat) : Nat :=
  d.ax (Reg.AUXP_SRC_ADDR_LO.at []) + d.ax (Reg.AUXP_SRC_ADDR_HI.at []) * 2 ^ 32 + y * d.ax (Reg.AUXP_PITCH.at [])

/-- Start of row `y` of the frame in progress on the device time base: the blanking comes first (log 35). -/
def Dev.auxpRowAt (d : Dev) (y : Nat) : Nat :=
  d.auxp.start + (d.ax (Reg.AUXP_VTOTAL.at []) - d.ax (Reg.AUXP_VACTIVE.at []) + y) * d.ax (Reg.AUXP_HTOTAL.at []) * 1000000 / max (d.ax (Reg.AUXP_PCLK_KHZ.at [])) 1

/-- AUXP asks for the row it scans next: deadline-critical, due when its line starts (R26, R269). -/
def Dev.auxpAsk (d : Dev) : Dev :=
  let y := d.auxp.row
  if !d.bit (Reg.AUXP_RUNNING.at []) || d.ax (Reg.AUXP_MODE.at []) != 0 || d.ax (Reg.AUXP_VACTIVE.at []) ≤ y then d
  else d.askReads auxpMaster (d.auxpRowAt y % 2 ^ 32) true (d.auxpRowAddr y) d.auxpRow

/-- A frame of AUXP starts. -/
def Dev.auxpFrame (d : Dev) : Dev := ((d.withdraw auxpMaster).onAuxp (fun a => { a with row := 0, off := false })).auxpAsk

/-- The pixels of a row of the source plane, from its bytes. -/
def Dev.auxpPixels (d : Dev) (data : Bytes) : List Word :=
  let fmt := d.ax (Reg.AUXP_SRC_FMT.at [])
  (List.range (d.ax (Reg.AUXP_HACTIVE.at []))).map (fun x => (memPixel fmt (rowPixel data (memBytes fmt) x)).word)

/-- AUXP sends row `y`: the plane's pixels, or the colour BG (R269). -/
def Dev.auxpSend (d : Dev) (y : Nat) : Dev :=
  if d.auxp.off then d.onAuxp (fun a => { a with sent := List.replicate (d.ax (Reg.AUXP_HACTIVE.at [])) (BitVec.ofNat 32 (d.ax (Reg.AUXP_BG.at []))) })
  else
    let r := d.readShown (d.auxpRowAddr y) d.auxpRow 1 2
    r.2.2.onAuxp (fun a => { a with sent := d.auxpPixels r.1 })

/-- The line of the next row starts: a row that is not there switches AUXP to BG for the rest of the frame (R269, R273). -/
def Dev.auxpLine (d : Dev) : Dev :=
  let y := d.auxp.row
  if d.ax (Reg.AUXP_VACTIVE.at []) ≤ y || d.time < d.auxpRowAt y then d
  else
    let d :=
      if !d.auxp.off && d.asking auxpMaster then
        (((d.withdraw auxpMaster).inc (Reg.AUXP_UNDERRUN.at [])).onAuxp (fun a => { a with off := true })).raise 0x0351 1 2
      else d
    let d := (d.auxpSend y).onAuxp (fun a => { a with row := y + 1 })
    if d.auxp.off then d else d.auxpAsk

/-- In INTERNAL mode AUXP has scanned what the time that has passed allows, and takes committed fields at its blanking (R269; log 35). -/
def Dev.auxpCatchUp (d : Dev) : Dev :=
  if d.bit (Reg.AUXP_RUNNING.at []) && d.ax (Reg.AUXP_MODE.at []) = 0 then
    let d := upTo (d.ax (Reg.AUXP_VACTIVE.at [])) (fun _ d => d.auxpLine) d
    let n := (d.time - d.auxp.start) / d.auxpFrameNs
    if n = 0 then d
    else
      ((d.inc (Reg.AUXP_FRAME.at []) n).onAuxp (fun a => { a with start := a.start + n * d.auxpFrameNs })).auxpAdopt.auxpFrame
  else d

/-- At the OUT1 boundary the fields are taken; a port that does not run has no blanking or period to wait for. -/
def Dev.auxpBoundary (d : Dev) : Dev := if d.bit (Reg.AUXP_RUNNING.at []) then d.auxpCatchUp else d.auxpAdopt.auxpAsk

/-- Rows of a band of 64. -/
def Dev.bandRows (d : Dev) (b : Nat) : List Nat := (List.range (min 64 (d.ax (Reg.AUXP_VACTIVE.at []) - 64 * b))).map (64 * b + ·)

/-- CRC-32 of a band of 64 rows (R270). -/
def Dev.bandCrc (d : Dev) (b : Nat) : Word :=
  (d.bandRows b).foldl (fun c y => crcAdd c (d.bytes (d.auxpRowAddr y) d.auxpRow)) 0

/-- The changed bands are pushed, from the top one down, with the rows that memory then holds (R270; log 35). -/
def Dev.auxpPush (d : Dev) : Dev :=
  let bs := d.auxp.bands
  let px := (bs.flatMap d.bandRows).flatMap (fun y => d.auxpPixels (d.bytes (d.auxpRowAddr y) d.auxpRow))
  (d.inc (Reg.AUXP_BANDS_PUSHED.at []) bs.length).onAuxp (fun a => { a with
    crcs := bs.foldl (fun t b => Tab.insert t b (Tab.get 0 a.pending b)) a.crcs
    bands := [], waiting := false, noTe := 0, sent := px })

/-- AUXP_PERIOD (R269, R270): in COMMAND mode the plane is read and the changed bands are found. -/
def execAuxpPeriod (s : State) : Host.Outcome State Fault Refusal :=
  s.act (fun d =>
    if !(d.bit (Reg.AUXP_RUNNING.at []) && d.ax (Reg.AUXP_MODE.at []) = 1) then d
    else
      let d := d.auxpAdopt
      if !(d.bit (Reg.AUXP_RUNNING.at []) && d.ax (Reg.AUXP_MODE.at []) = 1) then d
      else
        let h := d.ax (Reg.AUXP_VACTIVE.at [])
        let d := (List.range h).foldl (fun d y => ((d.askReads auxpBandMaster d.nodl false (d.auxpRowAddr y) d.auxpRow).ddrCheck (d.auxpRowAddr y) d.auxpRow 1 2).2) d
        let n := (h + 63) / 64
        let every := d.ax (Reg.AUXP_FULL_EVERY.at [])
        let full := every != 0 && every ≤ d.auxp.periods + 1
        let changed := (List.range n).filter (fun b => full || d.auxp.bands.contains b || Tab.find d.auxp.crcs b != some (d.bandCrc b))
        let d := (d.inc (Reg.AUXP_FRAME.at [])).set (Reg.AUXP_TE_SEEN.at []) false
        d.onAuxp (fun a => { a with
          bands := changed
          pending := changed.foldl (fun t b => Tab.insert t b (d.bandCrc b)) a.pending
          periods := if full then 0 else a.periods + 1
          noTe := if a.waiting then a.noTe + 1 else 0
          waiting := a.waiting || !changed.isEmpty }))

/-- AUXP_TE (R270): the first TE after the read ends starts the push. -/
def execAuxpTe (s : State) : Host.Outcome State Fault Refusal :=
  s.act (fun d =>
    if !d.bit (Reg.AUXP_RUNNING.at []) || 2 ≤ d.ax (Reg.AUXP_TE_SRC.at []) then d
    else
      let d := d.set (Reg.AUXP_TE_SEEN.at []) true
      if d.auxp.waiting then d.auxpPush else d)

/-- AUXP_TE_TIMEOUT (R270): two periods have passed without TE. -/
def execAuxpTeTimeout (s : State) : Host.Outcome State Fault Refusal :=
  s.act (fun d =>
    if d.auxp.waiting && 2 ≤ d.auxp.noTe then (d.auxpPush.inc (Reg.AUXP_TE_TIMEOUT.at [])).raise 0x0350 1 2 else d)

end Sys2Proof.Machine
end

