-- ==== Sys2Proof/Machine/Sequencer.lean ====
section
/-! DEFINITION. The pipeline sequencer: source latch points, chain commands, launch words and launch queues (R16 to R20, R28 to R30, R198, R202 to R206, R229, R335, R355, R484). -/

namespace Sys2Proof.Machine

/-- Ends a job of a pipeline (R355): its model energy times k in 16.16 mJ, and the mean of the jobs that ended within the last window; the next
job's account starts at 0. -/
def Dev.endJob (d : Dev) (p : Nat) (abandoned : Bool) : Dev :=
  let mj := openDiv (Tab.get 0 d.power.jobFj p * d.rd (Reg.PWR_K.at []) * 16) (10 ^ 12)
  let win := 1000000 * d.rd (Reg.PWR_WINDOW_MS.at [])
  let jobs := (d.time, mj) :: (Tab.get [] d.power.jobs p).filter (fun e => d.time ≤ e.1 + win)
  let d := { d with power := { d.power with jobFj := Tab.put 0 d.power.jobFj p 0, jobs := Tab.put [] d.power.jobs p jobs } }
  let d := (d.wr (Reg.PWR_JOB_ENERGY.at [p]) mj).wr (Reg.PWR_JOB_AVG.at [p]) (openDiv (jobs.foldl (fun n e => n + e.2) 0) jobs.length)
  (d.inc (Reg.PWR_JOB_SEQ.at [p])).set (Reg.PWR_JOB_ABANDONED.at [p]) abandoned

/-- A job begins that follows no other: what was spent before is no part of it. -/
def Dev.newJob (d : Dev) (p : Nat) : Dev := { d with power := { d.power with jobFj := Tab.put 0 d.power.jobFj p 0 } }

/-- PHASE of R206. -/
def phaseOf (now cNew cOld : Nat) : Nat := if cNew ≤ cOld then 255 else min 255 (256 * (now - cNew) / (cNew - cOld))

/-- Records the latched frames of every stream for a pipeline (R171, R399): the bases, and for the streams it reads the buffers held and reported. -/
def Dev.recordStreams (d : Dev) (p : Nat) : Dev :=
  upTo 16 (fun s d =>
    match (d.stream s).done with
    | [] => d
    | f :: rest =>
      let old := rest.head?
      let ob := (old.map InFrame.buf).getD f.buf
      let d := { d with latched := Tab.put 0 (Tab.put 0 d.latched (2 * (16 * p + s)) (d.bufBase s f.buf)) (2 * (16 * p + s) + 1)
                          (d.bufBase s ob) }
      if d.pipeReads p s then
        let d := (d.wr (Reg.STR_NEWER.at [s]) f.buf).wr (Reg.STR_OLDER.at [s]) ob
        { d with streamLatch := Tab.modify [] d.streamLatch (p * 16 + s) (fun l => ((f.buf, old.map InFrame.buf) :: l).take 2) }
      else d) d

/-- What a latch point of a pipeline in state `q` fixes now for output frame `frame` (R28 to R30, R206, R484). -/
def Dev.latchOf (d : Dev) (r : PipeRec) (q : Pipe) (frame : Nat) : Latch :=
  match (d.stream r.stream).done with
  | [] => { frame := frame }
  | f :: rest =>
    let old := rest.head?.getD f
    let rep := q.lastCount = some f.count
    let phase := if !r.retime then 0 else if rest.isEmpty then 255 else phaseOf d.time f.time old.time
    { frame := frame, live := true, rep := rep, phase := phase, newer := d.bufBase r.stream f.buf, older := d.bufBase r.stream old.buf, src := f }

/-- The same for a pipeline of the plan in force. -/
def Dev.latchNow (d : Dev) (r : PipeRec) (frame : Nat) : Latch := d.latchOf r (d.pipe r.pipe) frame

/-- A latch joins those of a pipeline. -/
def Pipe.addLatch (q : Pipe) (l : Latch) : Pipe :=
  { q with latches := (l :: q.latches).take 4, todo := (q.todo ++ [l]).drop ((q.todo.length + 1) - 4),
           lastCount := if l.live then some l.src.count else q.lastCount }

/-- Adds a latch to a pipeline. -/
def Dev.addLatch (d : Dev) (p : Nat) (l : Latch) : Dev := d.onPipe p (fun q => q.addLatch l)

/-- The frame of a pipeline's next latch point, when its raster runs and that frame is at most one ahead of the one that follows the last boundary. -/
def Dev.nextLatch (d : Dev) (r : PipeRec) (q : Pipe) : Option Nat :=
  let o := d.pipeRaster r
  let next := d.outFrame o + 1
  let frame := match q.latches with
    | [] => next
    | l :: _ => if l.frame < next then next else l.frame + 1
  if r.analysis || r.output = 3 || !d.outRuns o || next + 1 < frame then none else some frame

/-- The latch points of the old plan's pipelines come also during a cut-over, for the guard paths that go on with them (R233). -/
def Dev.latchKept (d : Dev) (p : Nat) : Dev :=
  { d with guardKept := d.guardKept.map (fun k =>
      if k.1.pipe != p then k
      else match d.nextLatch k.1 k.2 with
        | none => k
        | some f => (k.1, k.2.addLatch (d.latchOf k.1 k.2 f))) }

/-- SOURCE_LATCH (R28): the next latch point of an enhancement pipeline whose raster runs, at most one frame ahead of the frame that follows the last boundary. -/
def execSourceLatch (p : Fin 64) (s : State) : Host.Outcome State Fault Refusal :=
  s.act (fun d =>
    let k := d.latchKept p
    match d.pipeRec p with
    | none => k
    | some r => match d.nextLatch r (d.pipe p) with
      | none => k
      | some frame => (k.recordStreams p).addLatch p (d.latchNow r frame))

/-! ### Chain commands -/

/-- Rows of a stage in stripe `s`: first row and the row after its last (R198). -/
def stripeRows (hi delta y s : Nat) : Nat × Nat :=
  if s = 0 then (0, min (hi + delta) y) else (min (s * hi + delta) y, min ((s + 1) * hi + delta) y)

/-- ROWS of a member in a stripe. -/
def memberRows (m : MemberRec) (s : Nat) : Nat := (stripeRows m.hi m.delta m.y s).2 - (stripeRows m.hi m.delta m.y s).1

/-- Launch word of a stripe member (R203); `seam` holds the EDGE bits of absent wall neighbours (R335). -/
def stripeWord (m : MemberRec) (s stripes q seam : Nat) : Word :=
  let hg := halfGen m.twoHalves q
  let left := m.edgeL || seam.testBit 2
  let right := m.edgeR || seam.testBit 3
  let edge := (if s = 0 && m.topPad then 1 else 0) + (if m.botFrom ≤ s then 2 else 0) + (if left then 4 else 0) + (if right then 8 else 0)
  BitVec.ofNat 32 (edge + hg.1 * 16 + memberRows m s % 128 * 32 + (if s + 1 = stripes then 4096 else 0) + hg.2 * 65536)

/-- Launch word of a frame member (R203). -/
def frameWord (l : Latch) : Word := BitVec.ofNat 32 (l.phase + (if l.rep then 256 else 0) + l.frame % 65536 * 65536)

/-- EDGE bits of absent neighbours for a pipeline (R335). -/
def Dev.seamEdges (d : Dev) (p : Nat) : Nat :=
  (if !d.bit (Reg.BCN_W_PRESENT.at []) && d.bit64 (Reg.BCN_SEAM_PIPES_W_LO.at []) (Reg.BCN_SEAM_PIPES_W_HI.at []) p then 4 else 0) +
  (if !d.bit (Reg.BCN_E_PRESENT.at []) && d.bit64 (Reg.BCN_SEAM_PIPES_E_LO.at []) (Reg.BCN_SEAM_PIPES_E_HI.at []) p then 8 else 0)

/-- Key of a member's launch queue. -/
def queueKey (master task : Nat) : Nat := if master < 72 then master * 8 + task else 0x1000 + master

def memberKey (m : MemberRec) : Nat := queueKey m.master m.task

/-- Line deadline of a stripe's first row; on both outputs, the earlier of the two (R18). Of the other raster it takes the frame that stands as far ahead of its last boundary as
`frame` does of its own (log 141). -/
def Dev.stripeDeadline (d : Dev) (r : PipeRec) (frame stripe : Nat) : Int :=
  let o := d.pipeRaster r
  let y := (if r.layer < 16 then d.rd (Reg.LAY_Y.at [r.layer]) else 0) + stripe * r.h
  let a := d.lineDeadlineAt o frame y
  if r.output = 2 && !d.split && d.outRuns (1 - o) then min a (d.lineDeadlineAt (1 - o) (d.outFrame (1 - o) + frame - d.outFrame o) y) else a

/-- The layer record of the `k`-th boundary engine member of a plan's pipeline: its first layer comes before its last (R229). -/
def beLayerIn (p : Plan) (r : PipeRec) (k : Nat) : Option BeLayer :=
  let ls := p.beLayers.filter (fun l => l.pipe = r.pipe)
  (ls.filter (fun l => !l.last) ++ ls.filter BeLayer.last)[k]?

def Dev.beLayerOf (d : Dev) (r : PipeRec) (k : Nat) : Option BeLayer := beLayerIn d.plan r k

/-- The engine a job of a set runs on: the named one, else the lowest of the set that serves; up to the frame boundary after a stop the stopped engine keeps its jobs, its own and those
it had from another, and none of them is done (R130, R131). -/
def Dev.engineFor (d : Dev) (e : Nat) (set : BitVec 4) : Option Nat :=
  let had (i : Nat) : Bool := set.getLsbD i && !(d.be i).resting && (d.lostBes.contains i || (!(d.be i).stopped && !(d.be i).retired))
  match (if had e then some e else (List.range 4).find? had) with
  | some i => if d.lostBes.contains i then none else some i
  | none => none

/-- The layer record of the member at position `i` of a pipeline, a boundary engine, and the engine its jobs run on. -/
def Dev.beMember (d : Dev) (r : PipeRec) (i : Nat) (m : MemberRec) : Option (BeLayer × Nat) :=
  match d.beLayerOf r ((r.members.take i).filter (fun x => decide (0x180 ≤ x.master))).length with
  | none => none
  | some b => (d.engineFor (m.master - 0x180) b.engines).map (fun e => (b, e))

/-- A launch for one member. -/
def Dev.launchMember (d : Dev) (r : PipeRec) (l : Latch) (stripe q : Nat) (dl : Int) (i : Nat) (m : MemberRec) : Dev :=
  let word := if m.frameMember then frameWord l else stripeWord m stripe r.stripes q (d.seamEdges r.pipe)
  let deadline := ofSigned 32 (if r.analysis then dl else dl - (m.downNs : Int))
  if 0x180 ≤ m.master then
    match d.beMember r i m with
    | none => d
    | some (b, e) =>
      let rows := stripeRows m.hi m.delta m.y stripe
      d.onBe e (fun q => { q with queue := q.queue ++
        [⟨r.pipe, b.last, stripe, l.frame, l.newer, deadline, word, rows.1, rows.1, rows.2, []⟩] })
  else { d with launchQ := Tab.modify [] d.launchQ (memberKey m) (fun q => q ++ [⟨word, deadline⟩]) }

/-- A member's launch queue, or the job queue of the engine its jobs run on, is full (R202, R205). -/
def Dev.queueFull (d : Dev) (r : PipeRec) (i : Nat) (m : MemberRec) : Bool :=
  if 0x180 ≤ m.master then
    match d.beMember r i m with
    | none => false
    | some (_, e) => 16 ≤ (d.be e).queue.length
  else 16 ≤ (Tab.get [] d.launchQ (memberKey m)).length

/-- Marks a pipeline for re-initialisation at the next PIPE boundary (R181). -/
def Dev.markReinit (d : Dev) (p : Nat) : Dev :=
  if d.reinitMarked.contains p then d else { d with reinitMarked := d.reinitMarked ++ [p] }

/-- Issues the chain command of a stripe: delivered to every member, or to none; Q counts it either way (R202, R204, R205). After an overrun the pipeline's lines come from the
guard path until it is re-initialised, and then until its next chain command (R181). -/
def Dev.issueChain (d : Dev) (r : PipeRec) (l : Latch) (stripe : Nat) : Dev :=
  let ms := (List.zip (List.range r.members.length) r.members).filter (fun m => !m.2.frameMember || stripe = 0)
  let arms := ms.filter (fun m => m.2.armsWc)
  let busy := arms.any (fun m => (Tab.get {} d.wcs (m.2.wcCluster * 32 + m.2.wc)).queuedArm.isSome)
  let q := (d.pipe r.pipe).q
  if ms.any (fun m => d.queueFull r m.1 m.2) || busy then
    ((d.raise 0x0152 5 r.pipe).markReinit r.pipe).onPipe r.pipe (fun s => { s with q := q + 1, guarded := 1 })
  else
    let dl : Int := if r.analysis then (l.deadline : Int) else d.stripeDeadline r l.frame stripe
    let d := ms.foldl (fun d m => d.launchMember r l stripe q dl m.1 m.2) d
    let wcs := arms.foldl (fun acc m =>
      let k := m.2.wcCluster * 32 + m.2.wc
      if acc.any (fun e => e.1 = k) then acc else acc ++ [(k, memberRows m.2 stripe)]) ([] : List (Nat × Nat))
    let d := wcs.foldl (fun d e => d.send .seq (.wc (e.1 / 32) (e.1 % 32)) (.arm e.2)) d
    let d := d.onPipe r.pipe (fun s => { s with q := q + 1, guarded := if s.guarded = 2 then 0 else s.guarded })
    if stripe = 0 then
      let d := if r.analysis then d else if (d.pipe r.pipe).job then d.endJob r.pipe false else d.newJob r.pipe
      d.onPipe r.pipe (fun s => { s with job := true, fresh := if l.rep then s.fresh else (l.frame :: s.fresh).take 4 })
    else d

/-- CHAIN_COMMAND (R202, R484): the next stripe of the pipeline's frame in progress, or stripe 0 of its next latched frame. A stopped pipeline's stripes
pass without a command, and it resumes at a stripe 0 (R372); a parked one issues none (R375). -/
def execChainCommand (p : Fin 64) (s : State) : Host.Outcome State Fault Refusal :=
  s.act (fun d =>
    match d.pipeRec p with
    | none => d
    | some r =>
      let k := d.pipe p
      if !d.seqRun then d
      else
        let silent := d.parked p || d.stopped.contains p.val || d.reinitRunning.contains p.val
        match (match k.cur with
          | some l => if k.stripe < r.stripes then some (l, k.stripe) else none
          | none => none) with
        | some (l, i) =>
          let d := d.onPipe p (fun q => { q with stripe := i + 1 })
          if silent || k.wait0 then d else d.issueChain r l i
        | none =>
          match k.todo with
          | [] => d
          | l :: rest =>
            if !l.live then d.onPipe p (fun q => { q with todo := rest, cur := none })
            else
              let d := d.onPipe p (fun q => { q with todo := rest, cur := some l, stripe := 1, wait0 := q.wait0 && silent })
              if silent then d.onPipe p (fun q => { q with wait0 := true }) else d.issueChain r l 0)

/-- LAUNCH_DEQUEUE (R202): a launch leaves its queue for a member that holds no pending launch, and none is on its way. -/
def execLaunchDequeue (q : QueueId) (s : State) : Host.Outcome State Fault Refusal :=
  s.act (fun d =>
    let key := match q with
      | .core c t => queueKey c t
      | .su k => queueKey (0x100 + k) 0
    let dst : Node := match q with
      | .core c _ => .core c
      | .su k => .su k
    let task := match q with
      | .core _ t => t.val
      | .su _ => 0
    let held := match q with
      | .core c t => (d.task c t).pending.isSome
      | .su k => (d.su k).shadow.isSome
    let flying := d.fabric.any (fun m => decide (m.dst = dst) && (match m.body with
      | .launch t _ => t = task
      | _ => false))
    match Tab.get [] d.launchQ key with
    | [] => d
    | l :: rest =>
      if held || flying then d
      else { d with launchQ := Tab.put [] d.launchQ key rest }.send .seq dst (.launch task l))

end Sys2Proof.Machine
end

