-- ==== Sys2Proof/Machine/BoundaryEngine.lean ====
section
/-! DEFINITION. Boundary engines: their jobs, output rows of first and last layers, and the enhanced line buffers they write (R123 to R131, R282). -/

namespace Sys2Proof.Machine

/-- The layer record of a job. -/
def Dev.jobLayer (d : Dev) (b : BeJob) : Option BeLayer := d.plan.beLayers.find? (fun l => l.pipe = b.pipe && l.last = b.last)

/-! ### Enhanced line buffers (R282) -/

def linePitch (w : Nat) : Nat := (w * 4 + 255) / 256 * 256
def lineSlots (w : Nat) : Nat := 1048576 / max (linePitch w) 1

/-- The slot of line `y` of layer `j`, counted from the layer's top row. -/
def Dev.lineSlot (d : Dev) (j y : Nat) : Nat := y % max (lineSlots (d.rd (Reg.LAY_W.at [j]))) 1

/-- Completion tag of a line: frame bits [7:0] and line number. -/
def slotTag (frame y : Nat) : Nat := 1 + frame % 256 + 256 * y

/-- Line `y` of layer `j` is complete for output frame `frame` (R282). -/
def Dev.neuralDone (d : Dev) (j frame y : Nat) : Bool := Tab.get 0 (d.layer j).slots (d.lineSlot j y) = slotTag frame y

/-- Device address of the line's slot. -/
def Dev.slotAddr (d : Dev) (j y : Nat) : Nat := lineBufBase j + d.lineSlot j y * linePitch (d.rd (Reg.LAY_W.at [j]))

/-- The deadline of raster line `Y + y` of layer `j` has passed for `frame` (R14). -/
def Dev.lineDecided (d : Dev) (j frame y : Nat) : Bool :=
  let q := d.out (d.rasterOf j)
  frame < q.decFrame || (frame = q.decFrame && d.rd (Reg.LAY_Y.at [j]) + y < q.decided)

/-- Line `y` of layer `j` lies below the active area, which never shows it. -/
def Dev.lineBelow (d : Dev) (j y : Nat) : Bool := d.vactive (d.rasterOf j) ≤ d.rd (Reg.LAY_Y.at [j]) + y

/-- The deadline of line `y` of layer `j` has passed, one below the active area included: D(y) goes on there by the line time (R282, log 180). -/
def Dev.lineOver (d : Dev) (j frame y : Nat) : Bool :=
  let o := d.rasterOf j
  d.lineDecided j frame y ||
  (d.lineBelow j y && (frame ≤ d.outFrame o || decide (d.lineDeadlineAt o frame (d.rd (Reg.LAY_Y.at [j]) + y) ≤ d.time)))

/-- The slot of line `y` of layer `j` is still occupied (R282): what it holds may yet be shown, or lies below the active area with its deadline to come. -/
def Dev.slotTaken (d : Dev) (j y : Nat) : Bool :=
  match Tab.get 0 (d.layer j).slots (d.lineSlot j y) with
  | 0 => false
  | v =>
    let next := d.outFrame (d.rasterOf j) + 1
    let frame := if (v - 1) % 256 = next % 256 then next else next + 1
    !(d.lineBelow j ((v - 1) / 256) && d.lineOver j frame ((v - 1) / 256))

/-! ### Arithmetic of an engine (R126) -/

/-- One output element: groups of 16 products in tap-major, channel-minor order, then bias, scale and activation. -/
def beElement (l : BeLayer) (prods : List Num) (bias scale : Option Word) : Word × Flags :=
  if l.fmt = 0 then
    let r := satInt 32 (prods.foldl (fun acc p => acc + p.floor) 0)
    scaleElem false (BitVec.ofInt 32 r.1) bias scale
  else
    let gs := (List.range ((prods.length + 15) / 16)).map (fun i => (prods.drop (16 * i)).take 16)
    scaleElem true (gs.foldl (fun acc g => add32 acc (round32 (groupSum g))) 0) bias scale

/-- A per-channel or per-tensor parameter: none when the list is empty. -/
def perChannel (l : List Word) (co : Nat) : Option Word :=
  match l with
  | [] => none
  | [v] => some v
  | _ => l[co]?

/-- Curve table `t` of engine `e` at a value (R56, R126). -/
def Dev.beCurve (d : Dev) (e t : Nat) (v : Word) : Word :=
  evalCurve (Tab.get ⟨0, 0, 0, 0⟩ (d.be e).curves t) (fun i => Tab.get 0 (d.be e).curve (t * 256 + i)) v

/-- Activation of an element. -/
def Dev.beAct (d : Dev) (e : Nat) (l : BeLayer) (v : Word) : Word :=
  if l.act = 3 then d.beCurve e l.actCurve v
  else applyAct l.act l.actLo l.actHi v

/-- Input rows that output row `y` reads. -/
def beInputRows (l : BeLayer) (y : Nat) : List Nat :=
  (List.range l.fh).filterMap (fun (ty : Nat) =>
    let p : Int := (y * l.sv + ty : Nat) - (l.padT : Int)
    let p := if 0 ≤ p ∧ p < l.inH then some p else padSource l.padMode l.inH p
    p.map Int.toNat)

/-! ### Where a job stands -/

def jobHalf (b : BeJob) : Nat := bits b.word.toNat 4 1
def jobGen (b : BeJob) : Nat := bits b.word.toNat 16 16
def jobLast (b : BeJob) : Bool := b.word.toNat.testBit 12
def jobTop (b : BeJob) : Bool := b.word.toNat.testBit 0

/-- EDGE bit `i` of a job: 1 marks a true image edge (R114, R203). -/
def jobEdge (b : BeJob) (i : Nat) : Bool := b.word.toNat.testBit i

/-- Columns of an input row that a job reads, first and after the last: those of the image, and beyond a seam whose neighbour is present its halo columns (R112, R335). -/
def beCols (l : BeLayer) (b : BeJob) : Int × Int :=
  (if jobEdge b 2 then 0 else min 0 (-(l.padL : Int)),
   if jobEdge b 3 then (l.inW : Int) else max (l.inW : Int) (((l.w - 1) * l.sh + l.fw : Nat) - (l.padL : Int)))

/-- Element `ci` of column `x` of input row `y`, of the rows a job holds (R125). -/
def beHeld (l : BeLayer) (b : BeJob) (y : Nat) (x : Int) (ci : Nat) : Num :=
  match b.window.find? (fun r => r.1 = y) with
  | some r => elemNum l.fmt (r.2.getD ((x - (beCols l b).1).toNat * l.ci + ci) 0)
  | none => .fin false 0 0

/-- The activated elements of output row `y`, pixel by pixel, from the input rows the job holds: a position outside the image is a padding position above row 0, below the
last row and at a true edge to the left or right, and a column of the neighbour elsewhere (R111, R112, R129). -/
def Dev.beRow (d : Dev) (e : Nat) (l : BeLayer) (b : BeJob) (y : Nat) : List (List Word) :=
  let taps := (List.range l.fh).flatMap (fun ty => (List.range l.fw).map (fun tx => (ty, tx)))
  (List.range l.w).map (fun x => (List.range l.co).map (fun co =>
    let prods := taps.flatMap (fun t => (List.range l.ci).map (fun ci =>
      let w := elemNum l.fmt ((l.weights.getD (((co * l.fh + t.1) * l.fw + t.2) * l.ci + ci) 0).toNat)
      let py : Int := (y * l.sv + t.1 : Nat) - (l.padT : Int)
      let px : Int := (x * l.sh + t.2 : Nat) - (l.padL : Int)
      let sy := if 0 ≤ py ∧ py < l.inH then some py else padSource l.padMode l.inH py
      let sx := if (beCols l b).1 ≤ px ∧ px < (beCols l b).2 then some px else padSource l.padMode l.inW px
      match sy, sx with
      | some sy, some sx => (beHeld l b sy.toNat sx ci).mul w
      | _, _ => (Num.fin false 0 0).mul w))
    d.beAct e l (beElement l prods (perChannel l.bias co) (perChannel l.scale co)).1))

/-- Byte runs of a write of `data` at `off`, ended at 512-byte rows (R148). -/
def rowRuns (off : Nat) (data : Bytes) : List (Nat × Bytes) :=
  (List.range ((off + data.length + 511) / 512 - off / 512)).map (fun i =>
    let lo := max off ((off / 512 + i) * 512)
    let hi := min (off + data.length) ((off / 512 + i + 1) * 512)
    (lo, (data.drop (lo - off)).take (hi - lo)))

/-- Bytes of an output row of a first layer. -/
def beRowBytes (l : BeLayer) : Nat := l.w * l.co * fmtBytes l.outFmt 1

/-- Offset of output row `y` in the consumer's half: halo rows come before the stripe's rows (R200). -/
def beMainOff (l : BeLayer) (b : BeJob) (y : Nat) : Nat := l.outBase + (l.eta + (y - b.first)) * l.outPitch

/-- Row of the halo handle that output row `y` also goes to, when it is one of the last η of its stripe and another stripe follows (R200, R201). -/
def beHaloRow (l : BeLayer) (b : BeJob) (y : Nat) : Option Nat :=
  if !jobLast b && b.stop ≤ y + l.eta then some (l.eta + y - b.stop) else none

/-- A run of an output row: the route, core or group, handle, half and offset it is written to, and its data. -/
structure BeRun where
  route : Nat
  tcore : Nat
  handle : Nat
  half : Nat
  off : Nat
  data : Bytes
  deriving DecidableEq, Repr

/-- The runs of output row `y` of a first layer, through the main route and, for the last η rows of a stripe, through the halo route. -/
def beOutRuns (l : BeLayer) (b : BeJob) (y : Nat) (data : Bytes) : List BeRun :=
  (rowRuns (beMainOff l b y) data).map (fun r => ⟨l.route, l.tcore, l.thandle, jobHalf b, r.1, r.2⟩) ++
  match beHaloRow l b y with
  | none => []
  | some h => (rowRuns (l.outBase + h * l.outPitch) data).map (fun r =>
      ⟨l.haloRoute, l.haloCore, l.haloHandle, (if l.halves then 1 - jobHalf b else 0), r.1, r.2⟩)

def Dev.beCredit (d : Dev) (e r : Nat) : Nat := Tab.get 0 d.beCredits (e * 16 + r)

/-- First row of the producer's stripe that a last layer's half holds after its halo rows (R199). -/
def beInFirst (l : BeLayer) (b : BeJob) (h : Nat) : Nat := if b.stripe = 0 then 0 else b.stripe * h + l.inEta - l.padT

/-- Byte offset in the input half of channel 0 of column `x` of input row `y` of a last layer; a column of the left neighbour lies before the row's first (R335). -/
def beInOff (l : BeLayer) (b : BeJob) (h y : Nat) (x : Int) : Int :=
  ((l.inBase + (l.inEta + y - beInFirst l b h) * l.inPitch : Nat) : Int) + x * (l.ci * fmtBytes l.fmt 1 : Nat)

/-- A half of a core's handle is FULL with a generation (R129, R201). -/
def Dev.halfReady (d : Dev) (c h half gen : Nat) : Bool :=
  d.bit (Reg.SLOT_FULL.at (cix c [2 * h + half])) && d.rd (Reg.SLOT_GEN.at (cix c [2 * h + half])) = gen

/-- The handles a last layer's job waits on and releases beside its main handle: halo and seam handles whose edge is no true image edge (R201, R335). -/
def beSideHandles (l : BeLayer) (b : BeJob) : List Nat :=
  (if jobTop b || l.inEta = 0 then [] else [l.inHalo]) ++ (if jobEdge b 2 then [] else l.seamL.toList) ++ (if jobEdge b 3 then [] else l.seamR.toList)

/-- Whether a job can start its next output row on engine `e` (R129, R130, R157, R282). A job without a row left only has its releases to make. -/
def Dev.canStart (d : Dev) (e : Nat) (b : BeJob) : Bool :=
  match d.jobLayer b with
  | none => true
  | some l =>
    if b.last then
      let ready := (l.inHandle :: beSideHandles l b).all (fun h => d.halfReady l.inCore h (jobHalf b) (jobGen b))
      let span := d.halfBytes l.inCore l.inHandle (jobHalf b)
      ready && (b.stop ≤ b.next ||
        (!d.slotTaken l.layer b.next && !d.anyWaking l.inCore span.1 span.2))
    else
      let runs := if b.stop ≤ b.next then [] else beOutRuns l b b.next (List.replicate (beRowBytes l) 0)
      [l.route, l.haloRoute].all (fun r => (runs.filter (fun q => q.route = r)).length ≤ d.beCredit e r)

/-- A job comes before another (R130). -/
def BeJob.before (now : Nat) (a b : BeJob) : Bool :=
  let x := toSigned 32 (a.deadline + 2 ^ 32 - now % 2 ^ 32)
  let y := toSigned 32 (b.deadline + 2 ^ 32 - now % 2 ^ 32)
  decide (x < y) || (decide (x = y) && decide (a.pipe < b.pipe))

def firstJob (now : Nat) : List BeJob → Option BeJob
  | [] => none
  | b :: l => some (l.foldl (fun m q => if q.before now m then q else m) b)

/-! ### Rows -/

/-- What reading for a row found: the engine stopped in `d`, or a reader of input elements. -/
structure BeInput where
  d : Dev
  ok : Bool

/-- Checks the LPDDR6 words of the source rows of a first layer: a row or column outside its input frame, or an uncorrectable word, stops the engine (R131, R190). -/
def Dev.beSource (d : Dev) (e : Nat) (l : BeLayer) (b : BeJob) (rows : List Nat) : BeInput :=
  let c := beCols l b
  if c.1 < 0 || (d.rd (Reg.STR_W.at [l.stream]) : Int) < c.2 || rows.any (fun y => d.rd (Reg.STR_H.at [l.stream]) ≤ y) then ⟨d.stopBe e, false⟩
  else
    (rows.flatMap (d.srcRuns l.stream b.src)).foldl (fun (acc : BeInput) r =>
      if !acc.ok then acc
      else
        let q := (acc.d.askReads (0x180 + e) b.deadline false r.1 r.2).ddrCheck r.1 r.2 0 (0x180 + e)
        if q.1.isEmpty then ⟨q.2, true⟩ else ⟨q.2.stopBe e, false⟩) ⟨d, true⟩

/-- Checks the scratchpad words of the input rows of a last layer (R131, R156, R160). Beside 0x0160 a double-bit error raises 0x0720, which the table of R367 lists for it and R160 does
not name (log 175). -/
def Dev.bePad (d : Dev) (e : Nat) (l : BeLayer) (b : BeJob) (h : Nat) (rows : List Nat) : BeInput :=
  let span := d.halfBytes l.inCore l.inHandle (jobHalf b)
  let c := beCols l b
  let n := (c.2 - c.1).toNat * l.ci * fmtBytes l.fmt 1
  rows.foldl (fun (acc : BeInput) y =>
    if !acc.ok then acc
    else
      let at_ := beInOff l b h y c.1
      let off := at_.toNat
      if at_ < 0 || span.2 < off + n then ⟨acc.d.stopBe e, false⟩
      else if acc.d.anyGated l.inCore (span.1 + off) n then
        ⟨(acc.d.raise 0x0711 0 (0x180 + e) (addrArgs (spAddr l.inCore (span.1 + off)))).stopBe e, false⟩
      else
        let q := acc.d.spCheck l.inCore (span.1 + off) n
        match q.1 with
        | none => ⟨q.2, true⟩
        | some _ => ⟨(q.2.raise 0x0720 0 (0x180 + e)).stopBe e, false⟩) ⟨d, true⟩

/-- The codes of input row `y` of a first layer: colour conversion in of the source row, in the layer's format (R127), the columns beyond a seam with a neighbour among them (R112). -/
def Dev.firstInput (d : Dev) (e : Nat) (l : BeLayer) (b : BeJob) (y : Nat) : List Nat :=
  let ce := d.colourEntry 2 l.colour (srcDepth (d.rd (Reg.STR_FMT.at [l.stream])))
  let c := beCols l b
  (List.range (c.2 - c.1).toNat).flatMap (fun i =>
    let px := colourIn ce (d.srcCodes l.stream b.src ce.linear (c.1.toNat + i) y)
    (List.range l.ci).map (fun ci =>
      let v := px.getD ci 0
      let t := l.chanCurve.getD ci 255
      (outConv l.fmt (if t < 4 then d.beCurve e t v else v)).1))

/-- The codes of input row `y` of a last layer, from the producer's scratchpad. -/
def Dev.lastInput (d : Dev) (l : BeLayer) (b : BeJob) (h y : Nat) : List Nat :=
  let base := spAddr l.inCore (d.halfBytes l.inCore l.inHandle (jobHalf b)).1
  let n := fmtBytes l.fmt 1
  let c := beCols l b
  (List.range ((c.2 - c.1).toNat * l.ci)).map (fun i => d.readLe (base + (beInOff l b h y c.1).toNat + i * n) n)

/-- The bytes of a first layer's output row: the layer and its output conversion (R126). -/
def Dev.firstRow (d : Dev) (e : Nat) (l : BeLayer) (b : BeJob) (y : Nat) : Bytes :=
  (d.beRow e l b y).flatMap (fun px => px.flatMap (fun v => leBytes (fmtBytes l.outFmt 1) (outConv l.outFmt v).1))

/-- Clamping to [0, 1] (R128 step 2); NaN stays. -/
def clampUnit (v : Word) : Word :=
  let n := num32 v
  if n.isNan then v else if n.lt (.fin false 0 0) then 0 else if (num32 0x3F800000).lt n then 0x3F800000 else v

/-- The bytes of a last layer's output line: the layer, colour conversion out, 10-bit codes (R126, R128, R282). The matrix takes three channels: a channel the layer does
not have is 0, and a fourth is not used (log 138). -/
def Dev.lastRow (d : Dev) (e : Nat) (l : BeLayer) (b : BeJob) (y : Nat) : Bytes :=
  (d.beRow e l b y).flatMap (fun px =>
    let m := matrix3 l.matrix l.offset (px.map clampUnit)
    let c := (List.range 3).map (fun k =>
      let v := m.getD k 0
      let t := l.chanCurve.getD k 255
      code10 (if t < 4 then d.beCurve e t v else v))
    leBytes 4 (Px.word ⟨c.getD 0 0, c.getD 1 0, c.getD 2 0, 1023⟩).toNat)

/-- BE_ROW (R125 to R130): the engine takes the first of its jobs that can start a row, in the order of R130, reads the input rows it does not hold, and computes its next row. -/
def execBeRow (e : Fin 4) (s : State) : Host.Outcome State Fault Refusal :=
  s.act (fun d =>
    let k := d.be e
    if k.stopped || k.retired || k.row.isSome then d
    else
      let all := k.job.toList ++ k.queue
      match firstJob d.time (all.filter (d.canStart e)) with
      | none => d
      | some b =>
        let rest := all.erase b
        match d.jobLayer b with
        | none => d.onBe e (fun q => { q with job := none, queue := rest })
        | some l =>
          let d := d.onBe e (fun q => { q with job := some b, queue := rest })
          let h := match d.pipeRec b.pipe with
            | some r => r.h
            | none => 0
          if b.stop ≤ b.next then d.onBe e (fun q => { q with row := some [] })
          else if k.ded then
            let r := ((d.set (Reg.TOP_MEM_UE.at []) true).stopBe e).secondDed (0x180 + e)
            if r.1 then r.2.retireBe e else r.2
          else
            let rows := (beInputRows l b.next).eraseDups
            let new := rows.filter (fun y => !(b.window.any (fun r => r.1 = y)))
            let q := if b.last then d.bePad e l b h new else d.beSource e l b new
            if !q.ok then q.d
            else
              let read (y : Nat) : List Nat := if b.last then q.d.lastInput l b h y else q.d.firstInput e l b y
              let b := { b with window := b.window.filter (fun r => rows.contains r.1) ++ new.map (fun y => (y, read y)) }
              let data := if b.last then q.d.lastRow e l b b.next else q.d.firstRow e l b b.next
              (q.d.spendBe e (l.w * l.co * (l.fh * l.fw * l.ci))).onBe e (fun k => { k with row := some data, job := some b }))

/-- The releases at the end of a first layer's stripe (R201): the main half, and the halo of the next stripe's half unless LAST. -/
def Dev.releaseFirst (d : Dev) (e : Nat) (l : BeLayer) (b : BeJob) : Dev :=
  let upd (route tcore handle half gen : Nat) : TagUpd :=
    { writer := 0x180 + e, route := some route, tcore := tcore, handle := handle, half := half, full := true, gmode := 2, gen := gen, task := 0, pc := 0 }
  let d := d.sendTag (.be e) (upd l.route l.tcore l.thandle (jobHalf b) (jobGen b))
  if jobLast b || l.eta = 0 then d
  else
    let half := if l.halves then 1 - jobHalf b else 0
    let gen := if l.halves then (jobGen b + jobHalf b) % 65536 else (jobGen b + 1) % 65536
    d.sendTag (.be e) (upd l.haloRoute l.haloCore l.haloHandle half gen)

/-- The releases after the last read of a last layer's stripe (R129, R201): each half it waited on becomes EMPTY. -/
def Dev.releaseLast (d : Dev) (e : Nat) (l : BeLayer) (b : BeJob) : Dev :=
  let upd (handle : Nat) : Body :=
    .tag { writer := 0x180 + e, route := none, tcore := l.inCore, handle := handle, half := jobHalf b, full := false, gmode := 0, gen := 0, task := 0, pc := 0 }
  (l.inHandle :: beSideHandles l b).foldl (fun d h => d.send (.be e) (.core l.inCore) (upd h)) d

/-- Writes a finished line into the layer's line buffer and sets its completion tag; a line whose deadline has passed is discarded and counted (R14, R128, R282). A line that
does not fit its slot would be written outside it, which stops the engine (R131). -/
def Dev.finishLine (d : Dev) (e : Nat) (l : BeLayer) (b : BeJob) (y : Nat) (data : Bytes) : Dev :=
  let j := l.layer
  if linePitch (d.rd (Reg.LAY_W.at [j])) < data.length then d.stopBe e
  else if d.lineOver j b.frame y then d.inc (Reg.GP_LATE_CNT.at [j])
  else if d.rd (Reg.LAY_KIND.at [j]) != 2 || !d.outRuns (d.rasterOf j) then d
  else (d.setBytes (d.slotAddr j y) data).onLayer j (fun q => { q with slots := Tab.put 0 q.slots (d.lineSlot j y) (slotTag b.frame y) })

/-- The first output line of a stripe is complete: the least slack of its enhancement pipeline since the last measurement (R338). -/
def Dev.noteSlack (d : Dev) (b : BeJob) : Dev :=
  match d.pipeRec b.pipe with
  | none => d
  | some r =>
    if r.analysis || b.next != b.first then d
    else
      let x := d.stripeDeadline r b.frame b.stripe - (d.time : Int)
      let least := match Tab.get none d.slackNow b.pipe with
        | some m => if x < m then x else m
        | none => x
      { d with slackNow := Tab.insert d.slackNow b.pipe (some least) }

/-- BE_ROW_DONE (R14, R128 to R130): the row in progress is written with its credits, or becomes a line of the layer; after the last row the releases are made. -/
def execBeRowDone (e : Fin 4) (s : State) : Host.Outcome State Fault Refusal :=
  s.act (fun d =>
    match (d.be e).row, (d.be e).job with
    | some data, some b =>
      match d.jobLayer b with
      | none => d.onBe e (fun q => { q with row := none, job := none })
      | some l =>
        let ran := b.next < b.stop
        let d := if !ran then d
          else if b.last then (d.finishLine e l b b.next data).noteSlack b
          else (beOutRuns l b b.next data).foldl (fun d r =>
            ({ d with beCredits := Tab.modify 0 d.beCredits (e * 16 + r.route) (· - 1) }).sendTxn (.be e)
              ⟨0x180 + e, 0, some r.route, r.tcore, r.handle, r.half, r.off, r.data, 0, 0, []⟩) d
        if (d.be e).stopped then d
        else
        let b' := { b with next := b.next + (if ran then 1 else 0) }
        if b'.next < b.stop then d.onBe e (fun q => { q with row := none, job := some b' })
        else
          let d := d.onBe e (fun q => { q with row := none, job := none })
          if b.last then d.releaseLast e l b else d.releaseFirst e l b
    | _, _ => d)

end Sys2Proof.Machine
end

