-- ==== Sys2Proof/Machine/Seam.lean ====
section
/-! DEFINITION. Seam slots of the Beacon ports (R313, R332 to R334, R336): TX queues, staging, and writing out through the proxy route. -/

namespace Sys2Proof.Machine

/-- A port sends a message (R313); a device that has lost its health sends nothing (R316). -/
def Dev.bcnSend (d : Dev) (m : BcnMsg) : Dev := if d.beacon.sick then d else { d with bcnSent := d.bcnSent ++ [m] }

/-- A port is in use: T always, E and W under WALL_EN (R340). -/
def Dev.portUsed (d : Dev) (p : Nat) : Bool := p = 0 || d.bit (Reg.BCN_WALL_EN.at [])

/-- A frame arrives on a port: how many frames FEC corrected on the way, and how often the link layer sent one again, are free values (R311, R340). -/
def Dev.linkFrame (d : Dev) (p : Nat) : Dev :=
  ((d.inc (Reg.BCNP_FEC_CORR.at [p]) (Config.freeBits d.free)).inc (Reg.BCNP_RETRIES.at [p]) (Config.freeBits (d.free + 1))).useFree 2

/-- What a message does that arrives on a port; a port not in use takes none. -/
def Dev.onPort (d : Dev) (p : Nat) (f : Dev → Dev) : Dev := if d.portUsed p then f (d.linkFrame p) else d

/-! ### TX queues (R332, R333) -/

def Dev.tx (d : Dev) (p q : Nat) : SeamTx := Tab.get {} d.seamTx (p * 16 + q)
def Dev.onTx (d : Dev) (p q : Nat) (f : SeamTx → SeamTx) : Dev := { d with seamTx := Tab.modify {} d.seamTx (p * 16 + q) f }

/-- Transactions of a slot. -/
def Dev.slotSize (d : Dev) (p q : Nat) : Nat := max (d.rd (Reg.BCNQ_TX_SLOT_TXN.at [p, q])) 1

/-- Slots that opening `n` more transactions opens. -/
def Dev.slotsOpened (d : Dev) (p q n : Nat) : Nat :=
  let m := d.slotSize p q
  let o := (d.tx p q).opened
  (o + n + m - 1) / m - (o + m - 1) / m

/-- The queue is enabled and holds the credits to open `n` more transactions (R333, R340; log 157). -/
def Dev.canOpen (d : Dev) (p q n : Nat) : Bool :=
  d.portUsed p && d.bit (Reg.BCNQ_TX_EN.at [p, q]) && d.slotsOpened p q n ≤ d.rd (Reg.BCNQ_TX_CRED.at [p, q])

/-- A request with deadline `dl` opens `n` transactions (R333). -/
def Dev.openTx (d : Dev) (p q n dl : Nat) : Dev :=
  let k := d.slotsOpened p q n
  let m := d.slotSize p q
  let d := (d.wr (Reg.BCNQ_TX_CRED.at [p, q]) (d.rd (Reg.BCNQ_TX_CRED.at [p, q]) - k)).set (Reg.BCNQ_TX_WAITING.at [p, q]) false
  d.onTx p q (fun t => { t with opened := (t.opened + n) % m, deadlines := t.deadlines ++ List.replicate k dl, counted := false })

/-- A transaction is formed with its data; the last of a slot sends the slot (R332). Its acknowledgement is back after the way there and back (R317, log 39). -/
def Dev.formTx (d : Dev) (p q off : Nat) (data : Bytes) (bad : List Nat) : Dev :=
  let t := d.tx p q
  let l := t.txns ++ [(off, data, bad)]
  if l.length < d.slotSize p q then d.onTx p q (fun t => { t with txns := l })
  else
    let s : SeamSlot := ⟨t.k, d.rd (Reg.BCN_EPOCH.at []), t.deadlines.headD 0, l⟩
    (d.onTx p q (fun t => { t with
      txns := [], deadlines := t.deadlines.drop 1, k := t.k + 1,
      ackAt := d.time + (2 * d.rd (Reg.BCNP_HOP_DELAY_PS.at [p]) + 999) / 1000 })).bcnSend (.slot p q s)

/-- Slots that a relay forwards on port T queue `q` go while the queue is enabled and holds slot credits (R333, R336). -/
def Dev.pumpRelays (d : Dev) (q : Nat) : List SeamSlot → Dev
  | [] => d.onTx 0 q (fun t => { t with relays := [] })
  | x :: rest =>
    let c := d.rd (Reg.BCNQ_TX_CRED.at [0, q])
    if d.bit (Reg.BCNQ_TX_EN.at [0, q]) && c != 0 then ((d.wr (Reg.BCNQ_TX_CRED.at [0, q]) (c - 1)).bcnSend (.slot 0 q x)).pumpRelays q rest
    else d.onTx 0 q (fun t => { t with relays := x :: rest })

/-- The queue of port T that carries the relayed slots of binding `q` of port E (1) or W (2) (R336). -/
def relayQueue (p q : Nat) : Nat := if p = 1 then q else 8 + q

/-! ### Receive bindings (R334, R336) -/

def Dev.rx (d : Dev) (p q : Nat) : SeamRx := Tab.get {} d.seamRx (p * 16 + q)
def Dev.onRx (d : Dev) (p q : Nat) (f : SeamRx → SeamRx) : Dev := { d with seamRx := Tab.modify {} d.seamRx (p * 16 + q) f }

/-- The proxy stream unit of a binding, and its route's registers. -/
def Dev.proxySu (d : Dev) (p q : Nat) : Nat := 16 * d.rd (Reg.BCNQ_CLUSTER.at [p, q]) + d.rd (Reg.BCNQ_PROXY_SU.at [p, q])
def Dev.proxyIx (d : Dev) (p q : Nat) : List Nat := six (d.proxySu p q) [d.rd (Reg.BCNQ_PROXY_RT.at [p, q])]

/-- Half and generation that slot `k` is written with. -/
def Dev.slotHalf (d : Dev) (p q k : Nat) : Nat × Nat := halfGen (d.bit (Reg.BCNQ_HALVES.at [p, q])) k

/-- The port that a slot came by gets its credit back: the twin's relay comes by port T (R333, R336). -/
def Dev.returnSlot (d : Dev) (p q : Nat) (viaT : Bool) : Dev := d.bcnSend (if viaT then .slotCredit 0 (relayQueue p q) else .slotCredit p q)

/-- The slot NEXT_K of a binding is written out: it is released FULL and its credit goes back (R333, R334, R336). -/
def Dev.slotDone (d : Dev) (p q : Nat) : Dev :=
  let k := d.rd (Reg.BCNQ_NEXT_K.at [p, q])
  let u := d.proxySu p q
  let i := d.proxyIx p q
  let hg := d.slotHalf p q k
  let upd : TagUpd :=
    { writer := 0x100 + u, route := some (d.rd (Reg.SU_RT_ROUTE.at i)), tcore := d.rd (Reg.SU_RT_TCORE.at i),
      handle := d.rd (Reg.SU_RT_THANDLE.at i), half := hg.1, full := true, gmode := 2, gen := hg.2, task := 0, pc := 0 }
  let d := d.sendTag (.su u) upd
  let d := (d.inc (Reg.BCNQ_NEXT_K.at [p, q])).inc (Reg.BCNQ_SLOTS_RX.at [p, q])
  let viaT := (d.rx p q).viaT.contains k
  (d.onRx p q (fun r => { r with slots := r.slots.filter (fun s => s.k != k), out := none, viaT := r.viaT.filter (· != k) })).returnSlot p q viaT

/-- Transactions go out while the proxy route holds credit (R148, R334). -/
def Dev.seamPump (d : Dev) (p q : Nat) : List (Nat × Bytes × List Nat) → Dev
  | [] => d.slotDone p q
  | t :: rest =>
    let i := d.proxyIx p q
    let c := d.rd (Reg.SU_RT_CRED.at i)
    if c = 0 then d.onRx p q (fun r => { r with out := some (t :: rest) })
    else
      let hg := d.slotHalf p q (d.rd (Reg.BCNQ_NEXT_K.at [p, q]))
      let u := d.proxySu p q
      ((d.wr (Reg.SU_RT_CRED.at i) (c - 1)).sendTxn (.su u)
        ⟨0x100 + u, 0, some (d.rd (Reg.SU_RT_ROUTE.at i)), d.rd (Reg.SU_RT_TCORE.at i), d.rd (Reg.SU_RT_THANDLE.at i), hg.1, t.1, t.2.1, 0, 0,
          t.2.2⟩).seamPump p q rest

/-- Writes out what it can of a binding: complete slots in ascending k (R334). -/
def Dev.seamStep (d : Dev) (p q : Nat) : Dev :=
  match (d.rx p q).out with
  | some l => d.seamPump p q l
  | none =>
    match (d.rx p q).slots.find? (fun s => s.k = d.rd (Reg.BCNQ_NEXT_K.at [p, q]) && d.rd (Reg.BCNQ_RX_SLOT_TXN.at [p, q]) ≤ s.txns.length) with
    | some s => d.seamPump p q s.txns
    | none => d

def Dev.seamDrain (d : Dev) (p q : Nat) : Dev := upTo ((d.rx p q).slots.length + 1) (fun _ d => d.seamStep p q) d

/-- Bindings whose proxy stream unit is `u`: credit has reached it. -/
def Dev.seamCredit (d : Dev) (u : Nat) : Dev :=
  d.seamRx.foldl (fun d e =>
    if d.proxySu (e.1 / 16) (e.1 % 16) = u && e.2.out.isSome then d.seamDrain (e.1 / 16) (e.1 % 16) else d) d

end Sys2Proof.Machine
end

