-- ==== Sys2Proof/Machine/Roles.lean ====
section
/-! DEFINITION. Roles of a twin, what it drives, claims and handover, and the state of the wall's neighbours (R312, R314 to R323, R333, R336, R337). -/

namespace Sys2Proof.Machine

def roleSolo : Nat := 0
def roleWait : Nat := 1
def roleSync : Nat := 2
def roleStandby : Nat := 3
def roleOwner : Nat := 4

def Dev.role (d : Dev) : Nat := d.rd (Reg.BCN_ROLE.at [])
def Dev.setRole (d : Dev) (r : Nat) : Dev := d.wr (Reg.BCN_ROLE.at []) r
def Dev.onBeacon (d : Dev) (f : Beacon → Beacon) : Dev := { d with beacon := f d.beacon }

/-- The partner of port `p` is present (R314). -/
def Dev.partner (d : Dev) (p : Nat) : Bool := d.beacon.present.contains p

/-- The last heartbeat of port `p`'s partner. -/
def Dev.heard (d : Dev) (p : Nat) : Option Heartbeat := Tab.get none d.beacon.heard p

/-- The twin is present and READY. -/
def Dev.twinIsReady (d : Dev) : Bool := d.partner 0 && ((d.heard 0).map Heartbeat.ready).getD false

/-- The twin reports this device's own SIDE (R317). -/
def Dev.sideConflict (d : Dev) : Bool :=
  d.bit (Reg.BCN_PAIR_EN.at []) && d.partner 0 && ((d.heard 0).map (fun h => h.sideB == d.bit (Reg.BCN_SIDE.at []))).getD false

/-- TWIN_SEL0 names the device's own side (R318). -/
def Dev.shown (d : Dev) : Bool := d.selB.contains 0 == d.bit (Reg.BCN_SIDE.at [])

/-- Level of TWIN_OWNo (R315, R316, R320, R421). -/
def Dev.twinOwn (d : Dev) (o : Nat) : Bool :=
  d.hostOpen && !d.beacon.sick &&
  (d.role = roleOwner || (d.role = roleStandby && d.beacon.claim.isSome) || (d.role = roleSolo && d.bit (Reg.OUT_ENABLE.at [o])))

/-- Serial number of the device. -/
def Dev.serial (d : Dev) : Nat := d.rd (Reg.SEC_SERIAL_LO.at []) + d.rd (Reg.SEC_SERIAL_HI.at []) * 2 ^ 32

/-- A position and side as PARTNER_ID and WALL_MIN_POS give them. -/
def Dev.wallId (d : Dev) : Nat := 2 * d.rd (Reg.BCN_POS.at []) + d.rd (Reg.BCN_SIDE.at [])

/-- Ports that are up, of those in use. -/
def Dev.upPorts (d : Dev) : List Nat := (List.range 3).filter (fun p => d.portUsed p && d.bit (Reg.BCNP_UP.at [p]))

/-- An output that leaves its reference runs free (R253, R255): a short or long frame already announced still comes, and no slew follows. -/
def Dev.runFree (d : Dev) (o : Nat) : Dev :=
  ((d.wr (Reg.OUT_GL_STATE.at [o]) 0).set (Reg.OUT_FREQ_LOCK.at [o]) false).onOut o (fun q =>
    { q with slew := 0, jump := if q.jumpSeen = 0 then none else q.jump.map (fun j => { j with rest := 0 }) })

/-- The device follows its twin's tokens: it is in WAIT, SYNC or STANDBY (R319, R328). -/
def Dev.follows (d : Dev) : Bool := d.role = roleWait || d.role = roleSync || d.role = roleStandby

/-- The device becomes OWNER (R316, R317, R320). A device that takes over sends tokens from its next PIPE boundary on, and its outputs in INTERNAL mode, which followed the twin's
tokens, run free as committed (R255, R328). One that has lost its health takes no role. -/
def Dev.becomeOwner (d : Dev) (isolated : Bool) : Dev :=
  if d.beacon.sick then d else
  let d := if d.follows then upTo 2 (fun o d => if d.rd (Reg.OUT_MODE.at [o]) = 2 then d else d.runFree o) d else d
  let d := (d.setRole roleOwner).set (Reg.BCN_READY.at []) false
  let d := if isolated then d.set (Reg.BCN_ISOLATED.at []) true else d
  d.onBeacon (fun b => { b with tokenOn := false, marking := false, handOff := false })

/-- The device enters WAIT (R316, R317). -/
def Dev.enterWait (d : Dev) : Dev :=
  if d.beacon.sick then d else
  (d.setRole roleWait).set (Reg.BCN_READY.at []) false |>.onBeacon (fun b => { b with waitFrom := d.time, claim := none, marking := false, handOff := false })

/-- The device becomes STANDBY (R316): a training of a link under way ends, for a standby makes no transactions with a sink (R319). -/
def Dev.standBy (d : Dev) (ready : Bool) : Dev :=
  upTo 2 (fun o d => d.onOut o (fun q => { q with training := false, retry := false })) ((d.setRole roleStandby).set (Reg.BCN_READY.at []) ready)

/-- The device enters SYNC (R316): an image that already differs from the owner's is reported. -/
def Dev.enterSync (d : Dev) : Dev := (d.setRole roleSync).onBeacon (fun b => { b with valsApplied := false, ownerVals := none, mismatchTold := false })

/-- A standby claims (R320). -/
def Dev.claimNow (d : Dev) : Dev :=
  if d.role != roleStandby || d.beacon.claim.isSome || d.beacon.sick then d
  else (d.onBeacon (fun b => { b with claim := some d.time })).inc (Reg.BCN_TAKEOVERS.at [])

/-- Roles in force when RUNNING begins, and when a PIPE commit changes PAIR_EN (R316; log 43). -/
def Dev.pairRole (d : Dev) : Dev :=
  if d.beacon.sick then d
  else if d.bit (Reg.BCN_PAIR_EN.at []) then d.enterWait
  else (d.setRole roleSolo).set (Reg.BCN_READY.at []) false |>.onBeacon (fun b => { b with claim := none, marking := false, handOff := false })

/-- An owner whose twin is READY marks its heartbeats with a handover (R322). -/
def Dev.markHandover (d : Dev) : Dev :=
  if d.role = roleOwner && d.twinIsReady then d.onBeacon (fun b => { b with marking := true }) else d

/-- A condition of HANDOVER_MASK arises. -/
def Dev.handoverCause (d : Dev) (i : Nat) : Dev := if d.bitAt (Reg.BCN_HANDOVER_MASK.at []) i then d.markHandover else d

/-- At its first line start after a heartbeat that shows the claim, the former owner becomes STANDBY (R322). -/
def Dev.endOwnership (d : Dev) : Dev :=
  if d.beacon.handOff && d.role = roleOwner && !d.beacon.sick then
    ((d.standBy false).onBeacon (fun b =>
      { b with handOff := false, marking := false, claim := none, tokenOn := false, ownerVals := none, valsApplied := false })).raise 0x0512 8 0
  else d

/-! ### Seam epochs (R337) -/

/-- F_e is kept if it is larger than the one held. -/
def Dev.keepEpoch (d : Dev) (fe : Nat) : Bool × Dev :=
  match d.beacon.fe with
  | some x => if x < fe then (true, d.onBeacon (fun b => { b with fe := some fe })) else (false, d)
  | none => (true, d.onBeacon (fun b => { b with fe := some fe }))

/-- Keeper starts a seam epoch reset at its PIPE frame number + 3. -/
def Dev.startEpoch (d : Dev) : Dev :=
  let fe := (d.pipeFrame.getD 0 + 3) % 2 ^ 32
  let r := d.keepEpoch fe
  if r.1 then r.2.upPorts.foldl (fun d p => d.bcnSend (.epoch p fe)) r.2 else r.2

/-- Pipelines with a seam (SEAM_PIPES_E and SEAM_PIPES_W). -/
def Dev.seamPipes (d : Dev) : List Nat :=
  (List.range 64).filter (fun p => d.bit64 (Reg.BCN_SEAM_PIPES_E_LO.at []) (Reg.BCN_SEAM_PIPES_E_HI.at []) p ||
    d.bit64 (Reg.BCN_SEAM_PIPES_W_LO.at []) (Reg.BCN_SEAM_PIPES_W_HI.at []) p)

/-- k, NEXT_K and the slot credits of every queue take their starting values. -/
def Dev.restartQueues (d : Dev) : Dev :=
  upTo 48 (fun i d =>
    let ix := [i / 16, i % 16]
    let d := d.wr (Reg.BCNQ_TX_CRED.at ix) (Tab.get 0 d.beacon.startCred i)
    (d.set (Reg.BCNQ_TX_WAITING.at ix) false).wr (Reg.BCNQ_NEXT_K.at ix) 0) { d with seamTx := [], seamRx := [] }

/-! ### Neighbours (R336) -/

def presentFld (p : Nat) : Fld := if p = 1 then Reg.BCN_E_PRESENT.at [] else Reg.BCN_W_PRESENT.at []
def relayFld (p : Nat) : Fld := if p = 1 then Reg.BCN_E_RELAY.at [] else Reg.BCN_W_RELAY.at []

/-- A binding of port `p` may take its slots from the twin's relay, and the twin reports that neighbour present. -/
def Dev.relayFor (d : Dev) (p : Nat) : Bool :=
  d.partner 0 && (List.range 16).any (fun q => d.bit (Reg.BCNQ_RX_EN.at [p, q]) && d.bit (Reg.BCNQ_ALT_T.at [p, q])) &&
  ((d.heard 0).map (fun h => if p = 1 then h.ePresent else h.wPresent)).getD false

/-- The neighbour of port E (1) or W (2) is present, relayed or absent; a change is reported, and starts a seam epoch reset when it is one of presence. -/
def Dev.neighbour (d : Dev) (p : Nat) : Dev :=
  let relay := !d.partner p && d.relayFor p
  let there := d.partner p || relay
  let was := d.bit (presentFld p)
  let wasRelay := d.bit (relayFld p)
  let d := (d.set (presentFld p) there).set (relayFld p) relay
  let d := if relay && !wasRelay then d.raise 0x0533 3 p else d
  if there && !was then (d.raise 0x0532 3 p).startEpoch
  else if was && !there then (d.raise 0x0531 3 p).startEpoch
  else d

/-- The binding that takes the slots of queue `q` of port `p`: its own, or on port T that of port E or W which may take them from the twin's relay (R333, R336; log 181). -/
def Dev.bindingOf (d : Dev) (p q : Nat) : Option (Nat × Nat) :=
  let e := if q < 8 then 1 else 2
  if d.bit (Reg.BCNQ_RX_EN.at [p, q]) then some (p, q)
  else if p = 0 && d.bit (Reg.BCNQ_RX_EN.at [e, q % 8]) && d.bit (Reg.BCNQ_ALT_T.at [e, q % 8]) then some (e, q % 8)
  else none

/-- The enabled bindings of a port announce themselves to the partner (R333). -/
def Dev.announce (d : Dev) (p : Nat) : Dev :=
  upTo 16 (fun q d => match d.bindingOf p q with
    | some b => d.bcnSend (.announce p q (d.rd (Reg.BCNQ_STAGE_SLOTS.at [b.1, b.2])))
    | none => d) d

end Sys2Proof.Machine
end

