-- ==== Sys2Proof/Machine/Display.lean ====
section
/-! DEFINITION. The display block line by line: guard paths, line buffers, line deadlines, composition, signatures, write-back, flips and their fences (R12 to R15, R260 to R262, R276 to R304, R439). -/

namespace Sys2Proof.Machine

/-! ### Rasters and layers -/

/-- Outputs that the raster of `o` drives. -/
def Dev.rasterOuts (d : Dev) (o : Nat) : List Nat := if d.split then [0, 1] else [o]

/-- Those of them that run: a half that is stopped, or waits for line 0, has no lines (R246, R259). -/
def Dev.liveOuts (d : Dev) (o : Nat) : List Nat := (d.rasterOuts o).filter d.outRuns

/-- Layer slots of the raster of output `o` (R276). -/
def Dev.rasterLayers (d : Dev) (o : Nat) : List Nat := if d.split then List.range 16 else (List.range 8).map (fun i => 8 * o + i)

/-- Enabled layers from the bottom up (R277). -/
def Dev.stacking (d : Dev) (o : Nat) : List Nat :=
  (List.range 8).flatMap (fun z => (d.rasterLayers o).filter (fun j => d.rd (Reg.LAY_KIND.at [j]) != 0 && d.rd (Reg.LAY_Z.at [j]) = z))

/-- The layer's line on raster line `y`. -/
def Dev.layerLine (d : Dev) (j y : Nat) : Option Nat :=
  let top := d.rd (Reg.LAY_Y.at [j])
  if top ≤ y && y < top + d.rd (Reg.LAY_H.at [j]) then some (y - top) else none

/-- Rows of a layer that lie in the active area. -/
def Dev.shownRows (d : Dev) (j : Nat) : Nat := min (d.rd (Reg.LAY_H.at [j])) (d.vactive (d.rasterOf j) - d.rd (Reg.LAY_Y.at [j]))

/-- The output frame whose active lines follow the last boundary. -/
def Dev.comingFrame (d : Dev) (o : Nat) : Nat := d.outFrame o + 1

/-- Frees the slot of line `y` of layer `j` if it holds that line of that frame (R282). -/
def Dev.freeSlot (d : Dev) (j frame y : Nat) : Dev :=
  d.onLayer j (fun q => if Tab.get 0 q.slots (d.lineSlot j y) = slotTag frame y then { q with slots := Tab.put 0 q.slots (d.lineSlot j y) 0 } else q)

/-! ### Guard paths (R283 to R286) -/

/-- The latch that fixes the input frame of layer `j` for an output frame (R20, R28): one of its pipeline's, or of the one it had before a cut-over (R233). -/
def Dev.guardLatch (d : Dev) (j frame : Nat) : Option Latch :=
  match d.guardKept.find? (fun k => k.1.layer = j) with
  | some k => k.2.latches.find? (fun l => l.frame = frame)
  | none => match d.pipeOfLayer j with
    | none => none
    | some r => d.latchFor r.pipe frame

/-- Source runs that guard line `y` needs: of the newer latched frame, and of the older one when the path de-noises (R284). -/
def Dev.guardRuns (d : Dev) (j : Nat) (l : Latch) (rows : List Nat) : List (Nat × Nat) :=
  let bases := if d.rd (Reg.GP_DN_K.at [j]) = 0 then [l.newer] else [l.newer, l.older]
  bases.flatMap (fun b => rows.flatMap (fun r => d.srcRuns (d.rd (Reg.GP_STREAM.at [j])) b (d.rd (Reg.GP_SRC_Y.at [j]) + r)))

/-- Source rows of guard line `y` (R285). -/
def Dev.guardRows (d : Dev) (j y : Nat) : List Nat := scaleRows (d.rd (Reg.GP_SRC_H.at [j])) (d.rd (Reg.LAY_H.at [j])) y

/-- The path asks for the source rows that line `y` needs and the line before did not: deadline-critical, with the deadline of the line (R26, R283). -/
def Dev.guardAsk (d : Dev) (j : Nat) (l : Latch) (y : Nat) : Dev :=
  let o := d.rasterOf j
  if d.shownRows j ≤ y then d
  else
    let had := if y = 0 then [] else d.guardRows j (y - 1)
    let rows := (d.guardRows j y).foldl (fun (acc : List Nat) r => if acc.contains r || had.contains r then acc else acc ++ [r]) []
    (d.guardRuns j l rows).foldl (fun d r =>
      d.askReads (guardMaster j) (ofSigned 32 (d.lineDeadlineAt o l.frame (d.rd (Reg.LAY_Y.at [j]) + y))) true r.1 r.2) d

/-- GUARD_PATH_START (R283): the later of the latch point and the frame boundary has come. -/
def execGuardPathStart (j : Fin 16) (s : State) : Host.Outcome State Fault Refusal :=
  s.act (fun d =>
    let frame := d.comingFrame (d.rasterOf j)
    if !d.outRuns (d.rasterOf j) || d.rd (Reg.LAY_KIND.at [j.val]) != 2 then d
    else
      match d.guardLatch j frame with
      | none => d
      | some l =>
        if !l.live || ((d.layer j).guardFor.map Latch.frame) = some frame then d
        else ((d.withdraw (guardMaster j)).onLayer j (fun q => { q with guardFor := some l, guardNext := 0, glines := [] })).guardAsk j l 0)

/-- 10-bit codes of pixel (x, y) of the crop, after conversion and de-noise (R284). -/
def Dev.guardPixel (d : Dev) (j : Nat) (l : Latch) (x y : Nat) : List Nat :=
  let s := d.rd (Reg.GP_STREAM.at [j])
  let e := d.colourEntry (d.rasterOf j) (d.rd (Reg.GP_CSC.at [j])) (srcDepth (d.rd (Reg.STR_FMT.at [s])))
  let sx := d.rd (Reg.GP_SRC_X.at [j]) + x
  let sy := d.rd (Reg.GP_SRC_Y.at [j]) + y
  let codes (base : Nat) : List Nat := ((colourIn e (d.srcCodes s base false sx sy)).take 3).map code10
  let k := d.rd (Reg.GP_DN_K.at [j])
  let cur := codes l.newer
  if k = 0 then cur
  else
    let old := codes l.older
    (List.range 3).map (fun c => denoise k (d.rd (Reg.GP_DN_THRESH.at [j])) (cur.getD c 0) (old.getD c 0))

/-- The pixels of guard line `y` (R284, R285): vertically filtered columns, then the horizontal filter. -/
def Dev.guardPixels (d : Dev) (j : Nat) (l : Latch) (y : Nat) : List Px :=
  let sw := d.rd (Reg.GP_SRC_W.at [j])
  let sh := d.rd (Reg.GP_SRC_H.at [j])
  let w := d.rd (Reg.LAY_W.at [j])
  let h := d.rd (Reg.LAY_H.at [j])
  let hc := d.hcoef (d.rasterOf j) (d.rd (Reg.GP_HCOEF.at [j]))
  let vc := d.vcoef (d.rasterOf j) (d.rd (Reg.GP_VCOEF.at [j]))
  let cols (c : Nat) : List Nat := (List.range sw).map (fun x => scaleTap vc 6 2 sh h y (fun r => (d.guardPixel j l x r).getD c 0))
  let chan (c : Nat) : List Nat := let v := cols c
    (List.range w).map (fun x => scaleTap hc 8 3 sw w x (fun i => v.getD i 0))
  let r := chan 0
  let g := chan 1
  let b := chan 2
  (List.range w).map (fun x => ⟨r.getD x 0, g.getD x 0, b.getD x 0, 1023⟩)

/-- Lines in the guard line buffer of layer `j` (R286): those not yet decided, and those taken that are not yet composed. -/
def Dev.guardLevel (d : Dev) (j : Nat) : Nat :=
  (d.layer j).glines.length + ((d.layer j).takes.filter (fun t => match t.2 with
    | .guardLine _ => true
    | _ => false)).length

/-- The source bytes that guard line `y` is made from: the crop of its rows (R284). -/
def Dev.guardSource (d : Dev) (j : Nat) (l : Latch) (y : Nat) : List (Nat × Nat) :=
  let bases := if d.rd (Reg.GP_DN_K.at [j]) = 0 then [l.newer] else [l.newer, l.older]
  bases.flatMap (fun b => (d.guardRows j y).flatMap (fun r =>
    d.cropRuns (d.rd (Reg.GP_STREAM.at [j])) b (d.rd (Reg.GP_SRC_Y.at [j]) + r) (d.rd (Reg.GP_SRC_X.at [j])) (d.rd (Reg.GP_SRC_W.at [j]))))

/-- GUARD_LINE (R283 to R286): the path completes its next line once its source rows are there; a line whose source word was poisoned is not completed, and one whose deadline has passed is not held. -/
def execGuardLine (j : Fin 16) (s : State) : Host.Outcome State Fault Refusal :=
  s.act (fun d =>
    let q := d.layer j
    let o := d.rasterOf j
    match q.guardFor with
    | none => d
    | some l =>
      let y := q.guardNext
      if l.frame != d.comingFrame o || !d.outRuns o || d.rd (Reg.LAY_KIND.at [j.val]) != 2 || d.shownRows j ≤ y || 8 ≤ d.guardLevel j ||
          d.asking (guardMaster j) then d
      else
        let chk := (d.guardSource j l y).foldl (fun (acc : Bool × Dev) r =>
          let c := acc.2.ddrCheck r.1 r.2 1 o
          (acc.1 || !c.1.isEmpty, c.2)) (false, d)
        let data := (d.guardPixels j l y).flatMap (fun p => leBytes 4 p.word.toNat)
        let d := chk.2.onLayer j (fun q => { q with guardNext := y + 1 })
        let d := if chk.1 || d.lineDecided j l.frame y then d
          else d.onLayer j (fun q => { q with glines := q.glines ++ [⟨y, data, false⟩] })
        d.guardAsk j l (y + 1))

/-! ### Line buffers of memory-fed layers (R260 to R262) -/

/-- A fence read of the raster is outstanding: the read engines wait for the decision (R290). -/
def Dev.fencesOut (d : Dev) (o : Nat) : Bool := (d.rasterLayers o).any (fun j => (d.layer j).fence = 1)

/-- Address of a source row in the front buffer. -/
def Dev.frontRow (d : Dev) (j row : Nat) : Nat :=
  d.rd (Reg.LAY_FRONT_ADDR_LO.at [j]) + d.rd (Reg.LAY_FRONT_ADDR_HI.at [j]) * 2 ^ 32 + row * (d.layer j).frontPitch

/-- Row length of a memory-fed layer. -/
def Dev.lbBytes (d : Dev) (j : Nat) : Nat := d.rd (Reg.LAY_W.at [j]) * memBytes (d.rd (Reg.LAY_FMT.at [j]))

/-- The engine of layer `j` has a row to fetch and room for it. -/
def Dev.lbWants (d : Dev) (j : Nat) : Bool :=
  let q := d.layer j
  d.rd (Reg.LAY_KIND.at [j]) = 1 && d.outRuns (d.rasterOf j) && !d.fencesOut (d.rasterOf j) && q.nextRow < d.shownRows j &&
    q.rows.length < d.rd (Reg.OUT_LB_LINES.at (lbIx j))

/-- The engine asks for its next row, with the line deadline of the line that needs it (R17, R261). -/
def Dev.lbAsk (d : Dev) (j : Nat) : Dev :=
  let q := d.layer j
  if q.asked || !d.lbWants j then d
  else
    (d.onLayer j (fun q => { q with asked := true })).askReads (lbMaster j)
      (ofSigned 32 (d.lineDeadlineAt (d.rasterOf j) q.rowsFor (d.rd (Reg.LAY_Y.at [j]) + q.nextRow))) (d.lbCritical j) (d.frontRow j q.nextRow) (d.lbBytes j)

/-- The engine drops what it holds and has asked for and goes to the first row of a frame. -/
def Dev.lbRestart (d : Dev) (j frame : Nat) : Dev :=
  (d.withdraw (lbMaster j)).onLayer j (fun q => { q with rows := [], nextRow := 0, rowsFor := frame, asked := false })

/-- LB_ROW_FETCH (R261): the engine completes its next row once its requests are served, and asks for the one after. -/
def execLbRowFetch (j : Fin 16) (s : State) : Host.Outcome State Fault Refusal :=
  s.act (fun d =>
    let q := d.layer j
    if !d.lbWants j then d
    else if !q.asked then d.lbAsk j
    else if d.asking (lbMaster j) then d
    else
      let r := d.readShown (d.frontRow j q.nextRow) (d.lbBytes j) 1 (d.rasterOf j)
      (r.2.2.onLayer j (fun q => { q with rows := q.rows ++ [⟨q.nextRow, r.1, r.2.1⟩], nextRow := q.nextRow + 1, asked := false })).lbAsk j)

/-! ### Line deadlines (R12 to R15, R288) -/

/-- Guard lines of layer `j` are forced: FORCE_GUARD or a Watchlight action (R240, R304). -/
def Dev.guardForced (d : Dev) (j : Nat) : Bool :=
  d.bitAt (Reg.GP_FORCE_GUARD.at []) j ||
  (List.range 2).any (fun o => (List.range 16).any (fun r => d.bit (Reg.WL_GFORCED.at [o, r]) && d.rd (Reg.WL_GLAYER.at [o, r]) = j))

def Dev.takeLine (d : Dev) (j y : Nat) (t : Take) : Dev := d.onLayer j (fun q => { q with takes := q.takes ++ [(y, t)] })

/-- The layer is switched off for the rest of the frame. -/
def Dev.switchOff (d : Dev) (j frame : Nat) : Dev := d.onLayer j (fun q => { q with off := some frame })

/-- The decision for an enhanced layer whose line `ly` lies on raster line `y` of `frame` (R13, R282, R288, R484). During a cut-over, and for a pipeline that has overrun or been
halted or is parked, the line comes from the guard path (R181, R205, R233, R375). A guard line that is not taken leaves the buffer at D(y), a taken one once it is composed (log 179). -/
def Dev.decideEnhanced (d : Dev) (o j y ly frame : Nat) : Dev :=
  let live := match d.guardLatch j frame with
    | some l => l.live
    | none => false
  let guarded := (d.cut.kind != 0 && d.cut.step != 0) || (match d.pipeOfLayer j with
    | some r => (d.pipe r.pipe).guarded != 0 || d.parked r.pipe
    | none => false)
  let drop (d : Dev) : Dev := (d.freeSlot j frame ly).onLayer j (fun q => { q with glines := q.glines.filter (fun g => ly < g.line) })
  if !live || (d.layer j).off = some frame then drop d
  else
    let forced := d.guardForced j
    if !forced && !guarded && d.neuralDone j frame ly then
      (d.takeLine j y .neural).onLayer j (fun q => { q with glines := q.glines.filter (fun g => ly < g.line) })
    else
      let held := if ((d.layer j).guardFor.map Latch.frame) = some frame then (d.layer j).glines.find? (fun g => g.line = ly) else none
      match held with
      | some g =>
        let d := (drop d).takeLine j y (.guardLine g.data)
        if forced then d.inc (Reg.GP_FORCED_CNT.at [j]) else d.inc (Reg.GP_GUARD_CNT.at [j])
      | none =>
        let d := ((drop d).switchOff j frame).inc (Reg.GP_OFF_CNT.at [j])
        d.raise 0x0401 1 o [j, y]

/-- The decision for a memory-fed layer (R262). -/
def Dev.decideMemory (d : Dev) (o j y ly frame : Nat) : Dev :=
  if (d.layer j).off = some frame then d
  else
    match (if (d.layer j).rowsFor = frame then (d.layer j).rows.find? (fun r => r.line = ly) else none) with
    | some r => d.takeLine j y (.row r.data)
    | none =>
      let d := (d.switchOff j frame).inc (Reg.OUT_LB_UNDERRUN.at (lbIx j))
      let d := (d.lbRestart j (frame + 1)).lbAsk j
      d.raise 0x0320 1 o [j, y]

/-- LINE_DEADLINE (R12 to R15, R262, R280, R288): the next line in sequence is decided for every layer; a line of the frame after the coming one only
when the guard margin reaches across the blanking. -/
def execLineDeadline (o : Fin 2) (s : State) : Host.Outcome State Fault Refusal :=
  s.act (fun d =>
    let q := d.out o
    let frame := q.decFrame
    let y := q.decided
    let coming := d.comingFrame o
    let due := frame ≤ coming || (frame = coming + 1 && q.announced + y < d.rd (Reg.OUT_GUARD_LINES.at [o.val]))
    if !d.outRuns o || (d.split && o = 1) || !due then d
    else
      let d := (d.rasterLayers o).foldl (fun d j =>
        match d.layerLine j y with
        | none => d
        | some ly =>
          match d.rd (Reg.LAY_KIND.at [j]) with
          | 1 => d.decideMemory o j y ly frame
          | 2 => d.decideEnhanced o j y ly frame
          | _ => d) d
      d.onOut o (fun q => if y + 1 < d.vactive o then { q with decided := y + 1 } else { q with decided := 0, decFrame := frame + 1 }))

/-! ### The Lantern layer (R295, R296, R304) -/

/-- The value in force of a staged Lantern field (R300). -/
def Dev.lan (d : Dev) (f : Fld) : Nat := Tab.get f.reset d.lantern.live f.key

def lanBytes (fmt : Nat) : Nat := if fmt ≤ 1 then 2 else 4

/-- The indicator of output `o` is drawn (R304). -/
def Dev.indicatorOn (d : Dev) (o : Nat) : Bool :=
  d.lan (Reg.LAN_IND_EN.at [o]) != 0 &&
  (List.range 16).any (fun r => d.bit (Reg.WL_ACT_IND.at [o, r]) && d.bit (Reg.WL_FROZEN.at [o, r]))

/-- A pixel of the store at an offset: transparent when its word holds a double-bit error (R296); with the word, when it holds an error of either kind. -/
def Dev.storePixel (d : Dev) (fmt off : Nat) : Px × List Nat :=
  let a := lanternBase + off
  let p := lanternPixel fmt (d.readLe a (lanBytes fmt))
  match Tab.get 0 d.ecc (a / 8) with
  | 0 => (p, [])
  | m => (if m = 2 then { p with a := 0 } else p, [a / 8])

/-- The plane's pixel and the indicator's pixel at raster position (x, y) of plane `o`, bottom first. -/
def Dev.lanternAt (d : Dev) (o x y : Nat) : List (Px × List Nat) :=
  let v (f : RegDef) : Nat := d.lan (f.at [o])
  let fmt := v Reg.LAN_FMT
  let bpp := lanBytes fmt
  let k := if v Reg.LAN_SCALE2 = 1 then 2 else 1
  let plane :=
    if v Reg.LAN_EN != 0 && v Reg.LAN_X ≤ x && x < v Reg.LAN_X + k * v Reg.LAN_W && v Reg.LAN_Y ≤ y && y < v Reg.LAN_Y + k * v Reg.LAN_H then
      [d.storePixel fmt (v Reg.LAN_BASE + (y - v Reg.LAN_Y) / k * v Reg.LAN_PITCH + (x - v Reg.LAN_X) / k * bpp)]
    else []
  let ind :=
    if d.indicatorOn o && v Reg.LAN_IND_X ≤ x && x < v Reg.LAN_IND_X + v Reg.LAN_IND_W && v Reg.LAN_IND_Y ≤ y && y < v Reg.LAN_IND_Y + v Reg.LAN_IND_H then
      [d.storePixel fmt (v Reg.LAN_IND_BASE + (y - v Reg.LAN_IND_Y) * ((v Reg.LAN_IND_W * bpp + 255) / 256 * 256) + (x - v Reg.LAN_IND_X) * bpp)]
    else []
  plane ++ ind

/-! ### Composition (R279 to R281) -/

/-- The layer's pixel at raster column `x`, from what was taken for the line. -/
def Dev.layerPixel (d : Dev) (j ly x : Nat) (t : Take) : Option Px :=
  let x0 := d.rd (Reg.LAY_X.at [j])
  if !(x0 ≤ x && x < x0 + d.rd (Reg.LAY_W.at [j])) then none
  else
    let lx := x - x0
    let curve (p : Px) : Px := if d.bit (Reg.LAY_LCURVE_EN.at [j]) then d.curvePx (d.rasterOf j) (0x8000 + 4 * j) p else p
    match t with
    | .none => none
    | .neural => some (pxOfWord (d.readLe (d.slotAddr j ly + 4 * lx) 4))
    | .guardLine data => some (curve (pxOfWord (rowPixel data 4 lx)))
    | .row data =>
      let fmt := d.rd (Reg.LAY_FMT.at [j])
      some (curve (memPixel fmt (rowPixel data (memBytes fmt) lx)))

/-- A composed pixel: before and after the output curve, whether the Lantern layer is transparent there, and the store words found in error. -/
structure Composed where
  raw : Px
  px : Px
  clear : Bool
  bad : List Nat
  deriving DecidableEq, Repr

/-- Composes raster pixel (x, y) (R279 to R281, R240). -/
def Dev.composePixel (d : Dev) (o x y : Nat) (layers : List (Nat × Nat × Take)) : Composed :=
  let po := if d.split then x / max (d.hactive 0) 1 else o
  let bg := pxOfWord (d.rd (Reg.CMP_BGCOLOUR.at [po]))
  let started := d.bit (Reg.CMP_STARTED.at [po])
  let p := if !started || d.bit (Reg.OUT_FORCE_BG.at [po]) then bg
    else layers.foldl (fun p l =>
      match d.layerPixel l.1 l.2.1 x l.2.2 with
      | none => p
      | some s => s.over (d.bit (Reg.LAY_PREMULT.at [l.1])) (d.rd (Reg.LAY_GALPHA.at [l.1])) p) bg
  let lan := d.lanternAt (d.rasterBase o) x y
  let p := if started then lan.foldl (fun p s => s.1.over false 255 p) p else p
  let q := if d.bit (Reg.CMP_OCURVE_EN.at [po]) then d.curvePx (d.rasterBase po) (0x8040 + 4 * d.rd (Reg.CMP_OCURVE.at [po])) p else p
  ⟨p, q, lan.all (fun s => s.1.a = 0), lan.flatMap Prod.snd⟩

/-- Adds a line to the running signatures of an output (R301, R302); `px` are the pixels of its own half. -/
def Dev.signLine (d : Dev) (po y : Nat) (px : List Composed) : Dev :=
  upTo 16 (fun r d =>
    let y0 := d.rd (Reg.WL_Y.at [po, r])
    if d.bit (Reg.WL_EN.at [po, r]) && y0 ≤ y && y < y0 + d.rd (Reg.WL_H.at [po, r]) then
      let mask := (d.lan (Reg.LAN_CHECK_EN.at [po])).testBit r
      let part := (px.drop (d.rd (Reg.WL_X.at [po, r]))).take (d.rd (Reg.WL_W.at [po, r]))
      let bytes := part.flatMap (fun c => leBytes 4 (if mask && c.clear then 0 else c.px.word.toNat))
      d.onOut po (fun q => { q with sigs := Tab.modify 0 q.sigs r (fun c => crcAdd c bytes) })
    else d) d

/-- The CRC of a line as sent, which the output path keeps whatever SR_EN is (R267). -/
def Dev.refreshLine (d : Dev) (po y : Nat) (words : List Word) : Dev :=
  let c := crc32 (words.flatMap (fun w => leBytes 4 w.toNat))
  d.onOut po (fun q => { q with nowCrc := Tab.insert q.nowCrc y c, differed := q.differed || Tab.find q.sentCrc y != some c })

/-- What composing finds in a word of the Lantern store (R296, R379): a single-bit error is corrected, a double-bit error reported. -/
def Dev.storeWord (d : Dev) (o w : Nat) : Dev :=
  let off := w * 8 - lanternBase
  let ue := Tab.get 0 d.ecc w = 2
  let d := d.noteRow 2 (off / 0x100000 + off / 512 % 2048 * 16) ue
  if ue then d.raise 0x0724 1 o else { d with ecc := Tab.put 0 d.ecc w 0 }

/-- First byte of write-back buffer `i` of output `o` (R293). -/
def Dev.wbBase (d : Dev) (o i : Nat) : Nat :=
  d.rd (Reg.CMP_WB_BASE_LO.at [o]) + d.rd (Reg.CMP_WB_BASE_HI.at [o]) * 2 ^ 32 + i * d.rd (Reg.CMP_WB_STRIDE.at [o])

/-- Granules of write-back that wait for a place in a write queue; one that has its place is written (R171). -/
def Dev.wbQueued (d : Dev) (o : Nat) : List Nat :=
  (List.range 12).flatMap (fun ch => ((d.chan ch).waitWrites.filter (fun e => e.master = wbMaster o)).map DdrEntry.granule)

/-- A granule of a write-back frame. -/
def WbFrame.holds (f : WbFrame) (g : Nat) : Bool := f.base ≤ g * 256 && g * 256 < f.base + f.size

/-- Lines of write-back held (R294): the frame and the line of every granule that waits. -/
def Dev.wbHeld (d : Dev) (o : Nat) : List (Nat × Nat) :=
  let fs := (d.out o).wb.toList ++ (d.out o).wbWait
  (d.wbQueued o).foldl (fun (l : List (Nat × Nat)) g =>
    match ((List.range fs.length).zip fs).find? (fun f => f.2.holds g) with
    | none => l
    | some f =>
      let k := (f.1, (g * 256 - f.2.base) / max f.2.pitch 1)
      if l.contains k then l else l ++ [k]) []

/-- Frames whose write-back ended early are forgotten once their writes have their places. -/
def Dev.wbPrune (d : Dev) (o : Nat) : Dev :=
  d.onOut o (fun q => { q with wbWait := q.wbWait.filter (fun f => f.whole || (d.wbQueued o).any f.holds) })

/-- A pixel in a write-back format (R293). -/
def wbWord (fmt : Nat) (p : Px) : Nat :=
  let c8 (c : Nat) : Nat := (c * 255 + 511) / 1023
  if fmt = 0 then c8 p.b + c8 p.g * 256 + c8 p.r * 65536 else p.b + p.g * 1024 + p.r * 1048576 + 3 * 2 ^ 30

/-- Writes a line to the write-back buffer in use; a line that finds no room among the 4 held ends the frame's write-back (R293, R294); the
Lantern store takes no such write (R298). -/
def Dev.writeBack (d : Dev) (o y : Nat) (px : List Px) : Dev :=
  match (d.out o).wb with
  | none => d
  | some f =>
    if 4 ≤ (d.wbHeld o).length then
      ((d.inc (Reg.CMP_WB_INCOMPLETE.at [o])).raiseSecond 0x0450 1 o o).onOut o (fun q => { q with wb := none, wbWait := q.wbWait ++ [{ f with whole := false }] })
    else
      let data := px.flatMap (fun p => leBytes 4 (wbWord (d.rd (Reg.CMP_WB_FMT.at [o])) p))
      let a := f.base + y * f.pitch
      match d.region a with
      | .lantern _ => (d.inc (Reg.LAN_DENIED.at [])).raise 0x0420 1 o
      | _ => (d.ddrWrite a data [] 1 o).askWrites (wbMaster o) (ofSigned 32 ((d.time : Int) + d.linesNs o 4)) a data.length

/-- The last active line is over: its neural slots are freed (R282) and what was taken for it is dropped. -/
def Dev.endLine (d : Dev) (o y : Nat) : Dev :=
  (d.rasterLayers o).foldl (fun d j =>
    let d := match (d.layer j).takes.find? (fun t => t.1 = y), d.layerLine j y with
      | some (_, .neural), some ly => d.freeSlot j (d.comingFrame o) ly
      | _, _ => d
    d.onLayer j (fun q => { q with takes := q.takes.filter (fun t => t.1 != y) })) d

/-- Rows of memory-fed layers that no line after `y` needs are freed, and the engines go on (R261). -/
def Dev.freeRows (d : Dev) (o y : Nat) : Dev :=
  (d.rasterLayers o).foldl (fun d j =>
    match d.layerLine j y with
    | some ly =>
      if (d.layer j).rowsFor = d.comingFrame o then (d.onLayer j (fun q => { q with rows := q.rows.filter (fun r => ly < r.line) })).lbAsk j else d
    | none => d) d

/-- A line goes to the link. In self-refresh it is kept instead, and the frame that ended it is sent in full in the period after it (R267). -/
def Dev.sendLine (d : Dev) (po y : Nat) (words : List Word) : Dev :=
  if d.bit (Reg.OUT_SR_ACTIVE.at [po]) then d.onOut po (fun q => { q with sent := [], late := Tab.put [] q.late y words })
  else d.onOut po (fun q => { q with sent := if q.resend then Tab.get [] q.late y else words })

/-- Composes active line `y` and sends it on: signatures, write-back, compensation, self-refresh, wear (R279 to R304, R437, R439). -/
def Dev.composeLine (d : Dev) (o y : Nat) : Dev :=
  let layers := (d.stacking o).filterMap (fun j =>
    match (d.layer j).takes.find? (fun t => t.1 = y), d.layerLine j y with
    | some t, some ly => some (j, ly, t.2)
    | _, _ => none)
  let row := (List.range (d.rasterWidth o)).map (fun x => d.composePixel o x y layers)
  let bad := (row.flatMap Composed.bad).foldl (fun (l : List Nat) w => if l.contains w then l else l ++ [w]) []
  let d := bad.foldl (fun d w => d.storeWord o w) d
  let d := d.writeBack o y (row.map (fun c => if d.bit (Reg.CMP_WB_TAP.at [o]) then c.px else c.raw))
  let d := d.freeRows o y
  (d.liveOuts o).foldl (fun d po =>
    let half := if d.split then (row.drop (po * d.hactive 0)).take (d.hactive 0) else row
    let d := d.signLine po y half
    let px := (List.zip (List.range half.length) half).map (fun e => d.compensate po e.1 y e.2.px)
    let words := px.map Px.word
    let d := (d.refreshLine po y words).wearLine po y px
    d.sendLine po y words) d

/-- One line of a slew: at most floor(HTOTAL / 1,000) pixels, and no slew below 1 pixel (R254). -/
def Dev.slewLine (d : Dev) (o : Nat) : Dev :=
  let s := (d.out o).slew
  if s = 0 then d
  else
    let m : Nat := (if (d.out o).inBlank.isSome then (d.out o).blankHt else d.rd (Reg.OUT_HTOTAL.at [o])) / 1000 * 16
    let left := s.natAbs - min m s.natAbs
    d.onOut o (fun q => { q with slew := if left < 16 then 0 else if s < 0 then -(left : Int) else (left : Int) })

/-- Line 0 after a short or long frame: the rest of the correction is slewed (R253, R255), unless a commit into INTERNAL came between (R256). -/
def Dev.afterJump (d : Dev) (o : Nat) : Dev :=
  match (d.out o).jump with
  | some j =>
    if 2 ≤ (d.out o).jumpSeen then
      let d := d.onOut o (fun q => { q with jump := none, jumpSeen := 0, slew := j.rest })
      if d.rd (Reg.OUT_GL_STATE.at [o]) = 2 then d.wr (Reg.OUT_GL_STATE.at [o]) 3 else d
    else d
  | none => d

/-- Line 0 of the wide raster: a right half that waits for it starts (R259). -/
def Dev.startHalf (d : Dev) (o : Nat) : Dev :=
  if o = 0 && d.split && (d.out 1).waitHalf then
    ((d.set (Reg.OUT_RUNNING.at [1]) true).wr (Reg.OUT_FRAME.at [1]) (d.outFrame 0)).onOut 1 (fun q => { q with waitHalf := false, wraps := (d.out 0).wraps })
  else d

/-- LINE_START (R240, R253, R254, R269, R277 to R304, R322, R439): the next line of the raster; an active line only once it is decided. -/
def execLineStart (o : Fin 2) (s : State) : Host.Outcome State Fault Refusal :=
  s.act (fun d =>
    let q := d.out o
    if !d.outRuns o || (d.split && o = 1) then d
    else
      let d := d.endOwnership
      let active (d : Dev) (y : Nat) : Dev :=
        if q.decFrame < d.comingFrame o || (q.decFrame = d.comingFrame o && q.decided ≤ y) then d
        else
          let d := if y = 0 then (d.afterJump o).startHalf o else d.endLine o (y - 1)
          let d := (d.liveOuts o).foldl (fun d p => d.wr (Reg.OUT_LINE.at [p]) y) d
          ((d.onOut o (fun q => { q with inBlank := none })).composeLine o y).slewLine o |>.auxpCatchUp
      match q.inBlank with
      | some k =>
        if k + 1 < q.blank then
          let d := (d.liveOuts o).foldl (fun d p => d.wr (Reg.OUT_LINE.at [p]) (d.rd (Reg.OUT_LINE.at [p]) + 1)) d
          ((d.onOut o (fun q => { q with inBlank := some (k + 1) })).slewLine o).auxpCatchUp
        else active d 0
      | none =>
        let y := d.rd (Reg.OUT_LINE.at [o.val]) + 1
        if y < d.vactive o then active d y else d)

/-! ### Flips (R289 to R292) -/

/-- A layer is ready: it holds a pending flip whose fence is met. -/
def Layer.ready (q : Layer) : Bool :=
  match q.pend with
  | some f => !f.fenceEn || q.fence = 2
  | none => false

/-- Members of a flip group on the raster of `o`. -/
def Dev.flipGroup (d : Dev) (o g : Nat) : List Nat :=
  (d.rasterLayers o).filter (fun j => d.rd (Reg.LAY_KIND.at [j]) = 1 && d.rd (Reg.LAY_GROUP.at [j]) = g)

/-- Layer `j` takes its flip (R292). -/
def Dev.takeFlip (d : Dev) (j : Nat) (f : Flip) : Dev :=
  let d := ((d.wr (Reg.LAY_FRONT_ADDR_LO.at [j]) f.addr).wr (Reg.LAY_FRONT_ADDR_HI.at [j]) (f.addr / 2 ^ 32)).wr (Reg.LAY_FRONT_SEQ.at [j]) f.seq
  let d := (d.inc (Reg.LAY_FLIPS.at [j])).set (Reg.LAY_PENDING.at [j]) false
  d.onLayer j (fun q => { q with frontPitch := f.pitch, pend := none, took := true })

/-- The decision for all layers of a raster, after which the read engines start on the coming frame (R261, R290, R291). -/
def Dev.decideFlips (d : Dev) (o : Nat) : Dev :=
  let js := d.rasterLayers o
  let go := js.filter (fun j =>
    let g := d.rd (Reg.LAY_GROUP.at [j])
    d.rd (Reg.LAY_KIND.at [j]) = 1 && (if g = 0 then (d.layer j).ready else (d.flipGroup o g).all (fun i => (d.layer i).ready)))
  let coming := d.comingFrame o
  js.foldl (fun d j =>
    let q := d.layer j
    let d := match q.pend with
      | none => d.onLayer j (fun q => { q with took := false })
      | some f =>
        let d := d.set (Reg.LAY_FENCE_MET.at [j]) (!f.fenceEn || q.fence = 2)
        if go.contains j then d.takeFlip j f
        else
          let d := d.onLayer j (fun q => { q with took := false })
          if d.rd (Reg.LAY_GROUP.at [j]) = 0 then d else d.inc (Reg.LAY_HELD.at [j])
    let d := d.onLayer j (fun q => { q with fence := 0 })
    if (d.layer j).took || (d.layer j).rowsFor != coming then d.lbRestart j coming else d) d
    |> fun d => js.foldl Dev.lbAsk d

/-- After a boundary's commits: fence reads start, deadline-critical and due at 20 µs (R26; log 71), or the decision is made at once (R290). -/
def Dev.startFences (d : Dev) (o : Nat) : Dev :=
  let d := (d.rasterLayers o).foldl (fun d j =>
    let want := match (d.layer j).pend with
      | some f => f.fenceEn
      | none => false
    let d := d.onLayer j (fun q => { q with fence := if want then 1 else 0 })
    match (if want then (d.layer j).pend else none) with
    | some f => d.askReads (fenceMaster j) (ofSigned 32 ((d.time : Int) + 20000)) true f.fenceAddr 8
    | none => d) d
  if d.fencesOut o then d else d.decideFlips o

/-- FENCE_READ_RETURN (R290): met when the word is at least FENCE_VAL; poisoned data counts as not met. -/
def execFenceReadReturn (j : Fin 16) (s : State) : Host.Outcome State Fault Refusal :=
  s.act (fun d =>
    let q := d.layer j
    let o := d.rasterOf j
    match q.pend with
    | some f =>
      if q.fence != 1 || d.asking (fenceMaster j) then d
      else
        let c := d.ddrCheck f.fenceAddr 8 1 o
        let d := if c.1.isEmpty then c.2 else (c.2.inc (Reg.LAY_FENCE_TIMEOUT.at [j.val])).raiseSecond 0x0410 1 o o [j]
        let met := c.1.isEmpty && f.fenceVal ≤ d.readLe f.fenceAddr 8
        let d := d.onLayer j (fun q => { q with fence := if met then 2 else 3 })
        if d.fencesOut o then d else d.decideFlips o
    | none => d)

/-- FENCE_TIMEOUT (R290): the reads still out 20 µs after the boundary count as not met, and the decisions are made. -/
def execFenceTimeout (o : Fin 2) (s : State) : Host.Outcome State Fault Refusal :=
  s.act (fun d =>
    if !d.fencesOut o || (d.split && o = 1) then d
    else
      let d := (d.rasterLayers o).foldl (fun d j =>
        if (d.layer j).fence = 1 then
          (((d.withdraw (fenceMaster j)).inc (Reg.LAY_FENCE_TIMEOUT.at [j])).raiseSecond 0x0410 1 o o [j]).onLayer j (fun q => { q with fence := 3 })
        else d) d
      d.decideFlips o)

/-! ### Write-back frames (R293) -/

/-- WB_FRAME_DONE (R293): the last write of a frame is complete, its granules being in the write queues (R171), and its buffer passes to the host. -/
def execWbFrameDone (o : Fin 2) (s : State) : Host.Outcome State Fault Refusal :=
  s.act (fun d =>
    match (d.out o).wbWait.filter WbFrame.whole with
    | [] => d
    | f :: _ =>
      if (d.wbQueued o).any f.holds then d
      else
        let d := d.onOut o (fun q => { q with wbWait := q.wbWait.erase f })
        ((d.setBit (Reg.CMP_WB_OWN.at [o.val]) f.buf true).wr (Reg.CMP_WB_LAST.at [o.val]) f.buf).wr (Reg.CMP_WB_FRAME.at [o.val]) f.frame)

/-- WB_OWN (R293): the host returns buffers to the device. -/
def execWbOwn (o : Fin 2) (mask : BitVec 4) (s : State) : Host.Outcome State Fault Refusal :=
  s.actHost (fun d => upTo 4 (fun i d => if mask.getLsbD i then d.setBit (Reg.CMP_WB_OWN.at [o.val]) i false else d) d)

/-! ### What the output does with a frame that has ended -/

/-- Whether the Watchlight source of a region was live in a frame (R303). -/
def Dev.wlLive (d : Dev) (src frame : Nat) : Bool :=
  if 16 ≤ src then false
  else if d.rd (Reg.LAY_KIND.at [src]) = 2 then
    match d.pipeOfLayer src with
    | some r => (d.pipe r.pipe).fresh.contains frame
    | none => false
  else (d.layer src).took

/-- SIG of a region is updated for the frame that ended, compared with EXPECT, and Watchlight takes it in (R301 to R304). -/
def Dev.endRegion (d : Dev) (po r frame : Nat) : Dev :=
  if !d.bit (Reg.WL_EN.at [po, r]) then d
  else
    let old := d.rd (Reg.WL_SIG.at [po, r])
    let sig := (Tab.get 0 (d.out po).sigs r).toNat
    let d := (d.wr (Reg.WL_SIG.at [po, r]) sig).onOut po (fun q => { q with sigFrame := Tab.put 0 q.sigFrame r frame })
    let d := if (d.out po).sigHeld.contains r then d else d.wr (Reg.WL_SIG_FRAME.at [po, r]) frame
    let d :=
      if !(d.lan (Reg.LAN_CHECK_EN.at [po])).testBit r then d
      else
        let q := d.out po
        if sig != d.lan (Reg.LAN_EXPECT.at [po, r]) then
          let d := (d.set (Reg.WL_MISMATCH.at [po, r]) true).inc (Reg.WL_MISMATCH_CNT.at [po, r])
          if !q.told.contains r || q.cleared.contains r then
            (d.onOut po (fun q => { q with told := q.told.filter (· != r) ++ [r], cleared := q.cleared.filter (· != r) })).raise 0x0430 1 po [r]
          else d
        else
          let d := d.set (Reg.WL_MISMATCH.at [po, r]) false
          if q.told.contains r then
            (d.onOut po (fun q => { q with told := q.told.filter (· != r), cleared := q.cleared.filter (· != r) })).raise 0x0431 1 po [r]
          else d
    let src := d.rd (Reg.WL_SRC.at [po, r])
    if !d.bit (Reg.WL_WL_EN.at [po, r]) || src = 31 then d
    else if sig != old then
      let was := d.bit (Reg.WL_FROZEN.at [po, r])
      let d := (d.wr (Reg.WL_COUNT.at [po, r]) 0).set (Reg.WL_FROZEN.at [po, r]) false
      if was then d.raise 0x0441 1 po [r] else d
    else if d.wlLive src frame then
      let d := d.incSat (Reg.WL_COUNT.at [po, r])
      if d.rd (Reg.WL_WL_FRAMES.at [po, r]) ≤ d.rd (Reg.WL_COUNT.at [po, r]) && !d.bit (Reg.WL_FROZEN.at [po, r]) then
        let d := ((d.set (Reg.WL_FROZEN.at [po, r]) true).inc (Reg.WL_FREEZES.at [po, r])).raise 0x0440 1 po [r]
        if d.bit (Reg.WL_ACT_GUARD.at [po, r]) then d.set (Reg.WL_GFORCED.at [po, r]) true else d
      else d
    else d

/-- Self-refresh at the end of a frame (R267): the CRCs kept are those of the last frame sent, which is the one held over after an exit. -/
def Dev.endRefresh (d : Dev) (po : Nat) : Dev :=
  let next (d : Dev) (same : Nat) : Dev := d.onOut po (fun q =>
    { q with sentCrc := if q.resend then q.sentCrc else q.nowCrc, nowCrc := [], differed := false, same := same, late := [], resend := false })
  if !d.bit (Reg.OUT_SR_EN.at [po]) then next d 0
  else
    let q := d.out po
    if d.bit (Reg.OUT_SR_ACTIVE.at [po]) then
      if q.differed then
        let held := q.late
        ((next (d.set (Reg.OUT_SR_ACTIVE.at [po]) false) 0).onOut po (fun q => { q with late := held, resend := true })).raise 0x0341 1 po
      else d.onOut po (fun q => { q with nowCrc := [], differed := false, late := [] })
    else if q.differed then next d 0
    else
      let n := q.same + 1
      if max (d.rd (Reg.OUT_SR_ENTRY.at [po])) 1 ≤ n then
        ((next (d.set (Reg.OUT_SR_ACTIVE.at [po]) true) 0).inc (Reg.OUT_SR_ENTRIES.at [po])).raise 0x0340 1 po
      else next d n

/-- The write-back of the frame that ended is waited for, and the next buffer is chosen: in rotation after the last one used, skipping those the host
holds and those still being written (R293; log 37). -/
def Dev.nextBuffer (d : Dev) (o frame : Nat) (ended : Bool) : Dev :=
  let d := d.wbPrune o
  let d := match (d.out o).wb with
    | some f => if ended then d.onOut o (fun q => { q with wb := none, wbWait := q.wbWait ++ [{ f with frame := frame }] }) else d.onOut o (fun q => { q with wb := none })
    | none => d
  if !d.bit (Reg.CMP_WB_EN.at [o]) then d
  else
    let n := max (d.rd (Reg.CMP_WB_COUNT.at [o])) 1
    let busy := ((d.out o).wbWait.filter WbFrame.whole).map WbFrame.buf
    let last := busy.getLast?.getD (d.rd (Reg.CMP_WB_LAST.at [o]))
    match ((List.range n).map (fun k => (last + 1 + k) % n)).find? (fun i => !d.bitAt (Reg.CMP_WB_OWN.at [o]) i && !busy.contains i) with
    | some i => d.onOut o (fun q => { q with
        wb := some { buf := i, base := d.wbBase o i, size := d.rd (Reg.CMP_WB_PITCH.at [o]) * d.vactive o, pitch := d.rd (Reg.CMP_WB_PITCH.at [o]) } })
    | none => d.inc (Reg.CMP_WB_SKIPPED.at [o])

/-- The frame that ends at this boundary: its last line, signatures, self-refresh and zone means. -/
def Dev.endFrame (d : Dev) (o frame frameNs : Nat) : Dev :=
  let d := d.endLine o (d.vactive o - 1)
  (d.liveOuts o).foldl (fun d po =>
    let d := upTo 16 (fun r d => d.endRegion po r frame) d
    let d := d.onOut po (fun q => { q with sigs := [] })
    (d.endRefresh po).wearBoundary po frameNs) d

end Sys2Proof.Machine
end

