-- ==== Sys2Proof/Machine/Commit.lean ====
section
/-! DEFINITION. Commit domains, their checks, ARM and DISCARD (R235 to R239, R245, R250, R251, R258 to R260, R263 to R272, R277, R287, R291, R305, R334, R339, R397, R398, R409, R434, R443). -/

namespace Sys2Proof.Machine

/-! ### Domains (R235) -/

/-- Commit domain of an RWS field: 0 OUT0, 1 OUT1, 2 PIPE. -/
def domainOf (key : Nat) : Nat :=
  let a := key / 32
  let inside (lo n : Nat) : Bool := lo ≤ a && a < lo + n
  if inside 0x02000000 0x100000 then 0
  else if inside 0x02100000 0x200000 then 1
  else if inside 0x02400000 0x200 then (a - 0x02400000) / 0x100
  else if inside 0x02400400 0x800 then (a - 0x02400400) / 0x400
  else if inside 0x02600000 0x800 then (a - 0x02600000) / 0x400
  else if inside 0x02700000 0x400 then (a - 0x02700000) / 0x200
  else if inside 0x03000000 0x200 then (a - 0x03000000) / 0x100
  else if inside 0x03001000 0x1000 then (a - 0x03001000) / 0x800
  else 2

/-- The values of domain `m` become its shadows (R238). -/
def Dev.loadDomain (d : Dev) (m : Nat) : Dev := { d with live := Tab.replace (fun k => domainOf k = m) d.live d.shadow }

/-- The shadows of domain `m` become its live values (R237). -/
def Dev.reloadShadows (d : Dev) (m : Nat) : Dev := { d with shadow := Tab.replace (fun k => domainOf k = m) d.shadow d.live }

def Dev.armed (d : Dev) (m : Nat) : Bool := d.bitAt (Reg.TOP_ARMED.at []) m

/-- First failing code of a list of checks in ascending code order: 0, none fails. -/
def firstCode (l : List (Nat × Bool)) : Nat := ((l.find? (fun e => e.2)).map Prod.fst).getD 0

/-! ### Outputs (R272). Each check reads the configuration `c` as it would be after the commit, and the live one `d`. -/

def inRange (lo x hi : Nat) : Bool := lo ≤ x && x ≤ hi

/-- TIMING (R245). -/
def Dev.badTiming (c : Dev) (o : Nat) : Bool :=
  let v (f : RegDef) : Nat := c.rd (f.at [o])
  let ha := v Reg.OUT_HACTIVE
  let ht := v Reg.OUT_HTOTAL
  let va := v Reg.OUT_VACTIVE
  let vt := v Reg.OUT_VTOTAL
  let p := v Reg.OUT_PCLK_KHZ
  !(inRange 640 ha 7680 && ha % 4 = 0 && inRange (ha + 80) ht 16380 && ht % 4 = 0 &&
    v Reg.OUT_HFRONT % 4 = 0 && v Reg.OUT_HSYNC % 4 = 0 && 8 ≤ v Reg.OUT_HSYNC && v Reg.OUT_HFRONT + v Reg.OUT_HSYNC + 16 ≤ ht - ha &&
    inRange 480 va 4320 && inRange (va + 8) vt 8191 &&
    inRange 1 (v Reg.OUT_VSYNC) 63 && v Reg.OUT_VFRONT + v Reg.OUT_VSYNC + 2 ≤ vt - va &&
    inRange 25000 p 4320000 && p * 1000 ≤ 240 * (ht * vt))

/-- The AUXP raster (R268). -/
def Dev.badAuxpTiming (c : Dev) : Bool :=
  let v (f : RegDef) : Nat := c.rd (f.at [])
  !(inRange 1 (v Reg.AUXP_HACTIVE) 2560 && inRange 1 (v Reg.AUXP_VACTIVE) 1600 && v Reg.AUXP_HACTIVE ≤ v Reg.AUXP_HTOTAL &&
    v Reg.AUXP_VACTIVE ≤ v Reg.AUXP_VTOTAL && v Reg.AUXP_PCLK_KHZ ≤ 300000 &&
    v Reg.AUXP_PCLK_KHZ * 1000 ≤ 60 * (v Reg.AUXP_HTOTAL * v Reg.AUXP_VTOTAL))

/-- Lane rate of a DisplayPort or eDP RATE code, in 10 Mb/s (R274). -/
def laneRate (code : Nat) : Nat := [162, 270, 540, 810, 1000, 1350, 2000, 216, 243, 324, 432].getD code 0

/-- Lanes and lane rate of an FRL rate, in 10 Mb/s (R263). -/
def frlRate (code : Nat) : Nat × Nat := [(0, 0), (3, 300), (3, 600), (4, 600), (4, 800), (4, 1000), (4, 1200)].getD code (0, 0)

/-- Sixteenths of a bit per pixel that the link carries (R264). -/
def Dev.linkBits (c : Dev) (o : Nat) : Nat :=
  let b := c.rasterBase o
  let depth := if c.bit (Reg.OUT_BPC10.at [b]) then 10 else 8
  if c.bit (Reg.OUT_DSC_EN.at [o]) then c.rd (Reg.OUT_BPP16.at [o])
  else match c.rd (Reg.OUT_ENCODING.at [b]) with
    | 2 => 32 * depth
    | 3 => 24 * depth
    | _ => 48 * depth

/-- A link of `lanes` lanes at `rate` (10 Mb/s) with payload factor num/den carries the raster (R264). -/
def Dev.carries (c : Dev) (o lanes rate num den : Nat) : Bool :=
  let b := c.rasterBase o
  c.rd (Reg.OUT_PCLK_KHZ.at [b]) * c.hactive b * c.linkBits o * den ≤ lanes * rate * 10000 * num * c.rd (Reg.OUT_HTOTAL.at [b]) * 16

/-- The rate and lanes given pass R264 on the committed interface. -/
def Dev.linkFits (c : Dev) (o rate lanes : Nat) : Bool :=
  let b := c.rasterBase o
  match c.rd (Reg.OUT_IFACE.at [o]) with
  | 1 => let r := frlRate rate
         c.carries o r.1 r.2 16 18
  | 2 =>
    let depth := if c.bit (Reg.OUT_BPC10.at [b]) then 10 else 8
    let k := if c.rd (Reg.OUT_ENCODING.at [b]) = 3 then 16 else 8
    c.rd (Reg.OUT_PCLK_KHZ.at [b]) * depth ≤ 600000 * k
  | _ => if 4 ≤ rate && rate ≤ 6 then c.carries o lanes (laneRate rate) 9671 10000 else c.carries o lanes (laneRate rate) 8 10

/-- LINK_BW (R264). -/
def Dev.badLink (c : Dev) (o : Nat) : Bool :=
  c.bit (Reg.OUT_ENABLE.at [o]) && !c.linkFits o (c.rd (Reg.OUT_RATE.at [o])) (c.rd (Reg.OUT_LANES.at [o]))

/-- LINK_BW of AUXP (R268): in COMMAND mode the plane once per period. -/
def Dev.badAuxpLink (c : Dev) : Bool :=
  let v (f : RegDef) : Nat := c.rd (f.at [])
  let bpp := if v Reg.AUXP_PIXFMT = 0 then 24 else if v Reg.AUXP_PIXFMT = 1 then 30 else 16
  let mbps := (v Reg.AUXP_LANES + 1) * v Reg.AUXP_LANE_MBPS
  v Reg.AUXP_ENABLE != 0 &&
  !(inRange 80 (v Reg.AUXP_LANE_MBPS) 2500 &&
    (if v Reg.AUXP_MODE = 1 then v Reg.AUXP_HACTIVE * v Reg.AUXP_VACTIVE * bpp ≤ mbps * v Reg.AUXP_PERIOD_US
     else v Reg.AUXP_PCLK_KHZ * v Reg.AUXP_HACTIVE * bpp ≤ mbps * 1000 * v Reg.AUXP_HTOTAL))

/-- DSC_CFG (R265). -/
def Dev.badDsc (c : Dev) (o : Nat) : Bool :=
  let b := c.rasterBase o
  let v (f : RegDef) : Nat := c.rd (f.at [o])
  let s := v Reg.OUT_SLICES
  let enc := c.rd (Reg.OUT_ENCODING.at [b])
  let slow := v Reg.OUT_IFACE = 3 || (v Reg.OUT_IFACE = 0 && !inRange 4 (v Reg.OUT_RATE) 6)
  v Reg.OUT_ENABLE != 0 && v Reg.OUT_DSC_EN != 0 &&
  !(s % 2 = 0 && inRange 2 s 16 && c.hactive b % s = 0 && inRange 64 (c.hactive b / s) 2560 &&
    v Reg.OUT_SLICE_H != 0 && c.vactive b % v Reg.OUT_SLICE_H = 0 && v Reg.OUT_IFACE != 2 &&
    (enc ≤ 1 || v Reg.OUT_NATIVE != 0) && inRange 128 (v Reg.OUT_BPP16) 256 && (!slow || v Reg.OUT_FEC_EN != 0))

/-- Rates and lanes that an interface supports (R263, R274). -/
def linkCombo (iface rate lanes : Nat) : Bool :=
  match iface with
  | 0 => rate ≤ 6 && [1, 2, 4].contains lanes
  | 1 => inRange 1 rate 6
  | 2 => true
  | 3 => (rate ≤ 3 || inRange 7 rate 10) && [1, 2, 4].contains lanes
  | _ => false

/-- MODE (R250, R263, R274). -/
def Dev.badMode (c : Dev) (o : Nat) : Bool :=
  let v (f : RegDef) : Nat := c.rd (f.at [o])
  let link := linkCombo (v Reg.OUT_IFACE) (v Reg.OUT_RATE) (v Reg.OUT_LANES)
  v Reg.OUT_MODE % 2 = 1 || !inRange 1 (v Reg.OUT_REF_MULT) 5 || v Reg.OUT_COLORIMETRY = 3 || v Reg.OUT_EOTF = 3 || !link

/-- Reserved codes of AUXP (R275). -/
def Dev.badAuxpMode (c : Dev) : Bool :=
  2 ≤ c.rd (Reg.AUXP_MODE.at []) || c.rd (Reg.AUXP_VIDMODE.at []) = 3 || c.rd (Reg.AUXP_PIXFMT.at []) = 3 ||
  c.rd (Reg.AUXP_TE_SRC.at []) = 3 || 5 ≤ c.rd (Reg.AUXP_SRC_FMT.at [])

/-- REF_CONFLICT (R251). -/
def Dev.badRef (c : Dev) : Bool :=
  (List.range 2).all (fun o => c.rd (Reg.OUT_MODE.at [o]) = 2 && c.rd (Reg.OUT_REF_SRC.at [o]) = 0) &&
  c.rd (Reg.OUT_REF_TRI.at [0]) != c.rd (Reg.OUT_REF_TRI.at [1])

/-- Bytes of the region of layer `j`'s line buffer, and its place in the pool (R260). -/
def Dev.lbRegion (c : Dev) (j : Nat) : Nat × Nat :=
  let row := (c.rd (Reg.LAY_W.at [j]) * memBytes (c.rd (Reg.LAY_FMT.at [j])) + 255) / 256 * 256
  (c.rd (Reg.OUT_LB_BASE.at (lbIx j)) * 4096, c.rd (Reg.OUT_LB_LINES.at (lbIx j)) * row)

/-- LB_POOL (R260). -/
def Dev.badPool (c : Dev) (o : Nat) : Bool :=
  let js := ((List.range 8).map (fun i => 8 * o + i)).filter (fun j => c.rd (Reg.LAY_KIND.at [j]) = 1)
  js.any (fun j =>
    let a := c.lbRegion j
    2097152 < a.1 + a.2 || js.any (fun i =>
      let b := c.lbRegion i
      i != j && a.1 < b.1 + b.2 && b.1 < a.1 + a.2))

/-- LB_WATERMARK (R260). -/
def Dev.badWatermark (c : Dev) (o : Nat) : Bool :=
  (List.range 8).any (fun i => c.rd (Reg.OUT_LB_LINES.at [o, i]) < 4 || c.rd (Reg.OUT_LB_LINES.at [o, i]) ≤ c.rd (Reg.OUT_LB_LWM.at [o, i]))

/-- Block code of output `o` (R272): 0 when every rule holds. -/
def Dev.outCode (d c : Dev) (o : Nat) : Nat :=
  let ignored := c.split && o = 1
  firstCode [(1, !ignored && c.badTiming o), (2, c.badLink o), (3, c.badDsc o), (4, c.badMode o),
    (7, c.split && (List.range 2).any (fun x => c.rd (Reg.OUT_IFACE.at [x]) = 3 || c.bit (Reg.OUT_SR_EN.at [x]))),
    (8, c.split != d.split && d.bit (Reg.OUT_ENABLE.at [1])),
    (9, !c.split && c.badRef),
    (10, c.bit (Reg.OUT_SR_EN.at [o]) && (c.rd (Reg.OUT_IFACE.at [o]) != 3 || c.rd (Reg.OUT_MODE.at [o]) = 2)),
    (11, c.badPool o), (12, c.badWatermark o), (13, !ignored && !inRange 4 (c.rd (Reg.OUT_GUARD_LINES.at [o])) 32)]

/-- Block code of AUXP (R272). -/
def Dev.auxpCode (d c : Dev) : Nat :=
  let m (x : Dev) : Bool := x.rd (Reg.AUXP_MODE.at []) = 1
  firstCode [(1, c.badAuxpTiming), (2, c.badAuxpLink), (4, c.badAuxpMode),
    (5, m c != m d && (d.bit (Reg.AUXP_ENABLE.at []) || c.bit (Reg.AUXP_ENABLE.at []))),
    (6, m c && c.split)]

/-! ### Composition (R305) -/

/-- A layer of the raster of output `o` in configuration `c`. -/
def Dev.onRaster (c : Dev) (o j : Nat) : Bool := if c.split then j < 16 else j / 8 = o && j < 16

def Dev.badFlipGroup (c : Dev) (j : Nat) : Bool :=
  let k := c.rd (Reg.LAY_KIND.at [j])
  let g := c.rd (Reg.LAY_GROUP.at [j])
  9 ≤ g || (k = 2 && g != 0) ||
  (k = 1 && g != 0 && !c.split && (List.range 16).any (fun i => i / 8 != j / 8 && c.rd (Reg.LAY_KIND.at [i]) = 1 && c.rd (Reg.LAY_GROUP.at [i]) = g))

def Dev.badGeometry (c : Dev) (j : Nat) : Bool :=
  let v (f : RegDef) : Nat := c.rd (f.at [j])
  let k := v Reg.LAY_KIND
  k = 3 || (k != 0 && (v Reg.LAY_W = 0 || v Reg.LAY_H = 0)) || (k = 2 && 7680 < v Reg.LAY_W) ||
  v Reg.LAY_ADDR_LO % 256 != 0 || v Reg.LAY_PITCH % 256 != 0 ||
  (k = 1 && v Reg.LAY_PITCH < v Reg.LAY_W * memBytes (v Reg.LAY_FMT))

def Dev.badGuardCfg (c : Dev) (j : Nat) : Bool :=
  let v (f : RegDef) : Nat := c.rd (f.at [j])
  v Reg.LAY_KIND = 2 && (v Reg.GP_SRC_W = 0 || v Reg.GP_SRC_H = 0 ||
    match c.pipeOfLayer j with
    | some r => r.stream != v Reg.GP_STREAM
    | none => false)

def Dev.badWb (c : Dev) (o : Nat) : Bool :=
  let v (f : RegDef) : Nat := c.rd (f.at [o])
  !inRange 1 (v Reg.CMP_WB_COUNT) 4 || v Reg.CMP_WB_BASE_LO % 256 != 0 || v Reg.CMP_WB_STRIDE % 256 != 0 || v Reg.CMP_WB_PITCH % 256 != 0 ||
  (v Reg.CMP_WB_EN != 0 && !(c.split && o = 1) && v Reg.CMP_WB_PITCH < 4 * c.rasterWidth o)

def Dev.badRegion (c : Dev) (o r : Nat) : Bool :=
  let v (f : RegDef) : Nat := c.rd (f.at [o, r])
  let b := c.rasterBase o
  (v Reg.WL_EN != 0 && (v Reg.WL_W = 0 || v Reg.WL_H = 0 || c.hactive b < v Reg.WL_X + v Reg.WL_W || c.vactive b < v Reg.WL_Y + v Reg.WL_H)) ||
  (v Reg.WL_SRC != 31 && !c.onRaster o (v Reg.WL_SRC)) || v Reg.WL_WL_FRAMES = 0 ||
  (v Reg.WL_ACT_GUARD != 0 && !(c.onRaster o (v Reg.WL_GLAYER) && c.rd (Reg.LAY_KIND.at [v Reg.WL_GLAYER]) = 2))

/-- A Watchlight region of output `o` breaks its rule (R305). -/
def Dev.regionCode (c : Dev) (o : Nat) : Nat := firstCode [(8, (List.range 16).any (c.badRegion o))]

/-- Block code of the CMP, GP and WL fields of output `o` (R305). -/
def Dev.cmpCode (c : Dev) (o : Nat) : Nat :=
  let js := (List.range 8).map (fun i => 8 * o + i)
  let on (j : Nat) : Bool := c.rd (Reg.LAY_KIND.at [j]) != 0
  firstCode [
    (1, js.any (fun j => c.rd (Reg.LAY_KIND.at [j]) = 2 && (8192 < c.rd (Reg.GP_SRC_W.at [j]) || 2 * c.rd (Reg.LAY_H.at [j]) < c.rd (Reg.GP_SRC_H.at [j])))),
    (2, js.any (fun j => js.any (fun i => i < j && on i && on j && c.rd (Reg.LAY_Z.at [i]) = c.rd (Reg.LAY_Z.at [j])))),
    (3, js.any c.badGeometry),
    (4, js.any (fun j => 5 ≤ c.rd (Reg.LAY_FMT.at [j]))),
    (5, js.any c.badFlipGroup),
    (6, js.any c.badGuardCfg),
    (7, c.badWb o),
    (8, (List.range 16).any (c.badRegion o))]

/-! ### Wear (R443) -/

def Dev.wearCode (c : Dev) (o : Nat) : Nat :=
  let ts := c.tiles o
  let v (f : RegDef) (t : Nat) : Nat := c.rd (f.at [o, t])
  let right (t : Nat) : Nat := v Reg.WEAR_TILE_ZX0 t + v Reg.WEAR_TILE_ZW t
  let bottom (t : Nat) : Nat := v Reg.WEAR_TILE_ZY0 t + v Reg.WEAR_TILE_ZH t
  let lin (k : Nat) : Nat := c.rd (Reg.WEAR_LIN.at [o, k])
  firstCode [
    (1, ts.any (fun t => 63 < right t || 35 < bottom t || ts.any (fun u => u < t && v Reg.WEAR_TILE_ZX0 u ≤ right t && v Reg.WEAR_TILE_ZX0 t ≤ right u &&
      v Reg.WEAR_TILE_ZY0 u ≤ bottom t && v Reg.WEAR_TILE_ZY0 t ≤ bottom u))),
    (2, (List.range 33).any (fun k => 65536 < lin k) || (List.range 32).any (fun k => lin (k + 1) < lin k))]

/-! ### Streams and inputs (R409) -/

def srcRowBytes (fmt w k : Nat) : Nat :=
  match fmt, k with
  | 0, 0 => 3 * w
  | 1, 0 => 4 * w
  | 2, 0 => 4 * w
  | 3, 0 => 2 * w
  | 6, _ => 2 * w
  | 7, _ => 2 * w
  | 8, 0 => w
  | 8, _ => w / 2
  | _, _ => w

/-- Planes of a source format (R397). -/
def planeCount (fmt : Nat) : Nat := if fmt ≤ 3 then 1 else if fmt ≤ 7 then 2 else 3

/-- Bytes that the planes of a frame cover (R398). -/
def Dev.frameBytes (c : Dev) (s : Nat) : Nat :=
  let fmt := c.rd (Reg.STR_FMT.at [s])
  let h := c.rd (Reg.STR_H.at [s])
  let hc := if chroma420 fmt then h / 2 else h
  c.rd (Reg.STR_PITCH0.at [s]) * h + (planeCount fmt - 1) * (c.rd (Reg.STR_PITCH1.at [s]) * hc)

def Dev.badStream (c : Dev) (s : Nat) : Bool :=
  let v (f : RegDef) : Nat := c.rd (f.at [s])
  let fmt := v Reg.STR_FMT
  v Reg.STR_SRC != 0 &&
  !(inRange 3 (v Reg.STR_NBUF) 8 && inRange 64 (v Reg.STR_W) 7680 && inRange 64 (v Reg.STR_H) 4320 && fmt ≤ 9 &&
    (!(fmt = 3 || chroma420 fmt || chroma422 fmt) || v Reg.STR_W % 2 = 0) && (!chroma420 fmt || v Reg.STR_H % 2 = 0) &&
    v Reg.STR_STRIDE % 4096 = 0 && v Reg.STR_PITCH0 % 256 = 0 && v Reg.STR_PITCH1 % 256 = 0 &&
    srcRowBytes fmt (v Reg.STR_W) 0 ≤ v Reg.STR_PITCH0 && (planeCount fmt = 1 || srcRowBytes fmt (v Reg.STR_W) 1 ≤ v Reg.STR_PITCH1) &&
    c.frameBytes s ≤ v Reg.STR_STRIDE)

/-- First byte and length of a stream's buffers. -/
def Dev.ifbRange (c : Dev) (s : Nat) : Nat × Nat := (c.bufBase s 0, c.rd (Reg.STR_NBUF.at [s]) * c.rd (Reg.STR_STRIDE.at [s]))

def overlap (a b : Nat × Nat) : Bool := a.1 < b.1 + b.2 && b.1 < a.1 + a.2

/-- Range of the active image (R234). -/
def Dev.activeImage (d : Dev) : Nat × Nat :=
  (d.rd (Reg.TOP_ACT_ADDR_LO.at []) + d.rd (Reg.TOP_ACT_ADDR_HI.at []) * 2 ^ 32, d.rd (Reg.TOP_ACT_LEN_LO.at []) + d.rd (Reg.TOP_ACT_LEN_HI.at []) * 2 ^ 32)

/-- Block code of the HST_STR and IN fields (R409). -/
def Dev.hostCode (c : Dev) : Nat :=
  let ss := (List.range 16).filter (fun s => c.rd (Reg.STR_SRC.at [s]) != 0)
  let src (s : Nat) : Nat := c.rd (Reg.STR_SRC.at [s])
  firstCode [
    (1, ss.any c.badStream),
    (2, ss.any (fun s => c.rd (Reg.DDR_CAP_GIB.at []) * 2 ^ 30 < (c.ifbRange s).1 + (c.ifbRange s).2 || overlap (c.ifbRange s) c.activeImage ||
      ss.any (fun t => t < s && overlap (c.ifbRange s) (c.ifbRange t)))),
    (3, ss.any (fun s =>
      (src s = 2 && (c.rd (Reg.STR_FMT.at [s]) != 2 || 3840 * 2160 < c.rd (Reg.STR_W.at [s]) * c.rd (Reg.STR_H.at [s]) ||
        ss.any (fun t => t < s && src t = 2 && c.rd (Reg.STR_PORT.at [t]) = c.rd (Reg.STR_PORT.at [s])))) ||
      (src s = 3 && !c.bit (Reg.BCN_MIR_RX.at [s])))),
    (4, (List.range 4).any (fun m => c.rd (Reg.IN_MAX_FRL.at [m]) = 7 || inRange 5 (c.rd (Reg.IN_MAX_DP.at [m])) 7))]

/-! ### Beacon (R334, R339) -/

/-- Beacon port of a REF_SRC value (R274): none for REF_IN. -/
def refPort (src : Nat) : Option Nat := if src = 1 then some 1 else if src = 2 then some 2 else if src = 3 then some 0 else none

/-- Block code of the Beacon fields (R323, R334, R339); OUT1's REF_SRC is ignored in split mode (R258). The partner's TX_SLOT_TXN is a free value for an enabled binding of a port that is up (log 156). -/
def Dev.bcnCode (d c : Dev) (host : Bool) : Nat :=
  let refs := (if c.split then [0] else [0, 1]).filterMap (fun o => refPort (c.rd (Reg.OUT_REF_SRC.at [o])))
  let alt := refPort (c.rd (Reg.BCN_TOK_ALT.at []))
  firstCode [
    (1, host && d.rd (Reg.BCN_ROLE.at []) = 3),
    (2, (List.range 3).any (fun p => 262144 < ((List.range 16).filter (fun q => c.bit (Reg.BCNQ_RX_EN.at [p, q]))).foldl
      (fun n q => n + c.rd (Reg.BCNQ_STAGE_SLOTS.at [p, q]) * c.rd (Reg.BCNQ_RX_SLOT_TXN.at [p, q]) * 512) 0 ||
      (List.range 16).any (fun q => c.bit (Reg.BCNQ_RX_EN.at [p, q]) && d.bit (Reg.BCNP_UP.at [p]) &&
        c.rd (Reg.BCNQ_RX_SLOT_TXN.at [p, q]) != Config.partnerSlotTxn d.time p q % 2 ^ 13))),
    (3, c.rd (Reg.BCN_PAIRS.at []) < c.rd (Reg.BCN_POS.at []) ||
      (match alt with
       | some p => refs.contains p
       | none => false) ||
      (List.range 3).any (fun p => (List.range 16).any (fun q => 7 < q && c.bit (Reg.BCNQ_RELAY.at [p, q]))) ||
      (c.bit (Reg.BCN_TOK_MASTER.at []) && refs.any (fun p => p != 0)))]

/-! ### ARM and DISCARD (R237) -/

/-- What a check of a set of domains found: TOP code, detail, and the ERR_CODE fields to write. -/
structure Verdict where
  code : Nat := 0
  detail : Nat := 0
  errs : List (Fld × Nat) := []
  deriving DecidableEq, Repr

/-- Timing of the wide raster (R239, R258). -/
def timingRegs : List RegDef :=
  [Reg.OUT_HACTIVE, Reg.OUT_HTOTAL, Reg.OUT_HFRONT, Reg.OUT_HSYNC, Reg.OUT_VACTIVE, Reg.OUT_VTOTAL, Reg.OUT_VFRONT, Reg.OUT_VSYNC, Reg.OUT_PCLK_KHZ]

/-- Checks the domains of one write together (R237, R239). In split mode a commit of OUT0 is checked against both halves (R258, R265), and one of either output
against the regions of both, which may name a layer whose KIND it changes (R304). The restored commit of OUT0 and OUT1 alone has its guard margins
(R243; DEDUCED, log 154): the rule gives the PIPE pairs to the first image. -/
def Dev.checkCommit (d : Dev) (ms : List Nat) (host : Bool) : Verdict :=
  let c := ms.foldl (fun c m => c.loadDomain m) d
  let guard := host && (List.range 2).any (fun o => ms.contains o && !ms.contains 2 && c.rd (Reg.OUT_GUARD_LINES.at [o]) != d.rd (Reg.OUT_GUARD_LINES.at [o]))
  let unpaired := ms.contains 0 && !ms.contains 1 && c.split != d.split
  let wide := d.split && c.split && ms.contains 0 && !ms.contains 1 && timingRegs.any (fun r => c.rd (r.at [0]) != d.rd (r.at [0]))
  if guard then { code := 1, detail := 2 }
  else if unpaired then { code := 2 }
  else if wide then { code := 1, detail := 3 }
  else
    let blocks : List (Nat × Nat × Fld) :=
      (if ms.contains 2 then [(0x0200, c.hostCode, Reg.HST_ERR_CODE.at [])] else []) ++
      (List.range 2).flatMap (fun o => if ms.contains o || (c.split && ms.contains 0) then [(0x0300, d.outCode c o, Reg.OUT_ERR_CODE.at [o])] else []) ++
      (if ms.contains 1 then [(0x0300, d.auxpCode c, Reg.AUXP_ERR_CODE.at [])] else []) ++
      (List.range 2).flatMap (fun o =>
        if ms.contains o then [(0x0400, c.cmpCode o, Reg.CMP_ERR_CODE.at [o])]
        else if c.split && ms.contains (1 - o) then [(0x0400, c.regionCode o, Reg.CMP_ERR_CODE.at [o])] else []) ++
      [(0x0500, d.bcnCode c host, Reg.TOP_ERR_CODE.at [])] ++
      (List.range 2).flatMap (fun o => if ms.contains o then [(0x0C00, c.wearCode o, Reg.WEAR_ERR_CODE.at [o])] else [])
    let bad := blocks.filter (fun b => b.2.1 != 0)
    match bad with
    | [] => {}
    | b :: _ => { code := 3, detail := b.1 + b.2.1, errs := (bad.filter (fun e => e.1 != 0x0500)).map (fun e => (e.2.2, e.2.1)) }

/-- Bits of a list of domains. -/
def domainBits (ms : List Nat) : Nat := ms.foldl (fun n m => n + 2 ^ m) 0

/-- A rejection is reported (R237). -/
def Dev.reject (d : Dev) (ms : List Nat) (v : Verdict) : Dev :=
  let d := ms.foldl (fun d m => d.setBit (Reg.TOP_REJECT.at []) m true) d
  let d := v.errs.foldl (fun d e => d.wr e.1 e.2) d
  let d := ((d.wr (Reg.TOP_ERR_CODE.at []) v.code).wr (Reg.TOP_ERR_DETAIL.at []) v.detail).wr (Reg.TOP_ERR_DOMAINS.at []) (domainBits ms)
  d.raise 0x0901 8 0 [v.code, v.detail, domainBits ms]

/-- One write to TOP_COMMIT (R237): DISCARD bits first, then the ARM bits, checked together. -/
def Dev.writeCommit (d : Dev) (v : Nat) : Dev :=
  let d := upTo 3 (fun m d => if v.testBit (4 + m) && !d.armed m then d.reloadShadows m else d) d
  let ms := (List.range 3).filter (fun m => v.testBit m)
  if ms.isEmpty then d
  else
    let r := d.checkCommit ms true
    if r.code != 0 then d.reject ms r
    else
      let lateTold := d.lateTold.filter (fun m => !ms.contains m || d.armed m)
      let d := ms.foldl (fun d m => d.setBit (Reg.TOP_ARMED.at []) m true) d
      { d with lateTold := lateTold }

/-- ARM_OUT0, ARM_OUT1, ARM_PIPE, DISCARD (R237): a write to TOP_COMMIT whose bit of that name is 1. -/
def execArmOut0 (v : Word) (s : State) : Host.Outcome State Fault Refusal :=
  s.actIf (Instr.wf (.armOut0 v)) (fun d => d.writeCommit v.toNat)

def execArmOut1 (v : Word) (s : State) : Host.Outcome State Fault Refusal :=
  s.actIf (Instr.wf (.armOut1 v)) (fun d => d.writeCommit v.toNat)

def execArmPipe (v : Word) (s : State) : Host.Outcome State Fault Refusal :=
  s.actIf (Instr.wf (.armPipe v)) (fun d => d.writeCommit v.toNat)

def execDiscard (v : Word) (s : State) : Host.Outcome State Fault Refusal :=
  s.actIf (Instr.wf (.discard v)) (fun d => d.writeCommit v.toNat)

end Sys2Proof.Machine
end

