-- ==== Sys2Proof/Machine/Lantern.lean ====
section
/-! DEFINITION. The Lantern window, its store, its copy engine and APPLY (R240, R295 to R300, R309). -/

namespace Sys2Proof.Machine

def lanClosed : Nat := 0
def lanOpen : Nat := 1
def lanLockout : Nat := 2
def lanStoreSize : Nat := 0x1000000

def Dev.lanState (d : Dev) : Nat := d.rd (Reg.LAN_STATE.at [])
def Dev.onLantern (d : Dev) (f : Lantern → Lantern) : Dev := { d with lantern := f d.lantern }

/-- A write while the window is not OPEN is ignored and reported at most once per second (R297). -/
def Dev.lanIgnored (d : Dev) : Dev := d.raiseSecond 0x0423 8 0 0

/-- What only an OPEN window accepts. -/
def Dev.ifOpen (d : Dev) (f : Dev → Dev) : Dev := if d.lanState = lanOpen then f d else d.lanIgnored

/-! ### The store (R296, R298, R299) -/

/-- Byte `a` of the store lies in a rectangle of `h` rows of `w` bytes. -/
def inRect (a base pitch w h : Nat) : Bool := base ≤ a && (a - base) / pitch < h && (a - base) % pitch < w

/-- Output `o` scans an active line that reads a rectangle with byte `a` (R299). -/
def Dev.lanScans (d : Dev) (o a : Nat) : Bool :=
  let v (f : RegDef) : Nat := d.lan (f.at [o])
  let y := d.rd (Reg.OUT_LINE.at [o])
  let bpp := lanBytes (v Reg.LAN_FMT)
  let k := if v Reg.LAN_SCALE2 = 1 then 2 else 1
  d.outRuns o && !(d.split && o = 1) && (d.out o).inBlank.isNone && d.bit (Reg.CMP_STARTED.at [o]) &&
  ((v Reg.LAN_EN != 0 && v Reg.LAN_Y ≤ y && y < v Reg.LAN_Y + k * v Reg.LAN_H && inRect a (v Reg.LAN_BASE) (v Reg.LAN_PITCH) (v Reg.LAN_W * bpp) (v Reg.LAN_H)) ||
   (d.indicatorOn o && v Reg.LAN_IND_Y ≤ y && y < v Reg.LAN_IND_Y + v Reg.LAN_IND_H &&
     inRect a (v Reg.LAN_IND_BASE) ((v Reg.LAN_IND_W * bpp + 255) / 256 * 256) (v Reg.LAN_IND_W * bpp) (v Reg.LAN_IND_H)))

/-- A write of `n` bytes at store offset `off` is held. -/
def Dev.lanHeld (d : Dev) (off n : Nat) : Bool := (List.range 2).any (fun o => (List.range n).any (fun i => d.lanScans o (off + i)))

/-- Bytes land in the store: a word written whole, or with a single-bit error, is sound afterwards, and an uncorrectable word that was copied is one here too (R190). -/
def Dev.lanWrite (d : Dev) (off : Nat) (data : Bytes) (bad : List Nat) : Dev :=
  let a := lanternBase + off
  let d := d.setBytes a data
  if d.ecc.isEmpty && bad.isEmpty then d
  else (wordsOf a data.length).foldl (fun d w =>
    if bad.any (fun i => w ≤ a + i && a + i < w + 8) then { d with ecc := Tab.put 0 d.ecc (w / 8) 2 }
    else if (a ≤ w && w + 8 ≤ a + data.length) || Tab.get 0 d.ecc (w / 8) = 1 then { d with ecc := Tab.put 0 d.ecc (w / 8) 0 } else d) d

/-- A copy whose blocks have all landed is over (R298). -/
def Dev.endCopy (d : Dev) : Dev :=
  if d.lantern.copyRead && !d.lantern.queue.any LanWrite.copied then
    (d.onLantern (fun l => { l with copy := none, copyRead := false })).wr (Reg.LAN_CSTATE.at []) 2
  else d

/-- The writes that are not held land, and those that are keep their order (R299, R473). -/
def Dev.lanPump (d : Dev) (l : List LanWrite) : Dev :=
  let held (w : LanWrite) : Bool := d.lanHeld w.off w.data.length
  (((l.filter (fun w => !held w)).foldl (fun d w => d.lanWrite w.off w.data w.bad) d).onLantern (fun q => { q with queue := l.filter held })).endCopy

/-- A store write, behind those that wait. -/
def Dev.lanStore (d : Dev) (w : LanWrite) : Dev := d.lanPump (d.lantern.queue ++ [w])

/-- LAN_HELD_WRITE (R299): held writes proceed from the first line that does not read the rectangle. -/
def execLanHeldWrite (s : State) : Host.Outcome State Fault Refusal :=
  s.act (fun d => if d.lantern.queue.isEmpty then d else d.lanPump d.lantern.queue)

/-- WDATA (R298): 4 bytes at WADDR, which then moves on by 4; a write that finds the 4 KiB queue full is discarded. Blocks of a copy do not pass through that queue. -/
def execWdata (v : Word) (s : State) : Host.Outcome State Fault Refusal :=
  s.actHost (fun d => d.ifOpen (fun d =>
    let a := d.rd (Reg.LAN_WADDR.at [])
    if 4096 < 4 * (d.lantern.queue.filter (fun e => !e.copied)).length + 4 then d.set (Reg.LAN_WQ_OVF.at []) true
    else (d.lanStore { off := a, data := leBytes 4 v.toNat }).wr (Reg.LAN_WADDR.at []) (a + 4)))

/-! ### The copy engine (R298) -/

/-- CSRC, CDST and CLEN, multiples of 256 (log 45). -/
def Dev.copySetup (d : Dev) : Nat × Nat × Nat :=
  ((d.rd (Reg.LAN_CSRC_LO.at []) + d.rd (Reg.LAN_CSRC_HI.at []) * 2 ^ 32) / 256 * 256, d.rd (Reg.LAN_CDST.at []) / 256 * 256,
    min (d.rd (Reg.LAN_CLEN.at [])) lanStoreSize / 256 * 256)

/-- CGO (R298). -/
def execCgo (s : State) : Host.Outcome State Fault Refusal :=
  s.actHost (fun d => d.ifOpen (fun d =>
    if d.lantern.copy.isSome then d
    else (d.onLantern (fun l => { l with copy := some d.copySetup })).wr (Reg.LAN_CSTATE.at []) 1))

/-- 256-byte blocks of copied data with its poisoned bytes go to the store; what lies beyond its end is dropped. -/
def Dev.copyBlocks (d : Dev) (dst n : Nat) (data : Bytes) (bad : List Nat) : Dev :=
  upTo n (fun i d =>
    if dst + (i + 1) * 256 ≤ lanStoreSize then
      d.lanStore { off := dst + i * 256, data := (data.drop (i * 256)).take 256, bad := (bad.filter (fun b => b / 256 = i)).map (· - i * 256), copied := true }
    else d) d

/-- A copy's source lies in the host window (R33). -/
def inHostWindow (a : Nat) : Bool := 0x008000000000 ≤ a && a < 0x010000000000

/-- The copy engine reads `n` bytes of LPDDR6 at the deadline NODL, and finds which of them are poisoned (R190, R298). -/
def Dev.copyRead (d : Dev) (src n : Nat) : Bytes × List Nat × Dev :=
  let c := (d.askReads copyMaster d.nodl false src n).ddrCheck src n 8 0
  (d.bytes src n, (List.range n).filter (fun i => c.1.any (fun w => w ≤ src + i && src + i < w + 8)), c.2)

/-- LAN_COPY_DONE (R298): the copy's source has been read, and its blocks go to the store; `hostData` holds the source bytes when they come through the host window,
which are poisoned where the link carries no request (R391). The copy is over when they have landed. -/
def execLanCopyDone (hostData : Bytes) (s : State) : Host.Outcome State Fault Refusal :=
  s.act (fun d =>
    match d.lantern.copy with
    | none => d
    | some (src, dst, len) =>
      if d.lantern.copyRead then d
      else
        let r := if inHostWindow src then (hostData ++ List.replicate len 0, if d.hostReady then [] else List.range len, d) else d.copyRead src len
        (((r.2.2.copyBlocks dst (len / 256) r.1 r.2.1).onLantern (fun l => { l with copyRead := true })).endCopy))

/-! ### The window (R297) -/

/-- The window closes; a copy stops at a 256-byte boundary: how far on is a free value, as are bytes it has had from the host, and blocks that are held do not land any more. -/
def Dev.closeWindow (d : Dev) : Dev :=
  let d := d.wr (Reg.LAN_STATE.at []) lanClosed
  match d.lantern.copy with
  | none => d
  | some (src, dst, len) =>
    let d :=
      if d.lantern.copyRead then d
      else
        let n := d.freeVal 16 % (len / 256 + 1)
        let d := d.useFree
        if inHostWindow src then
          (d.useFree (n * 256)).copyBlocks dst n ((List.range (n * 256)).map (fun i => BitVec.ofNat 8 (Config.freeBits (d.free + i)))) []
        else
          let r := d.copyRead src (n * 256)
          r.2.2.copyBlocks dst n r.1 r.2.1
    (d.onLantern (fun l => { l with copy := none, copyRead := false, queue := l.queue.filter (fun w => !w.copied) })).wr (Reg.LAN_CSTATE.at []) 3

/-- CLOSE (R297). -/
def execClose (s : State) : Host.Outcome State Fault Refusal := s.actHost (fun d => d.ifOpen Dev.closeWindow)

/-- LAN_WINDOW_TIMEOUT (R297): TIMEOUT_MS have passed without a window write. -/
def execLanWindowTimeout (s : State) : Host.Outcome State Fault Refusal :=
  s.act (fun d => if d.lanState = lanOpen then d.closeWindow else d)

/-- LAN_LOCKOUT_END (R297): 60 s have passed. -/
def execLanLockoutEnd (s : State) : Host.Outcome State Fault Refusal :=
  s.act (fun d => if d.lanState = lanLockout then (d.wr (Reg.LAN_STATE.at []) lanClosed).wr (Reg.LAN_FAILS.at []) 0 else d)

/-- NONCE_READ (R297): in CLOSED a read of NONCE0 draws a fresh nonce; reads are always served. -/
def execNonceRead (s : State) : Host.Outcome State Fault Refusal :=
  s.readHost (fun d =>
    let d :=
      if d.lanState = lanClosed then
        let d := upTo 4 (fun i d => d.wrFree (Reg.LAN_NONCE.at [i])) d
        d.onLantern (fun l => { l with nonce := some ((List.range 4).flatMap (fun i => leBytes 4 (d.rd (Reg.LAN_NONCE.at [i])))) })
      else d
    { d with host := { d.host with lastRead := d.rd (Reg.LAN_NONCE.at [0]) } })

/-- AUTH_WRITE (R297): a write of AUTH11 in CLOSED is verified with what AUTH0 to AUTH10 hold. -/
def execAuthWrite (v : Word) (s : State) : Host.Outcome State Fault Refusal :=
  s.actHost (fun d =>
    if d.lanState = lanLockout then d.lanIgnored
    else
      let d := d.wr (Reg.LAN_AUTH.at [11]) v.toNat
      if d.lanState = lanClosed then
        d.onLantern (fun l => { l with auth := some ((List.range 12).flatMap (fun i => leBytes 4 (d.rd (Reg.LAN_AUTH.at [i])))) })
      else d)

/-- The AUTH bytes are the HMAC of the nonce and OPEN_COUNT under the Lantern key. -/
def Dev.authGood (d : Dev) (auth : Bytes) : Bool :=
  match d.lanternKey, d.lantern.nonce with
  | some key, some n => auth = Config.hmacSha384 key (n ++ leBytes 4 (d.rd (Reg.LAN_OPEN_COUNT.at [])))
  | _, _ => false

/-- AUTH_VERIFIED (R297): the window opens, or a failure counts; the fourth in a row locks it for 60 s. The nonce is spent. -/
def execAuthVerified (s : State) : Host.Outcome State Fault Refusal :=
  s.act (fun d =>
    match d.lantern.auth with
    | none => d
    | some auth =>
      let good := d.authGood auth
      let d := d.onLantern (fun l => { l with auth := none, nonce := none })
      if good then ((d.wr (Reg.LAN_STATE.at []) lanOpen).inc (Reg.LAN_OPEN_COUNT.at [])).wr (Reg.LAN_FAILS.at []) 0
      else
        let d := (d.inc (Reg.LAN_FAILS.at [])).raise 0x0421 8 0
        if 4 ≤ d.rd (Reg.LAN_FAILS.at []) then (d.wr (Reg.LAN_STATE.at []) lanLockout).raise 0x0422 8 0 else d)

/-! ### Staged fields (R240, R300) -/

/-- Rows of the register map that are Lantern staged fields (R240). -/
def stagedRegs : List RegDef :=
  [Reg.LAN_EN, Reg.LAN_FMT, Reg.LAN_SCALE2, Reg.LAN_IND_EN, Reg.LAN_BASE, Reg.LAN_PITCH, Reg.LAN_W, Reg.LAN_H, Reg.LAN_X, Reg.LAN_Y, Reg.LAN_IND_BASE,
   Reg.LAN_IND_W, Reg.LAN_IND_H, Reg.LAN_IND_X, Reg.LAN_IND_Y, Reg.LAN_CHECK_EN]

/-- The staged fields of output `o`. -/
def stagedFields (o : Nat) : List Fld := stagedRegs.map (fun r => r.at [o]) ++ (List.range 16).map (fun r => Reg.LAN_EXPECT.at [o, r])

/-- A staged plane or indicator that is enabled breaks R295. -/
def Dev.badPlane (d : Dev) (o : Nat) : Bool :=
  let v (f : RegDef) : Nat := d.rd (f.at [o])
  let ipitch := (v Reg.LAN_IND_W * lanBytes (v Reg.LAN_FMT) + 255) / 256 * 256
  (v Reg.LAN_EN != 0 && (3840 < v Reg.LAN_W || 2160 < v Reg.LAN_H || lanStoreSize < v Reg.LAN_BASE + v Reg.LAN_PITCH * v Reg.LAN_H ||
    v Reg.LAN_BASE % 256 != 0 || v Reg.LAN_PITCH % 256 != 0)) ||
  (v Reg.LAN_IND_EN != 0 && (lanStoreSize < v Reg.LAN_IND_BASE + ipitch * v Reg.LAN_IND_H || v Reg.LAN_IND_BASE % 256 != 0))

/-- APPLY (R300): every staged value waits for the outputs' frame boundaries, unless a plane or indicator would break R295. -/
def execApply (s : State) : Host.Outcome State Fault Refusal :=
  s.actHost (fun d => d.ifOpen (fun d =>
    if d.badPlane 0 || (!d.split && d.badPlane 1) then d.set (Reg.LAN_APPLY_ERR.at []) true
    else
      let vals := (stagedFields 0 ++ stagedFields 1).foldl (fun (t : Tab Nat) f => Tab.put f.reset t f.key (d.rd f)) []
      d.onLantern (fun l => { l with staged := vals, applyFor := [0, 1], queue := l.queue.map (fun w => { w with before := true }) })))

/-- At a frame boundary of output `o` an APPLY whose earlier writes have landed takes effect there; mismatches it finds are reported again (R302). -/
def Dev.lanBoundary (d : Dev) (o : Nat) : Dev :=
  if !d.lantern.applyFor.contains o || d.lantern.queue.any LanWrite.before then d
  else
    let l := d.lantern
    let vals := (stagedFields o).foldl (fun (t : Tab Nat) f => Tab.put f.reset t f.key (Tab.get f.reset l.staged f.key)) l.live
    let d := d.onLantern (fun l => { l with live := vals, applyFor := l.applyFor.filter (· != o) })
    d.onOut o (fun q => { q with cleared := q.told })

end Sys2Proof.Machine
end

