-- ==== Sys2Proof/Machine/Host.lean ====
section
/-! DEFINITION. The host interface: MSI-X messages, rings, the delivery of events, BAR2, and resets of the endpoint (R365, R369, R386 to R395, R410). -/

namespace Sys2Proof.Machine

def Dev.onHost (d : Dev) (f : HostSide → HostSide) : Dev := { d with host := f d.host }

/-- What function 0 presents of itself in configuration space (R386): Vendor ID, Device ID, class code; its serial number is the device's. -/
def pciIdentity : Nat × Nat × Nat := (0x1F9C, 0xDF87, 0x038000)

/-! ### Messages (R392) -/

/-- Vector `v` is masked, by its own mask bit or the function's. -/
def Dev.vecMasked (d : Dev) (v : Nat) : Bool := d.host.cfg.funcMask || d.bit (Reg.HST_MSIX_MASK.at [v])

/-- The message of vector `v` is sent. -/
def Dev.sendMessage (d : Dev) (v : Nat) : Dev :=
  let a := d.rd (Reg.HST_MSIX_ADDR_LO.at [v]) + d.rd (Reg.HST_MSIX_ADDR_HI.at [v]) * 2 ^ 32
  (d.hostWrite a (leBytes 4 (d.rd (Reg.HST_MSIX_DATA.at [v])))).onHost (fun h => { h with irqs := h.irqs ++ [v] })

/-- Pending bit of vector `v`. -/
def pbaFld (v : Nat) : Fld := Reg.HST_MSIX_PBA.at [v / 32, v % 32]

/-- Interrupt source `q` arises: its message is sent, or its vector is masked and becomes pending. A function whose MSI-X is not enabled signals nothing (log 182). -/
def Dev.signal (d : Dev) (q : Nat) : Dev :=
  if !d.bit (Reg.HST_IRQ_EN.at [q]) || !d.host.cfg.msixEn then d
  else
    let v := d.rd (Reg.HST_IRQ_VECTOR.at [q])
    if d.vecMasked v then d.set (pbaFld v) true else d.sendMessage v

/-- A vector that is pending and no longer masked sends its message. -/
def Dev.unmask (d : Dev) (v : Nat) : Dev :=
  if d.bit (pbaFld v) && d.host.cfg.msixEn && !d.vecMasked v then (d.set (pbaFld v) false).sendMessage v else d

/-! ### Rings (R393, R394): 0 events, 1 results, 2 + s descriptors of stream s -/

/-- A register of ring `q`. -/
def ringFld (evt res dsc : RegDef) (q : Nat) : Fld := if q = 0 then evt.at [] else if q = 1 then res.at [] else dsc.at [q - 2]

def ringEn (q : Nat) : Fld := ringFld Reg.EVT_EN Reg.RES_EN Reg.DSC_EN q
def ringLog2 (q : Nat) : Fld := ringFld Reg.EVT_LOG2 Reg.RES_LOG2 Reg.DSC_LOG2 q
def ringHidx (q : Nat) : Fld := ringFld Reg.EVT_HIDX Reg.RES_HIDX Reg.DSC_HIDX q
def ringDidx (q : Nat) : Fld := ringFld Reg.EVT_DIDX Reg.RES_DIDX Reg.DSC_DIDX q
def ringWbEn (q : Nat) : Fld := ringFld Reg.EVT_WB_EN Reg.RES_WB_EN Reg.DSC_WB_EN q

/-- Host bus address of entry `i` of ring `q`. -/
def Dev.ringAddr (d : Dev) (q i : Nat) : Nat :=
  let base := d.rd (ringFld Reg.EVT_BASE_LO Reg.RES_BASE_LO Reg.DSC_BASE_LO q) * 4096 + d.rd (ringFld Reg.EVT_BASE_HI Reg.RES_BASE_HI Reg.DSC_BASE_HI q) * 2 ^ 32
  base + i % 2 ^ d.rd (ringLog2 q) * (if q = 0 then 32 else 64)

/-- (a − b) mod 2^32. -/
def gap32 (a b : Nat) : Nat := (a + 2 ^ 32 - b) % 2 ^ 32

/-- Free entries of the event or result ring; a disabled ring takes none. -/
def Dev.ringFree (d : Dev) (q : Nat) : Nat :=
  if d.bit (ringEn q) then 2 ^ d.rd (ringLog2 q) - gap32 (d.rd (ringDidx q)) (d.rd (ringHidx q)) else 0

/-- The source of a ring signals. -/
def Dev.ringSignal (d : Dev) (q : Nat) : Dev := (d.onHost (fun h => { h with unsent := Tab.put 0 h.unsent q 0 })).signal q

/-- DIDX advances by `n` entries already written, of which `counted` count toward COAL_CNT: the write-back, then any message (R394). -/
def Dev.ringAdvance (d : Dev) (q n counted : Nat) : Dev :=
  let d := (d.inc (ringDidx q) n).inc (ringFld Reg.EVT_COUNT Reg.RES_COUNT Reg.DSC_COUNT q) n
  let d :=
    if d.bit (ringWbEn q) then
      d.hostWrite (d.rd (ringFld Reg.EVT_WB_LO Reg.RES_WB_LO Reg.DSC_WB_LO q) * 4 + d.rd (ringFld Reg.EVT_WB_HI Reg.RES_WB_HI Reg.DSC_WB_HI q) * 2 ^ 32)
        (leBytes 4 (d.rd (ringDidx q)))
    else d
  let k := Tab.get 0 d.host.unsent q + counted
  let d := d.onHost (fun h => { h with unsent := Tab.put 0 h.unsent q k })
  if 0 < counted && max (d.rd (ringFld Reg.EVT_COAL_CNT Reg.RES_COAL_CNT Reg.DSC_COAL_CNT q)) 1 ≤ k then d.ringSignal q else d

/-- COAL_TIMER (R394): COAL_US have passed after the first advance not yet signalled. -/
def execCoalTimer (q : Fin 18) (s : State) : Host.Outcome State Fault Refusal :=
  s.act (fun d =>
    if Tab.get 0 d.host.unsent q = 0 || d.rd (ringFld Reg.EVT_COAL_US Reg.RES_COAL_US Reg.DSC_COAL_US q) = 0 then d else d.ringSignal q)

/-- HIDX_WRITE (R393): while the ring is enabled, an index out of bounds is discarded. -/
def execHidxWrite (q : Fin 18) (v : Word) (s : State) : Host.Outcome State Fault Refusal :=
  s.act (fun d =>
    let h := v.toNat
    let i := d.rd (ringDidx q)
    let far := 2 ^ d.rd (ringLog2 q) < (if q.val < 2 then gap32 i h else gap32 h i)
    if d.bit (ringEn q) && far then
      (d.set (ringFld Reg.EVT_IDX_ERR Reg.RES_IDX_ERR Reg.DSC_IDX_ERR q) true).raise 0x0233 8 0 [q]
    else d.wr (ringHidx q) h)

/-- RING_EN_WRITE (R393): a write of the word that holds LOG2 [4:0], EN [5] and WB_EN [6]. LOG2 and WB_EN are ignored while EN = 1, and a LOG2 out of
range leaves EN at 0. -/
def execRingEnWrite (q : Fin 18) (v : Word) (s : State) : Host.Outcome State Fault Refusal :=
  s.act (fun d =>
    let en := v.toNat.testBit 5
    if d.bit (ringEn q) then d.set (ringEn q) en
    else
      let l := bits v.toNat 0 5
      let d := (d.wr (ringLog2 q) l).set (ringWbEn q) (v.toNat.testBit 6)
      let ok := if q.val < 2 then 8 ≤ l && l ≤ 16 else 4 ≤ l && l ≤ 12
      if en && ok then (d.set (ringEn q) true).wr (ringDidx q) (d.rd (ringHidx q)) else d)

/-! ### Events (R365, R371, R395) -/

/-- EVENT_DELIVER (R365, R395): Keeper writes the record it has held longest. -/
def execEventDeliver (s : State) : Host.Outcome State Fault Refusal :=
  s.act (fun d =>
    match d.events.store with
    | [] => d
    | r :: rest =>
      if d.ringFree 0 = 0 then d
      else
        let i := d.rd (ringDidx 0)
        let e := { r with gap := d.events.gapOwed }
        let froze := d.events.froze.map (fun x => if x.1.seq = r.seq && x.2.isNone then (x.1, some i) else x)
        let d := { d with events := { d.events with store := rest, gapOwed := false, froze := froze } }
        (d.hostWrite (d.ringAddr 0 i) e.toBytes).ringAdvance 0 1 1)

/-! ### BAR2 (R369, R389, R421) -/

/-- Device address of a BAR2 offset. -/
def Dev.bar2Addr (d : Dev) (off : Nat) : Nat := d.rd (Reg.HST_BAR2_BASE.at []) * 2 ^ 28 + off

/-- The offsets lie in the BAR. -/
def Dev.inBar2 (d : Dev) (off n : Nat) : Bool := decide (0 < n) && decide (off + n ≤ 2 ^ d.host.bar2Log2)

/-- A violation freezes the window. -/
def Dev.bar2Violation (d : Dev) (code : Nat) (args : List Nat) : Dev := (d.set (Reg.TOP_FROZEN_BAR2.at []) true).raise code 7 2 args true

/-- What a write to one address of BAR2 meets: 0 served, or the code of the violation. -/
def Dev.bar2Code (d : Dev) (a : Nat) : Nat :=
  match d.region a with
  | .ddr => if overlap (a, 1) d.activeImage then 0x0910 else 0
  | .lantern _ => 0x0420
  | _ => 0x0710

/-- BAR2_WRITE (R234, R298, R369, R389, R390, R421): the first byte that may not be written decides. The command is over when the memory controller has accepted the write, so that every
BAR0 write comes after that (log 183). -/
def execBar2Write (off : Nat) (data : Bytes) (s : State) : Host.Outcome State Fault Refusal :=
  s.act (fun d =>
    if !d.hostOpen || d.bit (Reg.TOP_FROZEN_BAR2.at []) || !d.inBar2 off data.length then d
    else
      let a := d.bar2Addr off
      match (List.range data.length).find? (fun i => d.bar2Code (a + i) != 0) with
      | none => ((d.ddrWrite a data [] 7 2).askWrites hostMaster d.nodl a data.length).acceptHost
      | some i =>
        let code := d.bar2Code (a + i)
        let d := if code = 0x0420 then d.inc (Reg.LAN_DENIED.at []) else d
        d.bar2Violation code (if code = 0x0710 then addrArgs (a + i) else []))

/-- A scratchpad's words with a double-bit error are delivered poisoned, and its banks that are off or wait to power down are not read: those bytes are free values (R155, R156, R160). -/
def Dev.bar2Pad (d : Dev) (c off n : Nat) : (Bytes × List Nat) × Dev :=
  if d.anyShut c off n then
    (((List.range n).map (fun i => BitVec.ofNat 8 (Config.freeBits (d.free + i))), []), d.useFree n)
  else
    let r := (wordsOf off n).foldl (fun (acc : List Nat × Dev) w =>
      let x := acc.2.spCheck c w 8
      match x.1 with
      | none => (acc.1, x.2)
      | some _ => (acc.1 ++ [w], ({ x.2 with padDed := false }).raise 0x0720 7 2)) ([], d)
    ((r.2.bytes (spAddr c off) n, (List.range n).filter (fun i => r.1.contains ((off + i) / 8 * 8))), r.2)

/-- A BAR2 read of a scratchpad is answered. -/
def Dev.answerPad (d : Dev) (c off n : Nat) : Dev :=
  let r := d.bar2Pad c off n
  r.2.onHost (fun h => { h with answer := some r.1 })

/-- BAR2 reads that wait for a bank's wake and fill, and need wait no longer, are answered in their order (R157). -/
def Dev.answerReads (d : Dev) : Dev :=
  let go := d.host.reads.filter (fun r => !d.anyWaking r.1 r.2.1 r.2.2)
  let d := d.onHost (fun h => { h with reads := h.reads.filter (fun r => d.anyWaking r.1 r.2.1 r.2.2) })
  go.foldl (fun d r => d.answerPad r.1 r.2.1 r.2.2) d

/-- BAR2_READ (R157, R160, R190, R389, R421): the bytes with the places of poisoned ones, or Unsupported Request; a read of a bank that wakes or is filled waits. -/
def execBar2Read (off len : Nat) (s : State) : Host.Outcome State Fault Refusal :=
  s.act (fun d =>
    let answer (d : Dev) (x : Option (Bytes × List Nat)) : Dev := d.onHost (fun h => { h with answer := x })
    if !d.inBar2 off len then d
    else if !d.hostOpen || d.bit (Reg.TOP_FROZEN_BAR2.at []) then answer d none
    else
      let a := d.bar2Addr off
      let served (r : Region) : Bool := match r with
        | .ddr => true
        | .sp _ _ => true
        | .lineBuf _ _ => true
        | .lantern _ => true
        | _ => false
      match (List.range len).find? (fun i => !served (d.region (a + i))) with
      | some i => answer (d.raise 0x0710 7 2 (addrArgs (a + i))) none
      | none =>
        match d.region a with
        | .sp c o =>
          if d.anyWaking c o len then d.onHost (fun h => { h with reads := h.reads ++ [(c, o, len)] }) else d.answerPad c o len
        | .ddr =>
          let r := (d.askReads hostMaster d.nodl false a len).ddrCheck a len 7 2
          answer r.2 (some (d.bytes a len, (List.range len).filter (fun i => r.1.contains ((a + i) / 8 * 8))))
        | _ => answer d (some (d.bytes a len, [])))

/-! ### The link and endpoint resets (R387, R410) -/

/-- The link goes down. -/
def Dev.linkDown (d : Dev) : Dev :=
  if d.bit (Reg.HST_UP.at []) then
    (((d.set (Reg.HST_UP.at []) false).wr (Reg.HST_GEN.at []) 0).wr (Reg.HST_WIDTH.at []) 0).raise 0x0230 8 0
  else d

/-- Registers of the HST block other than the streams' and HST_LINK: rings, BAR2 and host window bases, IRQ map, MSI-X table and the block's counters. -/
def endpointReg (key : Nat) : Bool :=
  let a := key / 32
  decide (0x00400000 ≤ a) && decide (a < 0x00800000) && !(decide (0x00402000 ≤ a) && decide (a < 0x00402400)) && a != 0x00400000

/-- A copy in progress is abandoned without a write to its descriptor. -/
def Dev.dropCopies (d : Dev) : Dev :=
  upTo 16 (fun s d =>
    if (d.stream s).desc.isNone then d
    else
      let d := if d.rd (Reg.STR_WRITING.at [s]) = (d.stream s).copyBuf then d.wr (Reg.STR_WRITING.at [s]) 15 else d
      d.onStream s (fun q => { q with desc := none, aborted := false, copyBuf := 15 })) d

/-- ENDPOINT_RESET (R387): PERST_N, link-down and hot reset take the link down too; the endpoint and the HST block are reset, streams and their counters apart. -/
def execEndpointReset (cause : EndpointCause) (s : State) : Host.Outcome State Fault Refusal :=
  s.act (fun d =>
    let d := match cause with
      | .flr => d
      | .perst => d.linkDown
      | .linkDown => d.linkDown
      | .hotReset => d.linkDown
    let d := { d with regs := d.regs.filter (fun e => !endpointReg e.1) }.dropCopies
    d.onHost (fun h => { h with unsent := [], irqs := [], resGap := false, answer := none, reads := [], cfg := {}, bar2Log2 := 28 }))

end Sys2Proof.Machine
end

