-- ==== Sys2Proof/Machine/CoreControl.lean ====
section
/-! DEFINITION. Control instructions of the core: NOP to SETTAG (R87 to R95, R485). -/

namespace Sys2Proof.Machine

/-- NOP (R68). -/
def execNop (c : Fin 72) (s : State) : Host.Outcome State Fault Refusal :=
  s.act (fun d => d.issueRegs c 0x00 (fun _ k => k))

/-- END (R95): the task is IDLE, its loops end, and a pending launch takes effect at once. -/
def execEnd (c : Fin 72) (s : State) : Host.Outcome State Fault Refusal :=
  s.act (fun d => d.issue c 0x01 (fun x d =>
    let d := (d.issued x).onTask x.c x.t (fun k => { k with nest := [], wait := .none })
    let d := d.setTstate x.c x.t tIdle
    match x.k.pending with
    | some l => d.startTask x.c x.t l
    | none => d.selectNext x.c))

/-- YIELD (R95): the task stays READY and gives way. -/
def execYield (c : Fin 72) (s : State) : Host.Outcome State Fault Refusal :=
  s.act (fun d => d.issue c 0x02 (fun x d =>
    let d := (d.issued x).advance x x.pc
    if d.tstate x.c x.t = tRun then
      ((d.setTstate x.c x.t tReady).onTask x.c x.t (fun k => { k with yielded := true })).selectNext x.c
    else d))

/-- LOOP (R90): activates LC[LCI]; a count of 0 skips the body. -/
def execLoop (c : Fin 72) (s : State) : Host.Outcome State Fault Refusal :=
  s.act (fun d => d.issue c 0x04 (fun x d =>
    let i := x.f 8 2
    let stop := x.f 16 12
    let count := if x.f 10 1 = 0 then x.f 32 16 + 1 else (x.k.gv (x.f 11 3)).toNat
    if x.k.nest.contains i || x.k.nest.any (fun j => (x.k.lcv j).stop < stop) then d.freezeCore x.c fLoopNest x.t x.pc
    else if count = 0 then (d.issued x).advance x stop
    else
      ((d.issued x).onTask x.c x.t (fun k =>
        { k.setLc i ⟨count, x.pc + 1, stop⟩ with nest := i :: k.nest })).setPc x (x.pc + 1)))

/-- Whether BR is taken (R485). -/
def brTaken (cond : Nat) (a b : Int) : Bool :=
  match cond with
  | 0 => true
  | 1 => decide (a = b)
  | 2 => decide (a ≠ b)
  | 3 => decide (a < b)
  | _ => decide (b ≤ a)

/-- BR (R485, R91): a taken branch ends every loop whose body does not hold the target. -/
def execBr (c : Fin 72) (s : State) : Host.Outcome State Fault Refusal :=
  s.act (fun d => d.issue c 0x05 (fun x d =>
    let target := x.f 16 12
    if brTaken (x.f 8 3) (x.k.gv (x.f 11 3)).toInt (toSigned 32 (x.f 32 32)) then
      ((d.issued x).onTask x.c x.t (fun k =>
        { k with nest := k.nest.filter (fun j => (k.lcv j).start ≤ target && target ≤ (k.lcv j).stop) })).setPc x target
    else (d.issued x).advance x x.pc))

/-- The operations of SOP (R88). -/
def sopFn (fn : Nat) (a b : Word) : Word :=
  let sh := b.toNat % 32
  match fn with
  | 0 => b
  | 1 => a + b
  | 2 => a - b
  | 3 => a * b
  | 4 => a &&& b
  | 5 => a ||| b
  | 6 => a ^^^ b
  | 7 => a <<< sh
  | 8 => a >>> sh
  | 9 => a.sshiftRight sh
  | 10 => if a.toInt ≤ b.toInt then a else b
  | _ => if a.toInt ≤ b.toInt then b else a

/-- SOP (R88). -/
def execSop (c : Fin 72) (s : State) : Host.Outcome State Fault Refusal :=
  s.act (fun d => d.issueRegs c 0x08 (fun x k =>
    let b := match x.f 18 2 with
      | 0 => BitVec.ofNat 32 (x.f 32 32)
      | 1 => k.gv (x.f 20 3)
      | _ => BitVec.ofNat 32 (k.lcv (x.f 20 3)).count
    k.setG (x.f 12 3) (sopFn (x.f 8 4) (k.gv (x.f 15 3)) b)))

/-- The address register AROP forms, or none when the offset leaves its range (R89). -/
def aropResult (x : Ctx) : Option Word :=
  let src := x.k.av (x.f 12 4)
  let gm := x.k.gv (x.f 25 3)
  let off : Int := (aOffset src : Int) + toSigned 32 (x.f 32 32) +
    (if x.f 31 1 = 1 then gm.toInt * x.k.sv (x.f 28 3) else 0)
  let seth := x.f 16 1 = 1
  let handle := if seth then x.f 17 6 else aHandle src
  let base := if seth then x.f 23 1 else (if aBaserel src then 1 else 0)
  let half0 := if seth then x.f 24 1 else aHalf src
  let half := if x.f 64 1 = 1 then gm.toNat % 2 else half0
  if 0 ≤ off ∧ off ≤ 0x3FFFFF then
    some (BitVec.ofNat 32 (off.toNat + handle * 2 ^ 22 + base * 2 ^ 28 + half * 2 ^ 29))
  else none

/-- AROP (R89). -/
def execArop (c : Fin 72) (s : State) : Host.Outcome State Fault Refusal :=
  s.act (fun d => d.issue c 0x09 (fun x d =>
    match aropResult x with
    | none => d.freezeCore x.c fBound x.t x.pc
    | some v => ((d.issued x).onTask x.c x.t (fun k => k.setA (x.f 8 4) v)).advance x x.pc))

/-- SRSET (R89). -/
def execSrset (c : Fin 72) (s : State) : Host.Outcome State Fault Refusal :=
  s.act (fun d => d.issueRegs c 0x0A (fun x k =>
    k.setS (x.f 8 3) (if x.f 11 1 = 0 then BitVec.ofNat 32 (x.f 32 32) else k.gv (x.f 12 3))))

/-- LDMASK (R87). -/
def execLdmask (c : Fin 72) (s : State) : Host.Outcome State Fault Refusal :=
  s.act (fun d => d.issueRegs c 0x0B (fun x k =>
    let n := min (k.gv (x.f 13 3)).toNat 64
    k.setP (x.f 8 3) (BitVec.ofNat 64 (if x.f 11 2 = 0 then x.f 64 64 else 2 ^ n - 1))))

/-- TAKE (R94): asks work counter WC of the cluster and waits in WAIT_TAKE. At index 4,095 it faults PC_RANGE as it issues and asks nothing (log 61); so do DONE and a WAITTAG
that would wait. -/
def execTake (c : Fin 72) (s : State) : Host.Outcome State Fault Refusal :=
  s.act (fun d => d.issue c 0x0C (fun x d =>
    let d := (d.issued x).advance x x.pc
    if d.tstate x.c x.t = tRun then
      (d.send (.core x.c) (.wc (x.c / 9) (x.f 8 5)) (.take x.t)).block x tWaitTake (.take (x.f 13 3))
    else d))

/-- DONE (R94, R210): returns a lease once the task's earlier writes are acknowledged, and waits. All 32 bits of G[GA + 1] go to the counter as the generation (log 134). -/
def execDone (c : Fin 72) (s : State) : Host.Outcome State Fault Refusal :=
  s.act (fun d => d.issue c 0x0D (fun x d =>
    let ga := x.f 13 3
    let d := (d.issued x).advance x x.pc
    if d.tstate x.c x.t = tRun then
      let w : DoneWait := ⟨x.t, x.f 8 5, (x.k.gv ga).toNat, (x.k.gv (ga + 1)).toNat, false⟩
      ((d.onCore x.c (fun k => { k with doneQ := k.doneQ ++ [w] })).block x tWaitTake (.done (x.f 16 3))).settle x.c
    else d))

/-- The half that WAITTAG and SETTAG name (R87). -/
def Ctx.half (x : Ctx) (gg : Nat) : Nat := if x.f 14 2 = 2 then (x.k.gv gg).toNat % 2 else x.f 14 2

/-- State and generation of a slot (R142). -/
def Dev.slotFull (d : Dev) (c sl : Nat) : Bool := d.bit (Reg.SLOT_FULL.at (cix c [sl]))
def Dev.slotGen (d : Dev) (c sl : Nat) : Nat := d.rd (Reg.SLOT_GEN.at (cix c [sl]))

/-- What a WAITTAG finds (R92). -/
inductive TagSight where
  | complete | ahead | behind
  deriving DecidableEq, Repr

/-- Evaluates a tag (R92): the generation counts only where the state is the wanted one. -/
def Dev.sight (d : Dev) (c sl : Nat) (want gchk : Bool) (gen : Nat) : TagSight :=
  if d.slotFull c sl != want then .behind
  else if !gchk then .complete
  else
    let diff := toSigned 16 (d.slotGen c sl + 65536 - gen)
    if diff = 0 then .complete else if 0 < diff then .ahead else .behind

/-- WAITTAG (R92, R139, R142). -/
def execWaittag (c : Fin 72) (s : State) : Host.Outcome State Fault Refusal :=
  s.act (fun d => d.issue c 0x0E (fun x d =>
    let h := x.f 8 6
    let gg := x.f 18 3
    let half := x.half gg
    let tagged := d.rd (Reg.HND_TAGMODE.at (cix x.c [h]))
    if !d.handleFor x.c x.t h || d.isRemote x.c h || !(tagged = 1 || tagged = 2) ||
        (half = 1 && !d.bit (Reg.HND_HALVES.at (cix x.c [h]))) then d.freezeCore x.c fHandle x.t x.pc
    else
      let sl := 2 * h + half
      let want := x.f 16 1 = 1
      let gchk := x.f 17 1 = 1
      let gen := (x.k.gv gg).toNat % 65536
      match d.sight x.c sl want gchk gen with
      | .ahead => d.freezeCore x.c fGenAhead x.t x.pc
      | .complete => (d.issued x).advance x x.pc
      | .behind =>
        let d := (d.issued x).advance x x.pc
        if d.tstate x.c x.t = tRun then d.block x tWaitTag (.tag sl want gchk gen x.pc) else d))

/-- A waiting instruction of task `t` still has to read through handle `h` (R146): the one in the waiting place of the vector unit, or one that the array unit holds behind it. -/
def Core.readsVia (k : Core) (t h : Nat) : Bool :=
  k.vecNext.any (fun j => (j.task = t && (vecReads j.ins j.regs).contains h) ||
    k.arrQ.any (fun a => a.task = t && (arrReadKeys a.ins a.regs).contains h))

/-- What holds the release of a SETTAG by task `t` through handle `h`, whose updates go out as `u` (R93, R146): 2 a write of the instruction in the waiting place of the vector
unit, 3 a read of a waiting instruction before an EMPTY, 1 a write of the DRAIN that waits for credit, 0 nothing. -/
def Dev.heldBy (d : Dev) (c t h : Nat) (u : TagUpd) : Nat :=
  if (d.core c).vecNext.any (fun j => j.task = t && vecDest j.ins j.regs = h) then 2
  else if !u.full && (d.core c).readsVia t h then 3
  else if (d.core c).drainQ.any (fun x => x.task = t && x.route = u.route && x.tcore = u.tcore && x.handle = u.handle) then 1
  else 0

/-- SETTAG (R93, R139, R146): a release that waits for the task's earlier writes, and an EMPTY for its earlier reads; the task goes on. -/
def execSettag (c : Fin 72) (s : State) : Host.Outcome State Fault Refusal :=
  s.act (fun d => d.issue c 0x0F (fun x d =>
    let h := x.f 8 6
    let gg := x.f 19 3
    let half := x.half gg
    let rem := d.isRemote x.c h
    let halves := d.bit (if rem then Reg.HND_THALVES.at (cix x.c [h]) else Reg.HND_HALVES.at (cix x.c [h]))
    let tagged := d.rd (Reg.HND_TAGMODE.at (cix x.c [h]))
    if !d.handleFor x.c x.t h || (!rem && !(tagged = 1 || tagged = 2)) || (half = 1 && !halves) then
      d.freezeCore x.c fHandle x.t x.pc
    else
      let u : TagUpd :=
        { writer := x.c, route := if rem then some (d.remRoute x.c h) else none,
          tcore := if rem then d.remTcore x.c h else x.c, handle := if rem then d.remThandle x.c h else h,
          half := half, full := x.f 16 1 = 1, gmode := x.f 17 2, gen := (x.k.gv gg).toNat % 65536, task := x.t, pc := x.pc }
      ((d.issued x).onCore x.c (fun k => { k with releases := k.releases ++ [⟨x.t, h, u, d.heldBy x.c x.t h u⟩] })).advance x x.pc))

end Sys2Proof.Machine
end

