-- ==== Sys2Proof/Machine/Scratchpad.lean ====
section
/-! DEFINITION. Messages that reach cores and scratchpads, and the events of their banks: releases, launches, tags, writes, credits, scrubbing, zero-fill, power-gating, row map-out (R73, R92 to R99, R107, R142 to R163). -/

namespace Sys2Proof.Machine

/-- SETTAG_RELEASE (R93): a pending release leaves once every earlier write of its task through the same handle has left, an EMPTY once every
earlier read has ended (R146), and no earlier release of the same half waits. The half is one of the handle that the SETTAG names: two REMOTE handles that lead to one half do not order
each other's releases (log 174). -/
def execSettagRelease (c : Fin 72) (i : Nat) (s : State) : Host.Outcome State Fault Refusal :=
  s.act (fun d =>
    match (d.core c).releases[i]? with
    | none => d
    | some r =>
      let earlier := ((d.core c).releases.take i).any (fun q => q.task = r.task && q.handle = r.handle && q.upd.half = r.upd.half)
      if earlier || r.behind != 0 then d
      else
        (d.onCore c (fun k => { k with releases := dropAt k.releases i })).sendTag (.core c) r.upd)

/-- TASK_LAUNCH (R73): starts an idle task, is held pending, replaces a pending launch, or is discarded. A core that is not up takes no launch (R368). -/
def execTaskLaunch (i : Nat) (s : State) : Host.Outcome State Fault Refusal :=
  s.act (fun d =>
    match d.arriving i with
    | some ⟨_, .core c, .launch t l⟩ =>
      let d := d.taken i
      if !d.bit (Reg.TASK_ENABLE.at (cix c [t])) then d.set (Reg.TASK_LAUNCH_OVR.at (cix c [t])) true
      else if !d.coreUp c then d
      else if d.tstate c t = tIdle then d.startTask c t l
      else
        let d := if (d.task c t).pending.isSome then d.set (Reg.TASK_LAUNCH_OVR.at (cix c [t])) true else d
        d.onTask c t (fun k => { k with pending := some l })
    | _ => d)

/-- Tasks of a core that wait on a slot are looked at again (R92, R99). -/
def Dev.wake (d : Dev) (c sl : Nat) : Dev :=
  upTo 8 (fun t d =>
    if d.tstate c t = tWaitTag then
      match (d.task c t).wait with
      | .tag s want gchk gen pc =>
        if s = sl then
          match d.sight c s want gchk gen with
          | .complete => d.makeReady c t
          | .ahead => d.freezeCore c fGenAhead t pc
          | .behind => d
        else d
      | _ => d
    else d) d

/-- Applies a tag update to a slot of a LOCAL handle (R143, R144). One that reaches a slot while its half is being filled with zeros is applied when the fill has
ended, in the order in which it came (R145, R154; log 136). -/
def Dev.applyTag (d : Dev) (c : Nat) (u : TagUpd) : Dev :=
  let sl := 2 * u.handle + u.half
  let ix := cix c [sl]
  if (d.core c).zfills.any (fun z => z.slot = sl) then
    d.onCore c (fun k => { k with zfills := k.zfills.map (fun z => if z.slot = sl then { z with queued := z.queued ++ [u] } else z) })
  else
  let counted := d.rd (Reg.HND_TAGMODE.at (cix c [u.handle])) = 2
  let full := d.slotFull c sl
  let gen := d.slotGen c sl
  let rel := d.rd (Reg.SLOT_RELCNT.at ix)
  let odd (d : Dev) : Dev := d.set (Reg.SP_TAG_ODD.at (cix c)) true
  if u.full then
    if full then
      let d := odd d
      if counted then d else (d.wr (Reg.SLOT_GEN.at ix) (genAfter u.gmode gen u.gen)).wake c sl
    else if counted then
      if rel < d.rd (Reg.HND_RELN.at (cix c [u.handle])) then d.wr (Reg.SLOT_RELCNT.at ix) (rel + 1)
      else (((d.wr (Reg.SLOT_RELCNT.at ix) 0).wr (Reg.SLOT_FULL.at ix) 1).wr (Reg.SLOT_GEN.at ix) (gen + 1)).wake c sl
    else ((d.wr (Reg.SLOT_FULL.at ix) 1).wr (Reg.SLOT_GEN.at ix) (genAfter u.gmode gen u.gen)).wake c sl
  else if full then
    let g := genAfter u.gmode gen u.gen
    if d.bit (Reg.HND_ZFILL.at (cix c [u.handle])) then d.onCore c (fun k => { k with zfills := k.zfills ++ [⟨sl, g, []⟩] })
    else (((d.wr (Reg.SLOT_FULL.at ix) 0).wr (Reg.SLOT_GEN.at ix) g).returnCredits c u.handle).wake c sl
  else
    ((odd (d.wr (Reg.SLOT_RELCNT.at ix) 0)).wr (Reg.SLOT_GEN.at ix) (genAfter u.gmode gen u.gen)).wake c sl

/-- The checks of R152 and R481 on a tag update at core `c`. -/
def Dev.tagAccepted (d : Dev) (c : Nat) (u : TagUpd) : Bool :=
  let tm := d.rd (Reg.HND_TAGMODE.at (cix c [u.handle]))
  d.bit (Reg.HND_VALID.at (cix c [u.handle])) && d.rd (Reg.HND_KIND.at (cix c [u.handle])) = 0 && (tm = 1 || tm = 2) &&
  (u.half = 0 || d.bit (Reg.HND_HALVES.at (cix c [u.handle]))) &&
  match u.route with
  | none => true
  | some r => (d.inbound c u.handle u.writer r).isSome

/-- Arguments of event 0x0713: the core or group, and the handle (R152). -/
def remoteArgs (c tcore handle : Nat) : List Nat := [if tcore < 72 then c else tcore, handle]

/-- TAG_UPDATE (R143, R144, R152). -/
def execTagUpdate (i : Nat) (s : State) : Host.Outcome State Fault Refusal :=
  s.act (fun d =>
    match d.arriving i with
    | some ⟨_, .core c, .tag u⟩ =>
      if d.tagAccepted c u then (d.taken i).applyTag c u
      else (d.taken i).freezeWriter u.writer 0x0713 fHandle u.task u.pc (remoteArgs c u.tcore u.handle)
    | some ⟨_, .none, .tag u⟩ => (d.taken i).freezeWriter u.writer 0x0713 fHandle u.task u.pc [u.tcore, u.handle]
    | _ => d)

/-- The checks of R152 and R481 on a write transaction at core `c`. -/
def Dev.writeAccepted (d : Dev) (c : Nat) (t : Txn) : Bool :=
  d.bit (Reg.HND_VALID.at (cix c [t.handle])) && d.rd (Reg.HND_KIND.at (cix c [t.handle])) = 0 &&
  (t.half = 0 || d.bit (Reg.HND_HALVES.at (cix c [t.handle]))) &&
  t.off + t.data.length ≤ (d.halfBytes c t.handle t.half).2 &&
  match t.route with
  | none => true
  | some r => (d.inbound c t.handle t.writer r).isSome

/-- Marks the words that poisoned bytes of a transaction reach (R190). -/
def Dev.markPoison (d : Dev) (c off : Nat) (bad : List Nat) : Dev :=
  bad.foldl (fun d b => { d with ecc := Tab.put 0 d.ecc (spAddr c (off + b) / 8) 2 }) d

/-- A stream unit's access to the scratchpad of a core that is power-gated or retired (R35). -/
def Dev.suAway (d : Dev) (c writer : Nat) : Bool := 0x100 ≤ writer && writer < 0x180 && (d.mcState c = mcOff || d.mcState c = mcRetired)

/-- WRITE_TRANSACTION (R35, R152 to R156, R158, R217, R482): matched and written, or discarded with its writer frozen; it waits for a bank that wakes (R157). -/
def execWriteTransaction (i : Nat) (s : State) : Host.Outcome State Fault Refusal :=
  s.act (fun d =>
    match d.arriving i with
    | some ⟨_, .core c, .write t⟩ =>
      let off := (d.halfBytes c t.handle t.half).1 + t.off
      let settle (d : Dev) : Dev := if t.writer < 72 then d.settle t.writer else d
      if d.suAway c t.writer then (d.taken i).freezeWriter t.writer 0x0710 fHandle t.task t.pc (addrArgs (spAddr c off))
      else if !d.writeAccepted c t then
        settle ((d.taken i).freezeWriter t.writer 0x0713 fHandle t.task t.pc (remoteArgs c t.tcore t.handle))
      else if d.anyGated c off t.data.length then
        settle ((d.taken i).freezeWriter t.writer 0x0711 fBankOff t.task t.pc (addrArgs (spAddr c off)))
      else if d.anyWaking c off t.data.length then d
      else settle (((d.taken i).writeOwn c off t.aow t.data).markPoison c off t.bad)
    | some ⟨_, .none, .write t⟩ =>
      let d := (d.taken i).freezeWriter t.writer 0x0713 fHandle t.task t.pc [t.tcore, t.handle]
      if t.writer < 72 then d.settle t.writer else d
    | _ => d)

/-- CREDIT_RETURN (R149): added to the route's count, saturating at 16,383; a waiting transaction goes on. -/
def execCreditReturn (i : Nat) (s : State) : Host.Outcome State Fault Refusal :=
  s.act (fun d =>
    match d.arriving i with
    | some ⟨_, .core c, .credit r n⟩ =>
      let d := d.taken i
      let v := d.rd (Reg.SP_OUTRT_CRED.at (cix c [r])) + n
      let d := d.setIf (Reg.SP_CREDIT_SAT.at (cix c)) (16383 < v)
      (d.wr (Reg.SP_OUTRT_CRED.at (cix c [r])) (min v 16383)).resumeVec c
    | some ⟨_, .su u, .credit r n⟩ =>
      let d := d.taken i
      Dev.seamCredit (u := u) <| upTo 8 (fun p d =>
        if d.bit (Reg.SU_RT_VALID.at (six u [p])) && d.rd (Reg.SU_RT_ROUTE.at (six u [p])) = r then
          let v := d.rd (Reg.SU_RT_CRED.at (six u [p])) + n
          let d := d.setIf (Reg.SU_CREDIT_SAT.at (six u)) (16383 < v)
          let waits := d.bit (Reg.SU_RT_WAITING.at (six u [p]))
          ((d.wr (Reg.SU_RT_CRED.at (six u [p])) (min v 16383)).set (Reg.SU_RT_WAITING.at (six u [p])) false).onSu u
            (fun q => { q with stalled := q.stalled && !waits })
        else d) d
    | some ⟨_, .be e, .credit r n⟩ =>
      { d.taken i with beCredits := Tab.modify 0 d.beCredits (e * 16 + r) (fun v => min (v + n) 16383) }
    | _ => d)

/-- TAG_VISIBLE (R92, R99): a waiting task whose tag is now seen becomes READY and may displace the running one. -/
def execTagVisible (c : Fin 72) (slot : Fin 128) (s : State) : Host.Outcome State Fault Refusal :=
  s.act (fun d => if d.coreUp c then d.wake c slot else d)

/-- TAKE_RESPONSE (R94): tile index and generation, or 0xFFFF_FFFF and 0. An answer that no task waits for is discarded (R104). -/
def execTakeResponse (i : Nat) (s : State) : Host.Outcome State Fault Refusal :=
  s.act (fun d =>
    match d.arriving i with
    | some ⟨_, .core c, .takeResp t idx gen⟩ =>
      match (d.task c t).wait with
      | .take gd => (((d.taken i).onTask c t (fun k => (k.setG gd idx).setG (gd + 1) gen))).makeReady c t
      | _ => d.taken i
    | _ => d)

/-- DONE_RESPONSE (R94, R210): acceptance in G[GD] and completion of the stripe in G[GD + 1]. An answer that no task waits for is discarded (R104). -/
def execDoneResponse (i : Nat) (s : State) : Host.Outcome State Fault Refusal :=
  s.act (fun d =>
    match d.arriving i with
    | some ⟨_, .core c, .doneResp t a b⟩ =>
      match (d.task c t).wait with
      | .done gd => (((d.taken i).onTask c t (fun k => (k.setG gd a).setG (gd + 1) b))).makeReady c t
      | _ => d.taken i
    | _ => d)

/-- TASK_STALL (R107): once per wait episode, when WAIT_LIMIT is not 0. -/
def execTaskStall (c : Fin 72) (t : Fin 8) (s : State) : Host.Outcome State Fault Refusal :=
  s.act (fun d =>
    if (d.tstate c t = tWaitTag || d.tstate c t = tWaitCredit) && !(d.task c t).stalled &&
        d.rd (Reg.MC_WAIT_LIMIT.at (cix c)) != 0 then
      let d := (d.onTask c t (fun k => { k with stalled := true })).wrFree (Reg.TASK_WAITCYC.at (cix c [t]))
      d.raise 0x0140 0 c
    else d)

/-- ZFILL_DONE (R154): the half holds zeros, the slot is EMPTY, credits return; then the updates that came meanwhile are applied (R145). -/
def execZfillDone (c : Fin 72) (slot : Fin 128) (s : State) : Host.Outcome State Fault Refusal :=
  s.act (fun d =>
    match (d.core c).zfills.find? (fun z => z.slot = slot.val) with
    | none => d
    | some z =>
      let h := slot.val / 2
      let r := d.halfBytes c h (slot.val % 2)
      let d := d.onCore c (fun k => { k with zfills := k.zfills.filter (fun q => q.slot ≠ slot.val) })
      let d := { d with mem := d.mem.filter (fun e => !(spAddr c r.1 ≤ e.1 && e.1 < spAddr c r.1 + r.2)) }
      let d := { d with ecc := d.ecc.filter (fun e => !(spAddr c r.1 ≤ e.1 * 8 && e.1 * 8 < spAddr c r.1 + r.2)) }
      let d := (d.wr (Reg.SLOT_FULL.at (cix c [slot.val])) 0).wr (Reg.SLOT_GEN.at (cix c [slot.val])) z.gen
      z.queued.foldl (fun d u => d.applyTag c u) ((d.returnCredits c h).wake c slot))

/-- Sets the ready bit of a bank (R157). -/
def Dev.setBankOn (d : Dev) (c b : Nat) (on : Bool) : Dev :=
  if b < 32 then d.setBit (Reg.SP_BANK_ON_LO.at (cix c)) b on else d.setBit (Reg.SP_BANK_ON_HI.at (cix c)) (b - 32) on

/-- Removes everything a bank holds, in all 132 of its physical rows (R155, R157). -/
def Dev.clearBank (d : Dev) (c b : Nat) : Dev :=
  let lo := spAddr c (b * 65536)
  { d with mem := d.mem.filter (fun e => !(lo ≤ e.1 && e.1 < lo + 65536)),
           ecc := d.ecc.filter (fun e => !(lo ≤ e.1 * 8 && e.1 * 8 < lo + 65536)) }.onCore c (fun k =>
             { k with ecc := k.ecc.filter (fun e => !(rowKey b 0 ≤ e.1 && e.1 < rowKey (b + 1) 0)) })

/-- Whether a write for a bank is still in flight (R155). -/
def Dev.bankWrites (d : Dev) (c b : Nat) : Bool :=
  d.fabric.any (fun m => match m.dst, m.body with
    | .core k, .write t => k = c && (banksOf ((d.halfBytes c t.handle t.half).1 + t.off) t.data.length).contains b
    | _, _ => false)

/-- Whether a message is a report of unused credits to core `c` (R150). -/
def Msg.reportTo (c : Nat) (m : Msg) : Bool :=
  m.dst = .core c && (match m.body with
    | .unused _ _ => true
    | _ => false)

/-- Takes the reports of unused credits that have reached core `c` into its outstanding-write counts: a report passes no earlier message of its writer (R93, R150, R155). -/
def Dev.takeReports (d : Dev) (c : Nat) : Dev :=
  d.fabric.foldl (fun d m =>
    if !m.reportTo c || d.fabric.any (fun e => e.src = m.src && e.dst = m.dst && !e.reportTo c) then { d with fabric := d.fabric ++ [m] }
    else match m.body with
      | .unused bs n => d.onCore c (fun k => { k with owed := bs.foldl (fun t b => Tab.modify 0 t b (· - n)) k.owed })
      | _ => d) { d with fabric := [] }

/-- PG_POWER_DOWN (R150, R155): the outstanding-write count has reached zero; the bank powers down and loses its contents. -/
def execPgPowerDown (c : Fin 72) (b : Fin 48) (s : State) : Host.Outcome State Fault Refusal :=
  s.act (fun d =>
    let d := d.takeReports c
    if Tab.get 0 (d.core c).pgWait b = 1 && Tab.get 0 (d.core c).owed b = 0 && !d.bankWrites c b then
      ((d.onCore c (fun k => { k with pgWait := Tab.put 0 k.pgWait b 0 })).setBankOn c b false).clearBank c b
    else d)

/-- PG_TIMEOUT (R155): the bank stays powered, and the power-down is tried again at a later frame boundary. -/
def execPgTimeout (c : Fin 72) (b : Fin 48) (s : State) : Host.Outcome State Fault Refusal :=
  s.act (fun d =>
    if Tab.get 0 (d.core c).pgWait b = 1 then
      let d := d.onCore c (fun k => { k with pgWait := Tab.put 0 k.pgWait b 2 })
      (d.set (Reg.SP_PG_TIMEOUT.at (cix c)) true).raise 0x0712 0 c
    else d)

/-- BANK_FILL_DONE (R157): a woken bank holds zeros and is ready; BAR2 reads that waited for it are answered. -/
def execBankFillDone (c : Fin 72) (b : Fin 48) (s : State) : Host.Outcome State Fault Refusal :=
  s.act (fun d =>
    if d.bankWaking c b then
      ((d.clearBank c b).onCore c (fun k => { k with waking := k.waking.filter (fun q => q ≠ b.val) })).setBankOn c b true |>.answerReads
    else d)

/-- Logical row a physical row holds, or none for a spare that is free or a row that was replaced (R132, R161). -/
def Dev.rowAt (d : Dev) (c b p : Nat) : Option Nat :=
  if p < 128 then (if d.physRow c b p = p then some p else none)
  else if d.bit (Reg.SP_REMAP_VALID.at (cix c [b, p - 128])) then some (d.rd (Reg.SP_REMAP_ROW.at (cix c [b, p - 128]))) else none

/-- Scrubs word `w` of physical row `p` of a bank, a row that holds no logical row: a spare not in use, or one that was replaced (R158 to R160). No row of the repair table answers for it. -/
def Dev.scrubIdle (d : Dev) (c b p w : Nat) : Dev :=
  let key := rowKey b p + w
  let last (d : Dev) (ded : Bool) : Dev := ((d.wr (Reg.SP_ECC_BANK.at (cix c)) b).wr (Reg.SP_ECC_PROW.at (cix c)) p).set (Reg.SP_ECC_WAS_DED.at (cix c)) ded
  let m := Tab.get 0 (d.core c).ecc key
  if m = 1 then
    last (((d.onCore c (fun k => { k with ecc := Tab.put 0 k.ecc key 0 })).incSat (Reg.SP_ECC_CORR_CNT.at (cix c))).set (Reg.SP_ECC_CORR.at (cix c)) true) false
  else if m = 2 then last ((d.raise 0x0720 8 0).set (Reg.SP_ECC_DED.at (cix c)) true) true
  else d

/-- SP_SCRUB (R159, R160): the next of the 132 physical rows; corrections follow R158 and a double-bit error raises event 0x0720. -/
def execSpScrub (c : Fin 72) (b : Fin 48) (s : State) : Host.Outcome State Fault Refusal :=
  s.act (fun d =>
    if d.bankGated c b || d.bankWaking c b then d
    else
      let p := Tab.get 0 (d.core c).scrubRow b
      let d := d.onCore c (fun k => { k with scrubRow := Tab.put 0 k.scrubRow b ((p + 1) % 132) })
      match d.rowAt c b p with
      | none => upTo 64 (fun w d => d.scrubIdle c b p w) d
      | some j =>
        (wordsOf (b.val * 65536 + j * 512) 512).foldl (fun d w =>
          let m := Tab.get 0 d.ecc (spAddr c w / 8)
          if m = 1 then d.spCorrect c w
          else if m = 2 then ((d.raise 0x0720 8 0).set (Reg.SP_ECC_DED.at (cix c)) true).spEccLast c w true
          else d) d)

end Sys2Proof.Machine
end

