-- ==== Sys2Proof/Machine/StreamUnit.lean ====
section
/-! DEFINITION. Stream units: instructions, requests, transfers, releases, launches and faults (R165 to R185, R193). -/

namespace Sys2Proof.Machine

/-! ### Registers and addresses -/

def Su.nv (s : Su) (i : Nat) : Word := Tab.get 0 s.n i
def Su.xv (s : Su) (i : Nat) : Ptr := Tab.get {} s.x i
def Su.lcv (s : Su) (i : Nat) : LoopReg := Tab.get ⟨0, 0, 0⟩ s.lc i

/-- Effective address of pointer `p` (R166): none when it leaves the 48-bit range. -/
def Su.ea (s : Su) (p : Nat) : Int :=
  let x := s.xv p
  (List.range 4).foldl (fun acc j => acc + (if s.nest.contains j then ((Tab.get 0 s.iter j : Nat) : Int) else 0) * Tab.get 0 x.str j) (x.base : Int)

/-- A signed sum that is a device address. -/
def devAddr (a : Int) : Option Nat := if 0 ≤ a ∧ a < 2 ^ 48 then some a.toNat else none

/-! ### Work in order -/

/-- A transfer that fetches a STREAMED slice for the rotation stop of the unit's cluster (R216): no work of the unit's own program. -/
def Transfer.ring (t : Transfer) : Bool :=
  match t.dest with
  | .ring _ _ _ => true
  | _ => false

/-- Place that releases of the rotation stop take among those of a unit's ports. -/
def ringPort : Nat := 16

/-- Work for the rotation stop. -/
def SuItem.ring : SuItem → Bool
  | .xfer t => t.ring
  | .rel r => r.port = ringPort

/-- Nothing more of a transfer is outstanding. -/
def Transfer.over (t : Transfer) : Bool := t.toIssue.isEmpty && t.flying.isEmpty && t.txns.isEmpty && !t.vectors

/-- A transfer still has requests to issue: the instruction holds issue (R172). -/
def Transfer.issuing (t : Transfer) : Bool := !t.toIssue.isEmpty || t.vectors

def SuItem.issuing : SuItem → Bool
  | .xfer t => t.issuing
  | .rel _ => false

/-- A write of stream unit `u` in flight. -/
def Dev.suWrites (d : Dev) (u : Nat) : Bool :=
  d.fabric.any (fun m => match m.body with
    | .write t => t.writer = 0x100 + u
    | _ => false)

/-- Every read has returned and every write is complete (R171 FENCE, R174 drain): a write to a Beacon port is when its slot is acknowledged (log 39). -/
def Dev.suQuiet (d : Dev) (u : Nat) : Bool :=
  (d.su u).work.all SuItem.ring && !d.suWrites u &&
    (d.su u).acks.all (fun a => (d.tx a.1 a.2).txns.isEmpty && decide ((d.tx a.1 a.2).ackAt ≤ d.time))

/-! ### Token bucket (R183) -/

/-- Brings the bucket up to now: units of 1/64,000 token, RATE of them per nanosecond, BURST tokens at most. -/
def Dev.refill (d : Dev) (u : Nat) : Dev :=
  let rate := d.rd (Reg.SU_RATE.at (six u))
  let cap := d.rd (Reg.SU_BURST.at (six u)) * 64000
  d.onSu u (fun s => { s with bucket := min cap (s.bucket + rate * (d.time - s.bucketAt)), bucketAt := d.time })

/-- Read tags a stream unit holds. -/
def Dev.tagsHeld (d : Dev) (u : Nat) : Nat :=
  ((d.su u).work.map (fun i => match i with
    | .xfer t => (t.flying.filter Req.tag).length
    | .rel _ => 0)).foldl (· + ·) 0

/-- Read tags a stream unit may hold (R182). -/
def Dev.tagLimit (d : Dev) (u : Nat) : Nat :=
  let v := d.rd (Reg.SU_TAGLIM.at (six u))
  if v = 0 || 64 < v then 64 else v

/-- A read tag is to be had (R182): below TAGRES always; above, from the shared pool below TAGLIM, and no unit waiting on the pool comes first. -/
def Dev.tagFree (d : Dev) (u : Nat) : Bool :=
  let n := u / 16
  let res (k : Nat) : Nat := d.rd (Reg.SU_TAGRES.at [n, k])
  let held (k : Nat) : Nat := d.tagsHeld (n * 16 + k)
  let pool := 512 - ((List.range 16).map res).foldl (· + ·) 0
  let used := ((List.range 16).map (fun k => held k - res k)).foldl (· + ·) 0
  let dl (k : Nat) : Int := toSigned 32 (d.rd (Reg.SU_DL.at [n, k]) + 2 ^ 32 - d.time % 2 ^ 32)
  let mine := u % 16
  held mine < d.tagLimit u && (held mine < res mine ||
    (used < pool && (List.range 16).all (fun k => k = mine || d.suState (n * 16 + k) != suWaitRtag || d.tagLimit (n * 16 + k) ≤ held k ||
      decide (dl mine < dl k) || (decide (dl mine = dl k) && decide (mine < k)))))

/-! ### Legality (R169, R170) -/

def suOpcodes : List Nat := [0, 1, 2, 3, 4, 5, 6, 7, 8, 9, 10, 11, 12]

def suLegal (x : IWord) (pc : Nat) : Bool :=
  match ifld x 0 8 with
  | 0x00 => zeros x [(8, 120)]
  | 0x01 => zeros x [(8, 120)]
  | 0x0C => zeros x [(8, 120)]
  | 0x02 => pc < ifld x 16 5 && zeros x [(13, 3), (21, 11), (48, 80)]
  | 0x03 => zeros x [(13, 3), (20, 44), (112, 16)]
  | 0x04 => zeros x [(13, 19), (64, 64)]
  | 0x05 => zeros x [(11, 21), (64, 64)]
  | 0x06 => zeros x [(8, 24), (64, 64)]
  | 0x07 => (ifld x 11 1 = 0 || ifld x 8 3 ≤ 3) && ifld x 13 2 ≤ 2 && ifld x 16 2 ≤ 2 && zeros x [(18, 14), (48, 80)]
  | 0x08 =>
    ifld x 21 2 ≤ 2 && (ifld x 23 1 = 0 || ifld x 11 1 = 1) &&
      (ifld x 21 2 = 0 || (ifld x 17 1 = 1 && (ifld x 24 16 + 1) % 4 = 0)) && zeros x [(52, 12)]
  | 0x09 => (ifld x 22 1 = 0 || ifld x 11 1 = 1) && 1 ≤ ifld x 23 4 && ifld x 23 4 ≤ 5 && zeros x [(28, 4)]
  | 0x0A => ifld x 21 2 ≤ 2 && ifld x 45 13 % 8 = 0 && zeros x [(29, 3)]
  | 0x0B => zeros x [(8, 24), (58, 6)]
  | _ => false

/-! ### Issue -/

/-- An issuing instruction of a stream unit. -/
structure SuCtx where
  u : Nat
  pc : Nat
  ins : IWord
  s : Su
  deriving DecidableEq, Repr

def SuCtx.f (x : SuCtx) (lo w : Nat) : Nat := ifld x.ins lo w

/-- Whether the unit can issue its next instruction (R172): it runs, no earlier instruction still issues requests, and no FENCE is open. -/
def Dev.suReady (d : Dev) (u : Nat) : Bool :=
  let st := d.suState u
  decide (suRun ≤ st) && decide (st ≤ suWaitReg) && !(d.su u).work.any (fun i => i.issuing && !i.ring) && (!(d.su u).fence || d.suQuiet u)

/-- The unit issues the instruction at its PC when its opcode is `op`; an unassigned opcode or an illegal instruction faults (R169, R175). -/
def Dev.suIssue (d : Dev) (u op : Nat) (f : SuCtx → Dev → Dev) : Dev :=
  if !d.suReady u then d
  else
    let pc := d.rd (Reg.SU_PC.at (six u))
    let d := (d.setSuState u suRun).onSu u (fun s => { s with fence := false })
    let x : SuCtx := ⟨u, pc, Tab.get 0 (d.su u).prog pc, d.su u⟩
    if !(suOpcodes.contains (x.f 0 8)) then d.faultSu u 1 pc
    else if x.f 0 8 ≠ op then d
    else if !suLegal x.ins pc then d.faultSu u 1 pc
    else f x d

/-- Loops that end at `pc` (R90, R171): the unit with its loops served and the next index. -/
def suServe (s : Su) (pc : Nat) : List Nat → Su × List Nat × Nat
  | [] => (s, [], pc + 1)
  | i :: rest =>
    let l := s.lcv i
    if l.stop = pc then
      if 1 < l.count then
        ({ s with lc := Tab.put ⟨0, 0, 0⟩ s.lc i { l with count := l.count - 1 }, iter := Tab.put 0 s.iter i (Tab.get 0 s.iter i + 1) },
          i :: rest, l.start)
      else suServe s pc rest
    else (s, i :: rest, pc + 1)

/-- PC moves past index `at_`; passing control to index 32 is PC_RANGE (R171). -/
def Dev.suAdvance (d : Dev) (u at_ : Nat) : Dev :=
  let s := d.su u
  let r := suServe s at_ s.nest
  let d := d.onSu u (fun _ => { r.1 with nest := r.2.1 })
  if 32 ≤ r.2.2 then d.faultSu u 2 31 else d.wr (Reg.SU_PC.at (six u)) r.2.2

/-- An instruction that executes at issue and changes only the unit's registers. -/
def Dev.suRegs (d : Dev) (u op : Nat) (f : SuCtx → Su → Su) : Dev :=
  d.suIssue u op (fun x d => (d.onSu u (f x)).suAdvance u x.pc)

/-- SU_NOP (R169). -/
def execSuNop (u : Fin 128) (s : State) : Host.Outcome State Fault Refusal := s.act (fun d => d.suRegs u 0x00 (fun _ q => q))

/-- SU_END (R174): the run ends after its drain. -/
def execSuEnd (u : Fin 128) (s : State) : Host.Outcome State Fault Refusal :=
  s.act (fun d => d.suIssue u 0x01 (fun _ d => (d.onSu u (fun q => { q with nest := [] })).setSuState u suDrain))

/-- SU_LOOP (R90, R171). -/
def execSuLoop (u : Fin 128) (s : State) : Host.Outcome State Fault Refusal :=
  s.act (fun d => d.suIssue u 0x02 (fun x d =>
    let i := x.f 8 2
    let stop := x.f 16 5
    let count := if x.f 10 1 = 0 then x.f 32 16 + 1 else (x.s.nv (x.f 11 2)).toNat
    if x.s.nest.contains i || x.s.nest.any (fun j => (x.s.lcv j).stop < stop) then d.faultSu u 3 x.pc
    else if count = 0 then d.suAdvance u stop
    else
      let d := d.onSu u (fun q =>
        { q with lc := Tab.put ⟨0, 0, 0⟩ q.lc i ⟨count, x.pc + 1, stop⟩, nest := i :: q.nest, iter := Tab.put 0 q.iter i 0 })
      d.wr (Reg.SU_PC.at (six u)) (x.pc + 1)))

/-- Key of the base latched for a pipeline and stream: 2 * (16 * pipeline + stream), plus 1 for the older frame (R171). -/
def latchKey (p s : Nat) (older : Bool) : Nat := 2 * (16 * p + s) + (if older then 1 else 0)

/-- PSET (R171): BASE wraps at 48 bits. -/
def execPset (u : Fin 128) (s : State) : Host.Outcome State Fault Refusal :=
  s.act (fun d =>
    let p := d.rd (Reg.SU_PIPELINE.at (six u))
    d.suRegs u 0x03 (fun x q =>
      let xd := x.f 8 3
      let imm := toSigned 48 (x.f 64 48)
      let base : Int := match x.f 11 2 with
        | 0 => (x.f 64 48 : Int)
        | 1 => ((q.xv xd).base : Int) + imm
        | 2 => ((Tab.get 0 d.latched (latchKey p (x.f 16 4) false) : Nat) : Int) + imm
        | _ => ((Tab.get 0 d.latched (latchKey p (x.f 16 4) true) : Nat) : Int) + imm
      { q with x := Tab.put {} q.x xd { q.xv xd with base := ofSigned 48 base } }))

/-- PSTR (R171). -/
def execPstr (u : Fin 128) (s : State) : Host.Outcome State Fault Refusal :=
  s.act (fun d => d.suRegs u 0x04 (fun x q =>
    let p := q.xv (x.f 8 3)
    { q with x := Tab.put {} q.x (x.f 8 3) { p with str := Tab.put 0 p.str (x.f 11 2) (toSigned 32 (x.f 32 32)) } }))

/-- NSET (R171). -/
def execNset (u : Fin 128) (s : State) : Host.Outcome State Fault Refusal :=
  s.act (fun d => d.suRegs u 0x05 (fun x q =>
    let i := x.f 8 2
    let imm := BitVec.ofNat 32 (x.f 32 32)
    { q with n := Tab.put 0 q.n i (if x.f 10 1 = 0 then imm else q.nv i + imm) }))

/-- DLADD (R171). -/
def execDladd (u : Fin 128) (s : State) : Host.Outcome State Fault Refusal :=
  s.act (fun d => d.suIssue u 0x06 (fun x d =>
    (d.wr (Reg.SU_DL.at (six u)) (d.rd (Reg.SU_DL.at (six u)) + x.f 32 32)).suAdvance u x.pc))

/-- FRAME (R165, R171). -/
def execFrame (u : Fin 128) (s : State) : Host.Outcome State Fault Refusal :=
  s.act (fun d => d.suRegs u 0x0B (fun x q =>
    { q with fw := x.f 32 13, fh := x.f 45 13, fpitch := BitVec.ofNat 32 (x.f 64 32), ppitch := BitVec.ofNat 32 (x.f 96 32) }))

/-- FENCE (R171): later instructions wait until every earlier read has returned and every earlier write is complete. -/
def execFence (u : Fin 128) (s : State) : Host.Outcome State Fault Refusal :=
  s.act (fun d => d.suIssue u 0x0C (fun x d => (d.onSu u (fun q => { q with fence := true })).suAdvance u x.pc))

/-! ### Releases and writes -/

/-- Whether an item keeps a later release of a port waiting (R173). -/
def SuItem.holds (r : SuRelease) : SuItem → Bool
  | .rel q => q.port = r.port && q.watch = r.watch
  | .xfer t =>
    if r.watch then (t.toIssue ++ t.flying).any (fun q => q.wp = some r.port)
    else match t.dest with
      | .route p _ => p = r.port && (!t.txns.isEmpty || t.issuing)
      | .ring c _ half => r.port = ringPort && c = r.upd.tcore && half = r.upd.half
      | .plain => false

/-- One byte of the data a transfer has received. -/
def Transfer.byteAt (t : Transfer) (a : Nat) : Option Byte :=
  t.got.findSome? (fun g => if g.1 ≤ a ∧ a < g.1 + g.2.length then g.2[a - g.1]? else none)

/-- `n` bytes of the data a transfer has received, little-endian. -/
def Transfer.leAt (t : Transfer) (a n : Nat) : Option Nat :=
  (List.range n).foldl (fun acc i => match acc, t.byteAt (a + i) with
    | some v, some b => some (v + b.toNat * 256 ^ i)
    | _, _ => none) (some 0)

/-- Address of the vector of output pixel (x, y) (R177). -/
def GatherArgs.vecAddr (g : GatherArgs) (x y : Nat) : Nat := g.xv + y / 8 * ifld g.ins 64 32 + x / 8 * 4

/-- A vector component clamped to 256 pixels, and whether it was (R177). -/
def clampVec (raw : Nat) : Int × Bool :=
  let v := toSigned 16 raw
  (min (max v (-4096)) 4096, decide (v < -4096) || decide (4096 < v))

/-- Sample positions and weights of output pixel (x, y) (R178): i, i1, fx, j, j1, fy. -/
def GatherArgs.position (g : GatherArgs) (vec x y : Nat) : Nat × Nat × Nat × Nat × Nat × Nat :=
  let dx := (clampVec (vec % 65536)).1
  let dy := (clampVec (vec / 65536)).1
  let fw := g.fw + 1
  let fh := g.fh + 1
  let sx := (min (max ((x : Int) * 32 + (if ifld g.ins 25 1 = 1 then dx else 2 * dx)) 0) (((fw - 1) * 32 : Nat) : Int)).toNat
  let sy := (min (max ((y : Int) * 32 + (if ifld g.ins 26 1 = 1 then dy else 2 * dy)) 0) (((fh - 1) * 32 : Nat) : Int)).toNat
  (sx / 32, min (sx / 32 + 1) (fw - 1), sx % 32, sy / 32, min (sy / 32 + 1) (fh - 1), sy % 32)

def GatherArgs.esize (g : GatherArgs) : Nat := if ifld g.ins 21 2 = 0 then 1 else 2
def GatherArgs.chans (g : GatherArgs) : Nat := ifld g.ins 23 2 + 1

/-- Address of source element (a, b) of channel `ch` (R178). -/
def GatherArgs.elem (g : GatherArgs) (a b ch : Nat) : Nat := g.xs + b * g.fpitch + (a * g.chans + ch) * g.esize

/-- The source elements of one output element. -/
def GatherArgs.taps (g : GatherArgs) (vec x y ch : Nat) : List (Nat × Nat) :=
  match g.position vec x y with
  | (i, i1, fx, j, j1, fy) =>
    [((32 - fx) * (32 - fy), g.elem i j ch), (fx * (32 - fy), g.elem i1 j ch), ((32 - fx) * fy, g.elem i j1 ch), (fx * fy, g.elem i1 j1 ch)]

/-- The interpolated element (R178). -/
def GatherArgs.value (g : GatherArgs) (l : List (Nat × Nat)) : Nat :=
  if ifld g.ins 21 2 = 2 then
    let s := l.foldl (fun acc p => acc.add ((Num.ofInt p.1).mul (FFmt.fp16.decode p.2))) (Num.fin false 0 0)
    (outConv 5 (round32 ((num32 (round32 s)).scale (-10)))).1
  else rneShift (l.foldl (fun acc p => acc + p.1 * p.2) 0) 10

/-- Addresses one source byte needs: none while the vector of a gathered pixel is not known. -/
def Transfer.needs (t : Transfer) : Source → Option (List Nat)
  | .byte a => some [a]
  | .sample x y ch _ =>
    match t.gather with
    | none => some []
    | some g => (t.leAt (g.vecAddr x y) 4).map (fun v => (g.taps v x y ch).flatMap (fun p => (List.range g.esize).map (fun i => p.2 + i)))

/-- The value of one source byte, once its data is there. -/
def Transfer.valueOf (t : Transfer) : Source → Option Byte
  | .byte a => t.byteAt a
  | .sample x y ch b =>
    match t.gather with
    | none => none
    | some g =>
      match t.leAt (g.vecAddr x y) 4 with
      | none => none
      | some v =>
        let l := (g.taps v x y ch).map (fun p => (t.leAt p.2 g.esize).map (fun e => (p.1, e)))
        if l.all Option.isSome then some (BitVec.ofNat 8 (g.value (l.filterMap id) / 256 ^ b)) else none

/-- Every request a byte needs has been issued: nothing of it is left in `toIssue`. -/
def Transfer.fetched (t : Transfer) (src : Source) : Bool :=
  match t.needs src with
  | none => false
  | some l => l.all (fun a => !t.toIssue.any (fun r => r.addr ≤ a && a < r.addr + r.len))

/-- Transactions of a transfer whose write requests have been issued: the leading ones with nothing left to fetch (R172). -/
def Transfer.issued (t : Transfer) : List TxnPlan := t.txns.takeWhile (fun p => p.opened && p.srcs.all t.fetched)

/-- A transaction touches a granule from `g` to `h`. -/
def TxnPlan.touches (p : TxnPlan) (g h : Nat) : Bool := decide (p.off / 256 ≤ h) && decide (g ≤ (p.off + p.srcs.length - 1) / 256)

/-- An item holds an issued plain write, not yet performed, to a granule from `g` to `h` (R173). -/
def SuItem.writes (g h : Nat) : SuItem → Bool
  | .xfer t => t.dest = .plain && t.issued.any (fun p => p.touches g h)
  | .rel _ => false

/-- A plain write of a stream unit to a device address (R34, R35, R141, R156, R190, R298, R332); none while it has to wait: for reads of its granule that came before it, for a
place in a write queue, for a bank that wakes, for the link to the host (R157, R173, R186, R391). A write of the host window that fails is discarded (R391). -/
def Dev.suPlain (d : Dev) (u : Nat) (t : Transfer) (deadline a : Nat) (data : Bytes) (bad : List Nat) : Option Dev :=
  match d.region a with
  | .ddr =>
    let blocked := (d.su u).work.any (fun i => match i with
      | .xfer q => q.flying.any (fun r => !r.served && decide (a / 256 ≤ r.addr / 256) && decide (r.addr / 256 ≤ (a + data.length - 1) / 256))
      | .rel _ => false)
    if blocked || !d.roomFor (0x100 + u) a data.length then none
    else
      let d := ((d.ddrWrite a data bad 0 (0x100 + u)).scUpdate (u / 16) a data bad).askWrites (0x100 + u) deadline a data.length
      some (d.onSu u (fun s => { s with bytes := trunc 64 (s.bytes + data.length) }))
  | .sp c off =>
    if d.mcState c = mcOff || d.mcState c = mcRetired then some (d.violateSu u 0x0710 t.pc (addrArgs a))
    else if d.anyShut c off data.length then
      some (d.violateSu u 0x0711 t.pc (addrArgs a))
    else if d.anyWaking c off data.length then none
    else some ((d.spWrite c off data).markPoison c off bad)
  | .lantern _ => some ((d.inc (Reg.LAN_DENIED.at [])).violateSu u 0x0420 t.pc [])
  | .lineBuf _ _ => some ((d.setBytes a data).markWords a data.length bad)
  | .beacon p off =>
    let q := off / 0x100000
    some ((d.formTx p q (off % 0x100000) data bad).onSu u (fun s => { s with acks := if s.acks.contains (p, q) then s.acks else s.acks ++ [(p, q)] }))
  | .host h =>
    if d.hostReady then some ((d.hostWrite (d.hostAddr h) data bad).onSu u (fun s => { s with bytes := trunc 64 (s.bytes + data.length) }))
    else if d.host.failing = some a then some { d with host := { d.host with failing := none } }
    else none
  | .unmapped => some (d.violateSu u 0x0710 t.pc (addrArgs a))

/-- Writes one complete transaction (R167, R172); none while it has to wait. -/
def Dev.suWriteTxn (d : Dev) (u : Nat) (t : Transfer) (deadline : Nat) (p : TxnPlan) (data : Bytes) : Option Dev :=
  let bad := (List.range p.srcs.length).filter (fun i => match p.srcs[i]? with
    | some src => ((t.needs src).getD []).any (fun a => t.bad.contains a)
    | none => false)
  match t.dest with
  | .plain => d.suPlain u t deadline p.off data bad
  | .route r half =>
    let i := six u [r]
    some (d.sendTxn (.su u)
      ⟨0x100 + u, t.aow, some (d.rd (Reg.SU_RT_ROUTE.at i)), d.rd (Reg.SU_RT_TCORE.at i), d.rd (Reg.SU_RT_THANDLE.at i), half, p.off,
        data, 0, t.pc, bad⟩)
  | .ring c h half =>
    some ((d.send (.ring (u / 16)) (.core c) (.write ⟨c, 0, none, c, h, half, p.off, data, 0, 0, bad⟩)).inc (Reg.CL_RING_BYTES.at [u / 16]) data.length)

/-- Writes the leading transactions of a transfer whose data is complete, in ascending order (R172), while no write of `before` to their granules waits (R173). -/
def Dev.suEmit (d : Dev) (u : Nat) (before : List SuItem) (t : Transfer) (deadline : Nat) : List TxnPlan → Dev × List TxnPlan
  | [] => (d, [])
  | p :: rest =>
    let vals := p.srcs.map t.valueOf
    let behind := t.dest = .plain && before.any (SuItem.writes (p.off / 256) ((p.off + p.srcs.length - 1) / 256))
    if p.opened && vals.all Option.isSome && d.suState u != suFrozen && !behind then
      match d.suWriteTxn u t deadline p (vals.filterMap id) with
      | none => (d, p :: rest)
      | some d => d.suEmit u before t deadline rest
    else (d, p :: rest)

/-- Item `i` of the unit's work, written as far as it goes or applied, after `done`, the places of items before it that are over. -/
def Dev.suFlushItem (d : Dev) (u i : Nat) (done : List Nat) : Dev × List Nat :=
  let before := (List.range i).filterMap (fun j => if done.contains j then none else (d.su u).work[j]?)
  match (d.su u).work[i]? with
  | some (.xfer t) =>
    let e := d.suEmit u before t (d.rd (Reg.SU_DL.at (six u))) t.txns
    let left (x : SuItem) : SuItem := match x with
      | .xfer q => .xfer { q with txns := e.2 }
      | .rel q => .rel q
    (e.1.onSu u (fun s => { s with work := s.work.modify i left }), if { t with txns := e.2 }.over then done ++ [i] else done)
  | some (.rel q) =>
    if before.any (SuItem.holds q) then (d, done)
    else (if q.port = ringPort then d.send (.ring (u / 16)) (.core q.upd.tcore) (.tag q.upd) else d.sendTag (.su u) q.upd, done ++ [i])
  | none => (d, done)

/-- Goes through the unit's work in order: writes what is complete, applies the releases that nothing earlier holds (R172, R173). -/
def Dev.suFlush (d : Dev) (u : Nat) : Dev :=
  let r := (List.range (d.su u).work.length).foldl (fun (acc : Dev × List Nat) i => acc.1.suFlushItem u i acc.2) (d, [])
  r.1.onSu u (fun s => { s with work := (List.range s.work.length).filterMap (fun i => if r.2.contains i then none else s.work[i]?) })

/-- Every unit with work writes what it can: places in queues have become free. -/
def Dev.suFlushAll (d : Dev) : Dev := upTo 128 (fun u d => if (d.su u).work.isEmpty then d else d.suFlush u) d

/-- SU_SETTAG (R171, R173). -/
def execSuSettag (u : Fin 128) (s : State) : Host.Outcome State Fault Refusal :=
  s.act (fun d => d.suIssue u 0x07 (fun x d =>
    let port := x.f 8 3
    let watch := x.f 11 1 = 1
    let i := six u [port]
    let valid := if watch then d.bit (Reg.SU_WP_VALID.at i) else d.bit (Reg.SU_RT_VALID.at i)
    if !valid then d.faultSu u 4 x.pc
    else
      let cur := d.rd (if watch then Reg.SU_WP_CUR_HALF.at i else Reg.SU_RT_CUR_HALF.at i)
      let half := if x.f 16 2 = 2 then cur else x.f 16 2
      let full := x.f 12 1 = 1
      let upd : TagUpd :=
        { writer := 0x100 + u.val,
          route := if watch then (if full then some 16 else none) else some (d.rd (Reg.SU_RT_ROUTE.at i)),
          tcore := d.rd (if watch then Reg.SU_WP_TCORE.at i else Reg.SU_RT_TCORE.at i),
          handle := d.rd (if watch then Reg.SU_WP_THANDLE.at i else Reg.SU_RT_THANDLE.at i),
          half := half, full := full, gmode := x.f 13 2, gen := x.f 32 16, task := 0, pc := x.pc }
      let d := if x.f 15 1 = 1 then d.wr (if watch then Reg.SU_WP_CUR_HALF.at i else Reg.SU_RT_CUR_HALF.at i) (1 - cur) else d
      let d := if watch && !full then
          let e := if half = 0 then Reg.SU_WP_EGEN0.at i else Reg.SU_WP_EGEN1.at i
          d.wr e (d.rd e + 1)
        else d
      ((d.onSu u (fun q => { q with work := q.work ++ [.rel ⟨port, watch, upd⟩] })).suFlush u).suAdvance u x.pc))

/-! ### Transfers -/

/-- Splits a source run at 256-byte granules (R172). -/
def granuleReqs (wp : Option Nat) (a n : Nat) : List Req :=
  (List.range ((a + n + 255) / 256 - a / 256)).map (fun i =>
    let lo := max a ((a / 256 + i) * 256)
    let hi := min (a + n) ((a / 256 + i + 1) * 256)
    ({ addr := lo, len := hi - lo, wp := wp } : Req))

/-- Packs destination runs, given as offset and byte sources, into transactions of at most 512 bytes within a row (R148). -/
def insertRun (e : Int × List Source) : List (Int × List Source) → List (Int × List Source)
  | [] => [e]
  | f :: l => if e.1 < f.1 then e :: f :: l else f :: insertRun e l

def packRuns (l : List (Int × List Source)) : List TxnPlan :=
  let sorted := l.foldl (fun acc e => insertRun e acc) []
  let bytes := sorted.flatMap (fun e => (List.range e.2.length).map (fun i => (e.1.toNat + i, (e.2[i]?).getD (.byte 0))))
  (bytes.foldl (fun (acc : List TxnPlan) b => match acc with
    | [] => [⟨b.1, [b.2], false⟩]
    | p :: rest =>
      if p.off + p.srcs.length = b.1 && b.1 % 512 != 0 then ⟨p.off, p.srcs ++ [b.2], false⟩ :: rest
      else ⟨b.1, [b.2], false⟩ :: p :: rest) []).reverse

/-- Where a source pointer reads: a device address, or half CUR_HALF of a watch port as a device address (R167). -/
def Dev.suSource (d : Dev) (x : SuCtx) (base : Int) (watch : Bool) (port : Nat) (off : Int) (n : Nat) : Option Int :=
  if !watch then some (base + off)
  else
    let i := six x.u [port]
    let o := ofSigned 22 (base + off)
    if (d.rd (Reg.SU_WP_TSIZE.at i) + 1) * 512 < o + n then none
    else
      let c := d.rd (Reg.SU_WP_TCORE.at i)
      let h := d.rd (Reg.SU_WP_THANDLE.at i)
      some ((spAddr c ((d.halfBytes c h (d.rd (Reg.SU_WP_CUR_HALF.at i))).1 + o) : Nat) : Int)

/-- Where a destination pointer writes: a device address, or an offset in the half of a route's handle (R167). -/
def Dev.suTarget (d : Dev) (x : SuCtx) (base : Int) (route : Bool) (port : Nat) (off : Int) (n : Nat) : Option Int :=
  if !route then some (base + off)
  else
    let o := ofSigned 22 (base + off)
    if (d.rd (Reg.SU_RT_TSIZE.at (six x.u [port])) + 1) * 512 < o + n then none else some (o : Int)

/-- Starts a transfer over copy runs: source offset, destination offset, length; each relative to EA(XS) and EA(XD). Its requests read `reads`, the same source bytes as runs
of offset and length, or the copy runs themselves where one of those leaves the half of a watch port. An effective address outside 48 bits is unmapped (R166). -/
def Dev.startCopy (d : Dev) (x : SuCtx) (aow gchk : Nat) (reads : List (Int × Nat)) (runs : List (Int × Int × Nat)) : Dev :=
  let watch := x.f 11 1 = 1
  let sport := x.f 12 2
  let route := x.f 17 1 = 1
  let dport := x.f 18 3
  if (watch && !d.bit (Reg.SU_WP_VALID.at (six x.u [sport]))) || (route && !d.bit (Reg.SU_RT_VALID.at (six x.u [dport]))) then
    d.faultSu x.u 4 x.pc
  else
    let xs := x.s.ea (x.f 8 3)
    let xd := x.s.ea (x.f 14 3)
    let src := runs.map (fun r => (d.suSource x xs watch sport r.1 r.2.2, r.2.2))
    let ahead := reads.map (fun r => (d.suSource x xs watch sport r.1 r.2, r.2))
    let fetch := if ahead.all (fun r => r.1.isSome) then ahead else src
    let dst := runs.map (fun r => d.suTarget x xd route dport r.2.1 r.2.2)
    match [xs, xd].find? (fun a => (devAddr a).isNone) with
    | some a => d.violateSu x.u 0x0710 x.pc (addrArgs (ofSigned 64 a))
    | none =>
    if !(src.all (fun r => r.1.isSome) && dst.all Option.isSome) then d.faultSu x.u 5 x.pc
    else
      match (src.filterMap (fun r => r.1)).find? (fun a => (devAddr a).isNone), (dst.filterMap id).find? (fun a => (devAddr a).isNone) with
      | some a, _ => d.violateSu x.u 0x0710 x.pc (addrArgs (ofSigned 64 a))
      | _, some a => d.violateSu x.u 0x0710 x.pc (addrArgs (ofSigned 64 a))
      | none, none =>
        let half := d.rd (Reg.SU_RT_CUR_HALF.at (six x.u [dport]))
        let reqs := fetch.flatMap (fun r => granuleReqs (if watch then some sport else none) ((r.1.getD 0).toNat) r.2)
        let pairs := (src.zip dst).map (fun p => (p.2.getD 0, (List.range p.1.2).map (fun i => Source.byte ((p.1.1.getD 0).toNat + i))))
        let i := six x.u [sport]
        let g := if gchk = 1 then
            some (d.rd (if d.rd (Reg.SU_WP_CUR_HALF.at i) = 0 then Reg.SU_WP_EGEN0.at i else Reg.SU_WP_EGEN1.at i)) else none
        let t : Transfer :=
          { pc := x.pc, dest := if route then .route dport half else .plain, aow := aow, gchk := g, toIssue := reqs, flying := [],
            txns := packRuns pairs }
        (d.onSu x.u (fun s => { s with work := s.work ++ [.xfer t] })).suAdvance x.u x.pc

/-- MOVE (R171): ROWS rows of ROWBYTES bytes. Accumulation needs addresses that are multiples of 4. -/
def execMove (u : Fin 128) (s : State) : Host.Outcome State Fault Refusal :=
  s.act (fun d => d.suIssue u 0x08 (fun x d =>
    let n := x.f 24 16 + 1
    let sp := toSigned 32 (x.f 64 32)
    let dp := toSigned 32 (x.f 96 32)
    let runs := (List.range (x.f 40 12 + 1)).map (fun (r : Nat) => (r * sp, r * dp, n))
    let aligned := runs.all (fun r => (x.s.ea (x.f 8 3) + r.1) % 4 = 0 && (x.s.ea (x.f 14 3) + r.2.1) % 4 = 0)
    if x.f 21 2 != 0 && !aligned then d.faultSu u 1 x.pc
    else d.startCopy x (x.f 21 2) (x.f 23 1) (runs.map (fun r => (r.1, n))) runs))

/-- Channels of a block of a memory layout: NCHW is blocks of one (R119, R171). -/
def movetBlock (x : SuCtx) : Nat :=
  match x.f 23 4 with
  | 1 => 1
  | 2 => 8
  | 3 => 16
  | 4 => 32
  | _ => 64

/-- Offsets of element (c, y, x) on the memory side and on the NHWC side of MOVET (R171). -/
def movetOffsets (x : SuCtx) (c y px : Nat) : Int × Int :=
  let e := x.f 27 1 + 1
  let chans := x.f 45 9 + 1
  let mp := x.f 64 32
  let np := x.f 96 32
  let pp := x.s.ppitch.toNat
  let b := movetBlock x
  (((c / b * pp + y * mp + (px * b + c % b) * e : Nat) : Int), ((y * np + (px * chans + c) * e : Nat) : Int))

/-- Merges runs of offset and length that follow each other. -/
def mergeRuns (l : List (Int × Nat)) : List (Int × Nat) :=
  (l.foldl (fun (acc : List (Int × Nat)) r => match acc with
    | [] => [r]
    | q :: rest => if q.1 + q.2 = r.1 then (q.1, q.2 + r.2) :: rest else r :: q :: rest) []).reverse

/-- The source bytes of row `y` of a MOVET as contiguous runs, in the order of the source layout (R184, log 148). -/
def movetReads (x : SuCtx) (y : Nat) : List (Int × Nat) :=
  let e := x.f 27 1 + 1
  let chans := x.f 45 9 + 1
  let w := x.f 32 13 + 1
  if x.f 21 1 = 1 then [((movetOffsets x 0 y 0).2, w * chans * e)]
  else
    let b := movetBlock x
    mergeRuns ((List.range ((chans + b - 1) / b)).flatMap (fun k => (List.range w).map (fun px =>
      ((movetOffsets x (k * b) y px).1, min b (chans - k * b) * e))))

/-- MOVET (R171): W pixels, C channels, ROWS rows, element by element. Where C is not a multiple of the block of layouts 2 to 5, which R119 asks for and states no effect of
breaking, the C channels are copied and no others (log 139). -/
def execMovet (u : Fin 128) (s : State) : Host.Outcome State Fault Refusal :=
  s.act (fun d => d.suIssue u 0x09 (fun x d =>
    let e := x.f 27 1 + 1
    let toMem := x.f 21 1 = 1
    let runs := (List.range (x.f 54 10 + 1)).flatMap (fun y => (List.range (x.f 45 9 + 1)).flatMap (fun c =>
      (List.range (x.f 32 13 + 1)).map (fun px =>
        let o := movetOffsets x c y px
        if toMem then (o.2, o.1, e) else (o.1, o.2, e))))
    d.startCopy x 0 (x.f 22 1) ((List.range (x.f 54 10 + 1)).flatMap (movetReads x)) runs))

/-- The distinct granules of a list of addresses, in the order of first need. -/
def granulesOf (l : List Nat) : List Nat := l.foldl (fun acc a => if acc.contains (a / 256) then acc else acc ++ [a / 256]) []

/-- GATHER (R177, R178): first its vector field, then its samples. -/
def execGather (u : Fin 128) (s : State) : Host.Outcome State Fault Refusal :=
  s.act (fun d => d.suIssue u 0x0A (fun x d =>
    let route := x.f 17 1 = 1
    let dport := x.f 18 3
    let w := x.f 32 13 + 1
    let x0 := x.f 45 13
    let rows := x.f 58 6 + 1
    if route && !d.bit (Reg.SU_RT_VALID.at (six x.u [dport])) then d.faultSu u 4 x.pc
    else
      let xd := x.s.ea (x.f 14 3)
      let g : GatherArgs := ⟨x.ins, (x.s.ea (x.f 8 3)).toNat, (x.s.ea (x.f 11 3)).toNat, (x.s.nv (x.f 27 2)).toNat, x.s.fw, x.s.fh,
        x.s.fpitch.toNat⟩
      let rowBytes := w * g.chans * g.esize
      let dst := (List.range rows).map (fun (r : Nat) => d.suTarget x xd route dport ((r * x.f 96 32 : Nat) : Int) rowBytes)
      let out := [x.s.ea (x.f 8 3), x.s.ea (x.f 11 3), xd].find? (fun a => (devAddr a).isNone)
      if out.isNone && !dst.all Option.isSome then d.faultSu u 5 x.pc
      else
        match (out.or ((dst.filterMap id).find? (fun a => (devAddr a).isNone))) with
        | some a => d.violateSu u 0x0710 x.pc (addrArgs (ofSigned 64 a))
        | none =>
          let vecs := (List.range rows).flatMap (fun r => (List.range w).flatMap (fun i =>
            let a := g.vecAddr (x0 + i) (g.ny + r)
            [a, a + 3]))
          let reqs := (granulesOf vecs).map (fun q => ({ addr := q * 256, len := 256, wp := none } : Req))
          let pairs := (List.range rows).map (fun r => ((dst.getD r none).getD 0,
            (List.range w).flatMap (fun i => (List.range g.chans).flatMap (fun ch =>
              (List.range g.esize).map (fun b => Source.sample (x0 + i) (g.ny + r) ch b)))))
          let t : Transfer :=
            { pc := x.pc, dest := if route then .route dport (d.rd (Reg.SU_RT_CUR_HALF.at (six x.u [dport]))) else .plain, aow := 0,
              gchk := none, toIssue := reqs, flying := [], txns := packRuns pairs, gather := some g, vectors := true }
          (d.onSu u (fun q => { q with work := q.work ++ [.xfer t] })).suAdvance u x.pc))

/-! ### Requests (R172, R182 to R184) -/

/-- Replaces the transfer at a position of the unit's work. -/
def Dev.setXfer (d : Dev) (u i : Nat) (t : Transfer) : Dev := d.onSu u (fun s => { s with work := s.work.set i (.xfer t) })

/-- Transactions with a byte that needs an address of a request. -/
def Transfer.feeds (t : Transfer) (r : Req) : List Nat :=
  (List.range t.txns.length).filter (fun i => match t.txns[i]? with
    | none => false
    | some p => p.srcs.any (fun src => ((t.needs src).getD []).any (fun a => r.addr ≤ a && a < r.addr + r.len)))

/-- Transactions that a request's data opens: those of them not yet opened. -/
def Transfer.opens (t : Transfer) (r : Req) : List Nat := (t.feeds r).filter (fun i => !(t.txns.getD i ⟨0, [], true⟩).opened)

/-- Whether a source lies outside the unit's cluster and takes a read tag (R182). -/
def outsideCluster (n : Nat) : Region → Bool
  | .ddr => true
  | .host _ => true
  | .sp c _ => c / 9 != n
  | _ => false

/-- Whether a region is regulated (R183). -/
def Region.regulated : Region → Bool
  | .ddr => true
  | .host _ => true
  | _ => false

/-- The violation a source address raises, if any (R34, R35, R156, R332). -/
def Dev.sourceFault (d : Dev) (a n : Nat) : Option Nat :=
  match d.region a with
  | .unmapped => some 0x0710
  | .beacon _ _ => some 0x0710
  | .sp c off =>
    if d.mcState c = mcOff || d.mcState c = mcRetired then some 0x0710
    else if d.anyShut c off n then some 0x0711 else none
  | _ => none

/-- Transactions of Beacon queues among those a request opens: port, queue, number. -/
def Dev.seamOpens (d : Dev) (t : Transfer) (opens : List Nat) : List (Nat × Nat × Nat) :=
  if t.dest != .plain then []
  else opens.foldl (fun (l : List (Nat × Nat × Nat)) i =>
    match d.region ((t.txns.getD i ⟨0, [], false⟩).off) with
    | .beacon p off =>
      let q := off / 0x100000
      if l.any (fun e => e.1 = p && e.2.1 = q) then l.map (fun e => if e.1 = p && e.2.1 = q then (p, q, e.2.2 + 1) else e) else l ++ [(p, q, 1)]
    | _ => l) []

/-- The generation a read names against that of its watch port's slot (R147, R171). -/
def Dev.watchSight (d : Dev) (u : Nat) (t : Transfer) (r : Req) : TagSight :=
  match r.wp with
  | none => .complete
  | some p =>
    let i := six u [p]
    let sl := 2 * d.rd (Reg.SU_WP_THANDLE.at i) + d.rd (Reg.SU_WP_CUR_HALF.at i)
    let c := d.rd (Reg.SU_WP_TCORE.at i)
    if !d.bit (Reg.SLOT_FULL.at (cix c [sl])) then .behind
    else match t.gchk with
      | none => .complete
      | some g =>
        let diff := toSigned 16 (d.rd (Reg.SLOT_GEN.at (cix c [sl])) + 65536 - g)
        if diff = 0 then .complete else if 0 < diff then .ahead else .behind

/-- A transfer's reads go through the stripe cache (R218): those of a unit with CACHE, the samples of a GATHER, and STREAMED slices. -/
def Dev.cachedRead (d : Dev) (u : Nat) (t : Transfer) (reg : Region) : Bool :=
  reg = .ddr && d.bit (Reg.CL_SC_EN.at [u / 16]) && (d.bit (Reg.SU_CACHE.at (six u)) || (t.gather.isSome && !t.vectors) || t.ring)

/-- STATE tells why the unit's own request waits. -/
def Dev.suWaits (d : Dev) (u : Nat) (t : Transfer) (st : Nat) : Dev := if t.ring then d else d.setSuState u st

/-- The next request of transfer `t`, item `wi` of the unit's work, issues once it holds its tag, token, credits and places (R172, R182 to R186). -/
def Dev.suRequest (d : Dev) (u wi : Nat) (t : Transfer) : Dev :=
  match t.toIssue with
  | [] => d
  | r :: rest =>
    let n := u / 16
    let reg := d.region r.addr
    match d.sourceFault r.addr r.len with
    | some ev => d.violateSu u ev t.pc (addrArgs r.addr)
    | none =>
      match d.watchSight u t r with
      | .ahead => d.faultSu u 6 t.pc
      | .behind => d.setSuState u suWaitTag
      | .complete =>
        let g := r.addr / 256
        let look := if d.cachedRead u t reg then d.scLookup n g else (none, d)
        let hit := look.1
        let opens := t.opens r
        let plainDest := t.dest = .plain && (t.feeds r).any (fun i => (d.region ((t.txns.getD i ⟨0, [], false⟩).off)).regulated)
        let needTag := outsideCluster n reg && hit.isNone
        let needTok := d.bit (Reg.SU_REG_EN.at (six u)) && ((reg.regulated && hit.isNone) || plainDest)
        let d1 := d.refill u
        let cred := match t.dest with
          | .route p _ => decide (opens.length ≤ d.rd (Reg.SU_RT_CRED.at (six u [p])))
          | _ => true
        let seams := d.seamOpens t opens
        let slotOk := seams.all (fun e => d.canOpen e.1 e.2.1 e.2.2)
        let ordered := reg != .ddr || !((d.su u).work.take (wi + 1)).any (SuItem.writes g g)
        let queued := ((d.chan (ddrChannel r.addr)).writes ++ (d.chan (ddrChannel r.addr)).waitWrites).find? (fun w => w.granule = g)
        if needTag && !d.tagFree u then d.suWaits u t suWaitRtag
        else if needTok && decide ((d1.su u).bucket < 64000) then d1.suWaits u t suWaitReg
        else if !cred || !slotOk then
          match t.dest with
          | .route p _ => (d.setSuState u suWaitCredit).set (Reg.SU_RT_WAITING.at (six u [p])) true
          | _ => seams.foldl (fun d e => d.set (Reg.BCNQ_TX_WAITING.at [e.1, e.2.1]) true) (d.setSuState u suWaitCredit)
        else if !ordered || (reg = .ddr && hit.isNone && queued.isNone && 64 ≤ (d.chan (ddrChannel r.addr)).reads.length) then d
        else
          let d := look.2.refill u
          let d := if d.cachedRead u t reg then d.spendSc (0x100 + u) else d
          let d := if needTok then d.onSu u (fun s => { s with bucket := s.bucket - 64000 }) else d
          let d := match t.dest with
            | .route p _ =>
              (d.wr (Reg.SU_RT_CRED.at (six u [p])) (d.rd (Reg.SU_RT_CRED.at (six u [p])) - opens.length)).set
                (Reg.SU_RT_WAITING.at (six u [p])) false
            | _ => d
          let dl := d.rd (Reg.SU_DL.at (six u))
          let d := seams.foldl (fun d e => d.openTx e.1 e.2.1 e.2.2 dl) d
          let r' := { r with
            deadline := dl, tag := needTag, served := reg != .ddr || hit.isSome || queued.isSome,
            data := match hit with
              | some b => some ((b.drop (r.addr % 256)).take r.len)
              | none => if reg = .ddr && queued.isSome then some (d.bytes r.addr r.len) else none,
            line := if reg = .ddr && hit.isNone && queued.isSome then some (d.scLine g) else none }
          let t' := { t with
            toIssue := rest, flying := t.flying ++ [r'],
            txns := (List.zip (List.range t.txns.length) t.txns).map (fun p => if opens.contains p.1 then { p.2 with opened := true } else p.2) }
          let d := ((d.setXfer u wi t').suWaits u t suRun).onSu u (fun q => if t.ring then q else { q with stalled := false })
          if reg = .ddr && hit.isNone then (d.spendDdr (0x100 + u) r.len).askRead ⟨0x100 + u, g, dl, false, false⟩ else d

/-- Requests of the first transfer of a unit's work, among those of the rotation stop or among the others, that has some to issue. -/
def Dev.suRequestOf (d : Dev) (u : Nat) (ring : Bool) : Dev :=
  match (d.su u).work.findIdx? (fun i => i.ring = ring && match i with
    | .xfer t => !t.toIssue.isEmpty
    | .rel _ => false) with
  | none => d
  | some wi =>
    match (d.su u).work[wi]? with
    | some (.xfer t) => d.suRequest u wi t
    | _ => d

/-- SU_REQUEST (R172): the next request of the unit's own instructions issues once it holds its tag, token and credits, otherwise STATE gives the reason; then that of a slice
the unit fetches for the rotation stop (R216). -/
def execSuRequest (u : Fin 128) (s : State) : Host.Outcome State Fault Refusal :=
  s.act (fun d => (d.suRequestOf u false).suRequestOf u true)

/-- After the vector field of a GATHER has arrived: its clamped vectors are counted and its sample requests formed (R177, R179). -/
def Dev.gatherSamples (d : Dev) (u wi : Nat) (t : Transfer) : Dev :=
  match t.gather with
  | none => d
  | some g =>
    if !(t.vectors && t.toIssue.isEmpty && t.flying.isEmpty) then d
    else
      let pix := t.txns.flatMap (fun p => p.srcs)
      let blocks := pix.foldl (fun (acc : List Nat) src => match src with
        | .sample x y _ _ => if acc.contains (g.vecAddr x y) then acc else acc ++ [g.vecAddr x y]
        | .byte _ => acc) []
      let clamped := (blocks.filter (fun a => match t.leAt a 4 with
        | none => false
        | some v => (clampVec (v % 65536)).2 || (clampVec (v / 65536)).2)).length
      let gran := granulesOf (pix.flatMap (fun src => (t.needs src).getD []))
      let reqs := gran.map (fun q => ({ addr := q * 256, len := 256, wp := none } : Req))
      let d := d.setXfer u wi { t with vectors := false, toIssue := reqs }
      let d := d.incSat (Reg.SU_MVCLAMP_CNT.at (six u)) clamped
      d.setIf (Reg.SU_MV_CLAMP.at (six u)) (0 < clamped)

/-- SU_READ_RETURN (R160, R172, R190): outstanding request `i` of the unit returns. `ext` is the data of a host window source, `poisoned`
says that the link marked it so; every other source is read here or was served by its channel. -/
def execSuReadReturn (u : Fin 128) (i : Nat) (ext : Bytes) (poisoned : Bool) (s : State) : Host.Outcome State Fault Refusal :=
  s.act (fun d =>
    let order : List (Nat × Nat) := (List.range (d.su u).work.length).flatMap (fun (w : Nat) => match (d.su u).work[w]? with
      | some (.xfer t) => (List.range t.flying.length).map (fun j => (w, j))
      | _ => [])
    match order[i]? with
    | none => d
    | some (wi, j) =>
      match (d.su u).work[wi]? with
      | some (.xfer t) =>
        match t.flying[j]? with
        | none => d
        | some r =>
          let reg := d.region r.addr
          let wait := !r.served || (match reg with
            | .sp c off => d.anyWaking c off r.len
            | _ => false)
          if wait then d
          else
            let chk : Option Nat × Dev := match reg with
              | .sp c off => d.spCheck c off r.len
              | _ => (none, d)
            match chk.1 with
            | some _ => chk.2.violateSu u 0x0720 t.pc []
            | none =>
              let dc : List Nat × Dev := match reg with
                | .ddr => if r.data.isSome && !r.tag then ([], chk.2) else chk.2.ddrCheck r.addr r.len 0 (0x100 + u.val)
                | _ => ([], chk.2)
              let words := dc.1.flatMap (fun w => (List.range 8).map (fun k => w + k))
              let lost := match reg with
                | .host _ => !d.hostReady
                | _ => false
              let bad := words ++ (if poisoned || lost then (List.range r.len).map (fun k => r.addr + k) else [])
              let data := match reg with
                | .host _ => (ext ++ List.replicate r.len 0).take r.len
                | _ => r.data.getD (d.bytes r.addr r.len)
              let d := dc.2.setIf (Reg.SU_POISON.at (six u)) (!bad.isEmpty)
              let d := if toSigned 32 (r.deadline + 2 ^ 32 - d.time % 2 ^ 32) < 0 then d.inc (Reg.SU_LATE_CNT.at (six u)) else d
              let d := if reg.regulated && r.tag then d.onSu u (fun q => { q with bytes := trunc 64 (q.bytes + r.len) }) else d
              let d := if r.tag && d.cachedRead u t reg then d.scFill (u.val / 16) (r.line.getD (d.scLine (r.addr / 256))) else d
              let t' := { t with flying := dropAt t.flying j, got := t.got ++ [(r.addr, data)], bad := t.bad ++ bad }
              ((d.setXfer u wi t').gatherSamples u wi t').suFlush u
      | _ => d)

/-! ### Launches (R174) -/

/-- A launch takes effect on an idle unit. -/
def Dev.startSu (d : Dev) (u : Nat) (l : Launch) : Dev :=
  let d := d.onSu u (fun s => { s with n := Tab.put 0 s.n 0 l.word, nest := [], shadow := none, fence := false, acks := [] })
  let d := (d.wr (Reg.SU_PC.at (six u)) (d.rd (Reg.SU_ENTRY_PC.at (six u)))).wr (Reg.SU_DL.at (six u)) l.deadline
  (d.wr (Reg.SU_LAUNCH.at (six u)) l.word.toNat).setSuState u suRun

/-- REARM_OVERRUN (R174). -/
def Dev.rearmOverrun (d : Dev) (u : Nat) : Dev := (d.set (Reg.SU_REARM_OVERRUN.at (six u)) true).raise 0x0212 0 (0x100 + u)

/-- SU_LAUNCH (R174). -/
def execSuLaunch (i : Nat) (s : State) : Host.Outcome State Fault Refusal :=
  s.act (fun d =>
    match d.arriving i with
    | some ⟨_, .su u, .launch _ l⟩ =>
      let d := d.taken i
      if !d.bit (Reg.SU_ENABLE.at (six u)) || d.suState u = suFrozen then d.rearmOverrun u
      else if d.suState u = suIdle then d.startSu u l
      else
        let d := if (d.su u).shadow.isSome then d.rearmOverrun u else d
        d.onSu u (fun q => { q with shadow := some l })
    | _ => d)

/-- CREDIT_STALL (R180, R181): once per wait episode; Keeper re-initialises the pipeline, or changes the plan when it was re-initialised within 16 frames. -/
def execCreditStall (u : Fin 128) (s : State) : Host.Outcome State Fault Refusal :=
  s.act (fun d =>
    if d.suState u = suWaitCredit && !(d.su u).stalled && d.rd (Reg.SU_CSTALL_LIMIT.at (six u)) != 0 then
      match (List.range 8).find? (fun r => d.bit (Reg.SU_RT_WAITING.at (six u.val [r]))) with
      | none => d
      | some r =>
        let i := six u.val [r]
        let p := d.rd (Reg.SU_PIPELINE.at (six u))
        let d := d.onSu u (fun q => { q with stalled := true })
        let d := d.raise 0x0210 0 (0x100 + u.val) [r, d.rd (Reg.SU_RT_TCORE.at i), d.rd (Reg.SU_RT_THANDLE.at i)]
        let last := Tab.find d.reinitFrame p
        let recent := match last with
          | some f => decide (d.pipeCount < f + 16)
          | none => false
        if recent then { d with planSwitchWanted := true } else { d with reinitMarked := d.reinitMarked ++ [p] }
    else d)

end Sys2Proof.Machine
end

