-- ==== Sys2Proof/Machine/WorkCounter.lean ====
section
/-! DEFINITION. Work counters and leases (R94, R105, R207 to R213, R486, R487) and the weight ring (R215, R216). -/

namespace Sys2Proof.Machine

/-- A work counter. -/
def Dev.wc (d : Dev) (n w : Nat) : Wc := Tab.get {} d.wcs (n * 32 + w)
def Dev.onWc (d : Dev) (n w : Nat) (f : Wc → Wc) : Dev := { d with wcs := Tab.modify {} d.wcs (n * 32 + w) f }

/-- WC_STATE values (R225). -/
def wcIdle : Nat := 0
def wcArmed : Nat := 1
def wcClosing : Nat := 2

def Dev.wcState (d : Dev) (n w : Nat) : Nat := d.rd (Reg.CL_WC_STATE.at [n, w])

/-- Answers a TAKE (R94). -/
def Dev.answerTake (d : Dev) (n w core task : Nat) (idx gen : Nat) : Dev :=
  d.send (.wc n w) (.core core) (.takeResp task (BitVec.ofNat 32 idx) (BitVec.ofNat 32 gen))

/-- Every member that is neither FROZEN nor RETIRED has been answered in CLOSING (R212). -/
def Dev.allAnswered (d : Dev) (n w : Nat) : Bool :=
  (List.range 9).all (fun k =>
    !(d.rd (Reg.CL_WC_MEMBERS.at [n, w])).testBit k || d.mcState (9 * n + k) = mcFrozen || d.mcState (9 * n + k) = mcRetired ||
      (d.wc n w).answered.contains (9 * n + k))

/-- The stripe is complete (R209). -/
def Dev.stripeComplete (d : Dev) (n w : Nat) : Bool :=
  d.rd (Reg.CL_WC_ACCEPTED.at [n, w]) = d.rd (Reg.CL_WC_TILES.at [n, w]) && (d.wc n w).leases.all (fun l => l.state = 0)

/-- The next tile a TAKE is served: the oldest index of the reissue queue that may be taken, else NEXT (R207, R209). -/
def Dev.nextTile (d : Dev) (n w : Nat) : Option (Nat × Dev) :=
  let q := (d.wc n w).reissue
  match q.findIdx? (fun e => e.2.isNone) with
  | some i => some ((q.getD i (0, none)).1, d.onWc n w (fun c => { c with reissue := dropAt c.reissue i }))
  | none =>
    let next := d.rd (Reg.CL_WC_NEXT.at [n, w])
    if next < d.rd (Reg.CL_WC_TILES.at [n, w]) then
      some (if (d.wc n w).emptyArm then 0xFFFF else next, d.wr (Reg.CL_WC_NEXT.at [n, w]) (next + 1))
    else none

/-- Serves or holds one TAKE (R208, R209, R212). -/
def Dev.serveTake (d : Dev) (n w core task : Nat) : Dev :=
  if d.wcState n w = wcClosing then
    (d.answerTake n w core task 0xFFFFFFFF 0).onWc n w (fun c => { c with answered := c.answered ++ [core] })
  else
    let hold := d.onWc n w (fun c => { c with waiting := c.waiting ++ [(core, task)] })
    if d.wcState n w = wcArmed && (d.wc n w).leases.length < 64 then
      match d.nextTile n w with
      | none => hold
      | some (idx, d) =>
        let gen := d.rd (Reg.CL_WC_LGEN.at [n, w])
        let d := d.wr (Reg.CL_WC_LGEN.at [n, w]) (gen + 1)
        (d.onWc n w (fun c => { c with leases := c.leases ++ [⟨core, task, idx, gen, 0, false⟩] })).answerTake n w core task idx gen
    else hold

/-- Serves the waiting TAKEs again, in the order in which they came. -/
def Dev.serveWaiting (d : Dev) (n w : Nat) : Dev :=
  let l := (d.wc n w).waiting
  l.foldl (fun d p => d.serveTake n w p.1 p.2) (d.onWc n w (fun c => { c with waiting := [] }))

/-- An arm becomes current (R207): TILES = ROWS * PER_ROW, one tile of index 0xFFFF for no rows. -/
def Dev.armNow (d : Dev) (n w rows : Nat) : Dev :=
  let d := d.wr (Reg.CL_WC_TILES.at [n, w]) (if rows = 0 then 1 else rows * d.rd (Reg.CL_WC_PER_ROW.at [n, w]))
  let d := ((d.wr (Reg.CL_WC_NEXT.at [n, w]) 0).wr (Reg.CL_WC_ACCEPTED.at [n, w]) 0).wr (Reg.CL_WC_STATE.at [n, w]) wcArmed
  (d.onWc n w (fun c => { c with answered := [], emptyArm := rows = 0 })).serveWaiting n w

/-- Moves a counter on: a complete stripe enters CLOSING, and CLOSING ends once every member is answered; then the queued arm is current (R207, R209, R212). -/
def Dev.wcSettle (d : Dev) (n w : Nat) : Dev :=
  let d := if d.wcState n w = wcArmed && d.stripeComplete n w then (d.wr (Reg.CL_WC_STATE.at [n, w]) wcClosing).serveWaiting n w else d
  if d.wcState n w = wcClosing && d.allAnswered n w then
    let d := (d.wr (Reg.CL_WC_STATE.at [n, w]) wcIdle).onWc n w (fun c => { c with answered := [] })
    match (d.wc n w).queuedArm with
    | some rows => (d.onWc n w (fun c => { c with queuedArm := none })).armNow n w rows
    | none => d
  else d

/-- WC_TAKE (R209). -/
def execWcTake (i : Nat) (s : State) : Host.Outcome State Fault Refusal :=
  s.act (fun d =>
    match d.arriving i with
    | some ⟨.core c, .wc n w, .take t⟩ => ((d.taken i).serveTake n w c t).wcSettle n w
    | _ => d)

/-- WC_DONE (R208, R210, R487). -/
def execWcDone (i : Nat) (s : State) : Host.Outcome State Fault Refusal :=
  s.act (fun d =>
    match d.arriving i with
    | some ⟨.core c, .wc n w, .done t idx gen⟩ =>
      let d := d.taken i
      let reply (d : Dev) (a b : Nat) : Dev := d.send (.wc n w) (.core c) (.doneResp t (BitVec.ofNat 32 a) (BitVec.ofNat 32 b))
      match (d.wc n w).leases.findIdx? (fun l => l.idx = idx && l.gen = gen) with
      | none => reply d 0 0
      | some j =>
        let st := ((d.wc n w).leases.getD j ⟨0, 0, 0, 0, 0, false⟩).state
        if st = 0 then
          let d := (d.onWc n w (fun q => { q with leases := dropAt q.leases j })).inc (Reg.CL_WC_ACCEPTED.at [n, w])
          let done := d.wcState n w = wcArmed && d.stripeComplete n w
          ((reply d 1 (if done then 1 else 0)).serveWaiting n w).wcSettle n w
        else
          let d := d.inc (Reg.CL_WC_DISCARDED.at [n, w])
          let d := if st = 1 then d.onWc n w (fun q => { q with leases := dropAt q.leases j }) else d
          ((reply d 0 0).serveWaiting n w).wcSettle n w
    | _ => d)

/-- WC_ARM (R207). -/
def execWcArm (i : Nat) (s : State) : Host.Outcome State Fault Refusal :=
  s.act (fun d =>
    match d.arriving i with
    | some ⟨_, .wc n w, .arm rows⟩ =>
      let d := d.taken i
      if d.wcState n w = wcIdle then (d.armNow n w rows).wcSettle n w
      else d.onWc n w (fun c => { c with queuedArm := some rows })
    | _ => d)

/-- Event arguments of R487. -/
def leaseArgs (n w : Nat) (l : Lease) : List Nat := [n, w, l.idx % 65536 + l.gen * 65536]

/-- FREEZE_MESSAGE (R105, R208, R486): every lease of the core becomes EXPIRED_FROZEN. The index of one that was HELD joins the reissue queue, held back; that of one that
had expired is in the queue or taken already, and stays so (log 143). -/
def execFreezeMessage (i : Nat) (s : State) : Host.Outcome State Fault Refusal :=
  s.act (fun d =>
    match d.arriving i with
    | some ⟨.core c, .wc n w, .freeze⟩ =>
      let d := d.taken i
      let held := (d.wc n w).leases.filter (fun l => l.core = c && l.state = 0)
      let d := d.onWc n w (fun q =>
        { q with
          leases := q.leases.map (fun l => if l.core = c then { l with state := 2 } else l),
          reissue := q.reissue ++ held.map (fun l => (l.idx, some l.gen)),
          waiting := q.waiting.filter (fun p => p.1 ≠ c) })
      (d.inc (Reg.CL_WC_EXPIRED.at [n, w]) held.length).wcSettle n w
    | _ => d)

/-- CLOSE_MESSAGE (R208, R486): the EXPIRED_FROZEN leases of the core are CLOSED and their indices may be taken. -/
def execCloseMessage (i : Nat) (s : State) : Host.Outcome State Fault Refusal :=
  s.act (fun d =>
    match d.arriving i with
    | some ⟨.core c, .wc n w, .close⟩ =>
      let d := d.taken i
      let gens := ((d.wc n w).leases.filter (fun l => l.core = c && l.state = 2)).map Lease.gen
      let d := d.onWc n w (fun q =>
        { q with
          leases := q.leases.filter (fun l => !(l.core = c && l.state = 2)),
          reissue := q.reissue.map (fun e => match e.2 with
            | some g => if gens.contains g then (e.1, none) else e
            | none => e) })
      (d.serveWaiting n w).wcSettle n w
    | _ => d)

/-- A lease of a counter that is HELD becomes EXPIRED_LIVE and its index joins the reissue queue (R208, R487). -/
def Dev.expireLease (d : Dev) (n w i : Nat) : Dev :=
  match (d.wc n w).leases[i]? with
  | some l =>
    if l.state = 0 then
      let d := d.onWc n w (fun q =>
        { q with leases := q.leases.set i { l with state := 1 }, reissue := q.reissue ++ [(l.idx, none)] })
      (d.inc (Reg.CL_WC_EXPIRED.at [n, w])).raise 0x0150 0 l.core (leaseArgs n w l)
    else d
  | none => d

/-- LEASE_EXPIRED (R208): the timer of lease `i` of the counter reaches LEASE. -/
def execLeaseExpired (n : Fin 8) (w : Fin 32) (i : Nat) (s : State) : Host.Outcome State Fault Refusal :=
  s.act (fun d =>
    if ((d.wc n w).leases[i]?.map Lease.state) = some 0 then ((d.expireLease n w i).serveWaiting n w).wcSettle n w else d)

/-- LEASE_UNCLOSED (R208, R376, R487): the pipeline is marked for re-initialisation; two for one core within 16 PIPE frames retire the core. -/
def execLeaseUnclosed (n : Fin 8) (w : Fin 32) (i : Nat) (s : State) : Host.Outcome State Fault Refusal :=
  s.act (fun d =>
    match (d.wc n w).leases[i]? with
    | some l =>
      if l.state = 1 && !l.reported then
        let d := d.onWc n w (fun q => { q with leases := q.leases.set i { l with reported := true } })
        let d := d.raise 0x0151 0 l.core (leaseArgs n w l)
        let d := { d with reinitMarked := d.reinitMarked ++ [d.rd (Reg.CL_WC_PIPELINE.at [n.val, w.val])] }
        let now := d.pipeCount
        let again := d.unclosed.any (fun p => p.1 = l.core && now < p.2 + 16)
        let d := { d with unclosed := d.unclosed ++ [(l.core, now)] }
        if again then d.retireCore l.core else d
      else d
    | none => d)

/-- The members of a cluster's weight ring in index order (R215). -/
def Dev.ringMembers (d : Dev) (n : Nat) : List Nat := (List.range 9).filter (fun j => (d.rd (Reg.CL_RING_MEMBERS.at [n])).testBit j)

/-- The ring member after core index `k`, in index order (R215). -/
def Dev.ringNext (d : Dev) (n k : Nat) : Option Nat :=
  match (d.ringMembers n).find? (fun j => k < j) with
  | some j => some j
  | none => (d.ringMembers n).head?

/-- The ring member before core index `k`. -/
def Dev.ringPrev (d : Dev) (n k : Nat) : Nat :=
  match ((d.ringMembers n).filter (fun j => j < k)).getLast? with
  | some j => j
  | none => ((d.ringMembers n).getLast?).getD k

/-- The unit still fetches a slice into a half. -/
def Dev.slicing (d : Dev) (u dst half : Nat) : Bool :=
  (d.su u).work.any (fun i => match i with
    | .xfer t => match t.dest with
      | .ring c _ h => c = dst && h = half
      | _ => false
    | .rel r => r.port = ringPort && r.upd.tcore = dst && r.upd.half = half)

/-- A slice is on its way into a window half of core `dst`: from the stop before it, or fetched by unit `u`. -/
def Dev.ringFlying (d : Dev) (n u dst half : Nat) : Bool :=
  d.slicing u dst half || d.fabric.any (fun m => m.src = .ring n && m.dst = .core dst && (match m.body with
    | .write t => t.half = half
    | .tag t => t.half = half
    | _ => false))

/-- Unit `u` fetches a STREAMED slice for the rotation stop, which releases it with `upd` (R216). -/
def Dev.fetchSlice (d : Dev) (u a n : Nat) (upd : TagUpd) : Dev :=
  let t : Transfer :=
    { pc := 0, dest := .ring upd.tcore upd.handle upd.half, aow := 0, gchk := none, toIssue := granuleReqs none a n, flying := [],
      txns := packRuns [(0, (List.range n).map (fun i => Source.byte (a + i)))] }
  d.onSu u (fun s => { s with work := s.work ++ [.xfer t, .rel ⟨ringPort, false, upd⟩] })

/-- Slices that the stop of core `k` of cluster `n` has sent on, or has had fetched. -/
def Dev.ringCount (d : Dev) (n k : Nat) : Nat := Tab.get 0 d.ringSent (9 * n + k)

/-- The half that holds the slice a stop sends next, of its own window, and the half of the next member's that takes it (log 25): the windows turn by one half at each step. -/
def ringHalves (streamed : Bool) (m : Nat) : Nat × Nat := (m % 2, if streamed then m % 2 else (m + 1) % 2)

/-- The stop of core `k` holds the slice it has to send on: its own at the start where slices are resident, else one that has come from the stop before. -/
def Dev.ringHolds (d : Dev) (n k u : Nat) (streamed : Bool) : Bool :=
  let m := d.ringCount n k
  let got := decide ((if streamed then m else m - 1) < d.ringCount n (d.ringPrev n k)) && !d.ringFlying n u (9 * n + k) (ringHalves streamed m).1
  (!streamed && m = 0) || got

/-- The next member `j` has room for the slice of core `k`: its half is EMPTY with none on the way, and its own stop has sent on what that half held. The last member of a ring
that streams sends nothing on. -/
def Dev.ringRoom (d : Dev) (n k j u handle : Nat) (streamed : Bool) : Bool :=
  let m := d.ringCount n k
  let h := (ringHalves streamed m).2
  let final := (d.ringMembers n).getLast? = some j
  !d.bit (Reg.SLOT_FULL.at (cix (9 * n + j) [2 * handle + h])) && !d.ringFlying n u (9 * n + j) h &&
    (if streamed then final || decide (m < d.ringCount n j + 2) else decide (m ≤ d.ringCount n j))

/-- ROTATION_STEP (R215, R216): the stop of core `k` sends its current slice into the next member's window half when that half is EMPTY, and releases it FULL with GMODE 1. In a ring
that streams, a slice comes from LPDDR6 once and goes down the ring: the stop of the last member has RING_SU fetch the next slice for the first, one transfer and its release in the
unit's work. The writes carry the destination core for a master (R151 gives the stop none): a discarded one names and freezes that core (log 25). -/
def execRotationStep (n : Fin 8) (k : Fin 9) (s : State) : Host.Outcome State Fault Refusal :=
  s.act (fun d =>
    match d.rings.find? (fun r => r.cluster = n.val), (d.rd (Reg.CL_RING_MEMBERS.at [n.val])).testBit k, d.ringNext n k with
    | some r, true, some j =>
      let src := 9 * n.val + k.val
      let dst := 9 * n.val + j
      let streamed := d.bit (Reg.CL_RING_STREAM.at [n.val])
      let u := n.val * 16 + d.rd (Reg.CL_RING_SU.at [n.val])
      let m := d.ringCount n k
      let h := ringHalves streamed m
      let upd : TagUpd := ⟨dst, none, dst, r.handle, h.2, true, 1, 0, 0, 0⟩
      let fetch := streamed && decide (j ≤ k.val)
      if !d.ringRoom n k j u r.handle streamed || (if fetch then d.suState u = suFrozen else !d.ringHolds n k u streamed) then d
      else
        let d := { d with ringSent := Tab.put 0 d.ringSent src (m + 1) }
        if fetch then d.fetchSlice u (r.source + m % max r.slices 1 * r.bytes) r.bytes upd
        else
          let data := d.bytes (spAddr src (d.halfBytes src r.handle h.1).1) r.bytes
          let runs := (List.range ((r.bytes + 511) / 512)).map (fun q => (q * 512, (data.drop (q * 512)).take 512))
          let d := runs.foldl (fun d q => d.send (.ring n) (.core dst)
            (.write ⟨dst, 0, none, dst, r.handle, h.2, q.1, q.2, 0, 0, []⟩)) d
          (d.send (.ring n) (.core dst) (.tag upd)).inc (Reg.CL_RING_BYTES.at [n.val]) r.bytes
    | _, _, _ => d)

end Sys2Proof.Machine
end

