-- ==== Sys2Proof/Machine/Reinit.lean ====
section
/-! DEFINITION. Resets of handles, routes and watch ports (R150, R168), the re-initialisation of a pipeline (R181), the end of a stream unit's drain (R174). -/

namespace Sys2Proof.Machine

/-! ### Resets of R150 and R168 -/

/-- The count of a writer's route becomes `v`; credits still on their way belong to the count it replaces (log 32). -/
def Dev.setRouteCredit (d : Dev) (writer route v : Nat) : Dev :=
  let d := { d with
    fabric := d.fabric.filter (fun m => !(decide (m.dst = masterNode writer) && (match m.body with
      | .credit r _ => r = route
      | _ => false))),
    mcReturned := d.mcReturned.filter (fun e => e.1 % 8192 != writer * 16 + route) }
  if writer < 72 then (d.wr (Reg.SP_OUTRT_CRED.at (cix writer [route])) v).set (Reg.SP_OUTRT_WAITING.at (cix writer [route])) false
  else if 0x100 ≤ writer && writer < 0x180 then
    let u := writer - 0x100
    upTo 8 (fun p d =>
      if d.bit (Reg.SU_RT_VALID.at (six u [p])) && d.rd (Reg.SU_RT_ROUTE.at (six u [p])) = route then
        (d.wr (Reg.SU_RT_CRED.at (six u [p])) v).set (Reg.SU_RT_WAITING.at (six u [p])) false
      else d) d
  else { d with beCredits := Tab.put 0 d.beCredits (beOf writer * 16 + route) v }

/-- Credits of a full route into handle `h` of core `c` with ALLOC `alloc`. -/
def Dev.fullCredit (d : Dev) (c h alloc : Nat) : Nat := alloc * (d.rd (Reg.HND_HALVES.at (cix c [h])) + 1)

/-- A LOCAL handle is reset (R150): its slots, and the count of every route into it. -/
def Dev.resetHandle (d : Dev) (c h : Nat) : Dev :=
  let d := (d.resetSlot c (2 * h)).resetSlot c (2 * h + 1)
  let d := d.onCore c (fun k => { k with zfills := k.zfills.filter (fun z => z.slot / 2 != h) })
  upTo 32 (fun i d =>
    if d.bit (Reg.SP_INRT_VALID.at (cix c [i])) && d.rd (Reg.SP_INRT_HANDLE.at (cix c [i])) = h then
      d.setRouteCredit (d.rd (Reg.SP_INRT_WRITER.at (cix c [i]))) (d.rd (Reg.SP_INRT_ROUTE.at (cix c [i])))
        (d.fullCredit c h (d.rd (Reg.SP_INRT_ALLOC.at (cix c [i]))))
    else d) d

/-- First core a target core number reaches: a core, or the lowest member of a multicast group (R217). -/
def Dev.firstTarget (d : Dev) (tcore : Nat) : Nat :=
  if tcore < 72 then tcore
  else (((List.range 9).find? (fun k => (d.rd (Reg.CL_MCG_MEMBERS.at [(tcore - 72) / 7, (tcore - 72) % 7])).testBit k)).map
    (fun k => 9 * ((tcore - 72) / 7) + k)).getD 0

/-- A route of a writer is reset: its count follows the inbound entry it enters by (R150, R481). -/
def Dev.resetRoute (d : Dev) (writer route tcore handle : Nat) : Dev :=
  let c := d.firstTarget tcore
  match d.inbound c handle writer route with
  | some i => d.setRouteCredit writer route (d.fullCredit c handle (d.rd (Reg.SP_INRT_ALLOC.at (cix c [i]))))
  | none => d.setRouteCredit writer route 0

/-- Handle `h` of core `c` is reset, be it LOCAL or REMOTE. -/
def Dev.resetAnyHandle (d : Dev) (c h : Nat) : Dev :=
  if !d.bit (Reg.HND_VALID.at (cix c [h])) then (d.resetSlot c (2 * h)).resetSlot c (2 * h + 1)
  else if d.rd (Reg.HND_KIND.at (cix c [h])) = 0 then d.resetHandle c h
  else d.resetRoute c (bits (d.rd (Reg.HND_SIZE.at (cix c [h]))) 6 4) (bits (d.rd (Reg.HND_BASE_ROW.at (cix c [h]))) 0 7)
    (bits (d.rd (Reg.HND_BASE_ROW.at (cix c [h]))) 7 6)

/-- CUR_HALF of route `p` of a stream unit (R168). -/
def Dev.resetPort (d : Dev) (u p : Nat) : Dev := d.wr (Reg.SU_RT_CUR_HALF.at (six u [p])) 0

/-- CUR_HALF and EGEN of watch port `p` of a stream unit (R168). -/
def Dev.resetWatch (d : Dev) (u p : Nat) : Dev :=
  let i := six u [p]
  ((d.wr (Reg.SU_WP_CUR_HALF.at i) 0).wr (Reg.SU_WP_EGEN0.at i) 1).wr (Reg.SU_WP_EGEN1.at i) 1

/-! ### Members of a pipeline -/

/-- Task contexts that are members of pipeline `p` (R181, R229). -/
def Dev.pipeTasks (d : Dev) (p : Nat) : List (Nat × Nat) :=
  match d.pipeRec p with
  | some r => (r.members.filter (fun m => decide (m.master < 72))).map (fun m => (m.master, m.task))
  | none => []

/-- Stream units of pipeline `p`. -/
def Dev.pipeUnits (d : Dev) (p : Nat) : List Nat := (List.range 128).filter (fun u => d.rd (Reg.SU_PIPELINE.at (six u)) = p)

/-- A transaction that a writer of pipeline `p` has issued is still on its way. -/
def Dev.pipeWrites (d : Dev) (p : Nat) : Bool :=
  (d.pipeTasks p).any (fun x => d.taskWrites x.1 x.2) || (d.pipeUnits p).any (fun u => d.suWrites u) ||
  (List.range 4).any (fun e => d.plan.beLayers.any (fun l => l.pipe = p && l.engines.getLsbD e && !l.last &&
    d.fabric.any (fun m => match m.body with
      | .write t => t.writer = 0x180 + e && t.route = some l.route
      | _ => false)))

/-- A task returns to IDLE with no launch pending; what it has waiting in the units of its core is dropped (log 173). -/
def Dev.idleTask (d : Dev) (c t : Nat) : Dev :=
  if d.coreUp c then
    let d := (d.onTask c t (fun k => { k with pending := none, wait := .none, nest := [], stalled := false, yielded := false })).setTstate c t tIdle
    let d := d.onCore c (fun k => { k with releases := k.releases.filter (fun r => r.task != t), doneQ := k.doneQ.filter (fun w => w.task != t) })
    (d.dropWaiting c t).selectNext c
  else d.onTask c t (fun k => { k with pending := none })

/-- A stream unit returns to IDLE with no launch pending. -/
def Dev.idleSu (d : Dev) (u : Nat) : Dev :=
  let d := d.onSu u (fun s => { s with work := [], fence := false, shadow := none, nest := [], stalled := false, stale := 0 })
  let d := (d.withdraw (0x100 + u)).endRouteWaits u
  if d.suState u = suFrozen then d else d.setSuState u suIdle

/-- The leases that tasks of a pipeline hold expire, on the counters of every pipeline (R181), as at the end of their time (log 147). -/
def Dev.expireLeases (d : Dev) (ts : List (Nat × Nat)) : Dev :=
  upTo 8 (fun n d => upTo 32 (fun w d =>
    (List.range (d.wc n w).leases.length).foldl (fun d i =>
      match (d.wc n w).leases[i]? with
      | some l => if ts.contains (l.core, l.task) then d.expireLease n w i else d
      | none => d) d) d) d

/-- A message of a task that is halted: its TAKE is dropped, and its DONE is answered in vain. -/
def Msg.offTask (ts : List (Nat × Nat)) (m : Msg) : Option Msg :=
  match m.src, m.body with
  | .core c, .take t => if ts.contains (c, t) then none else some m
  | .core c, .done t idx gen => some (if ts.contains (c, t) then { m with body := .done (voidTask t) idx gen } else m)
  | _, _ => some m

/-- Step 1 of R181: the pipeline's members return to IDLE, its launches, jobs and work counters are dropped, and Q restarts (R204). -/
def Dev.haltPipe (d : Dev) (p : Nat) : Dev :=
  let ts := d.pipeTasks p
  let us := d.pipeUnits p
  let d := ts.foldl (fun d x => d.idleTask x.1 x.2) d
  let d := (us.foldl (fun d u => d.idleSu u) d).expireLeases ts
  let keys := ts.map (fun x => queueKey x.1 x.2) ++ us.map (fun u => queueKey (0x100 + u) 0)
  let d := { d with
    launchQ := d.launchQ.filter (fun e => !keys.contains e.1)
    fabric := d.fabric.filter (fun m => match m.dst, m.body with
      | .core c, .launch t _ => !ts.contains (c, t)
      | .su u, .launch _ _ => !us.contains u
      | .core c, .takeResp t _ _ => !ts.contains (c, t)
      | .core c, .doneResp t _ _ => !ts.contains (c, t)
      | .wc n w, .arm _ => d.rd (Reg.CL_WC_PIPELINE.at [n, w]) != p
      | .wc n w, .take _ => d.rd (Reg.CL_WC_PIPELINE.at [n, w]) != p
      | .wc n w, .done _ _ _ => d.rd (Reg.CL_WC_PIPELINE.at [n, w]) != p
      | _, _ => true) }
  let d := { d with
    fabric := d.fabric.filterMap (Msg.offTask ts)
    wcs := d.wcs.map (fun (e : Nat × Wc) => (e.1, { e.2 with waiting := e.2.waiting.filter (fun x => !ts.contains x) })) }
  let d := upTo 4 (fun e d =>
    let b := d.be e
    if b.queue.any (fun j => j.pipe = p) || (b.job.map BeJob.pipe) = some p then
      let mine := (b.job.map BeJob.pipe) = some p
      d.onBe e (fun q => { q with queue := q.queue.filter (fun j => j.pipe != p),
                                  job := if mine then none else q.job, row := if mine then none else q.row })
    else d) d
  let d := upTo 8 (fun n d => upTo 32 (fun w d =>
    if d.rd (Reg.CL_WC_PIPELINE.at [n, w]) = p then (d.onWc n w (fun _ => {})).wr (Reg.CL_WC_STATE.at [n, w]) wcIdle
    else if (d.wc n w).waiting.isEmpty then d else (d.serveWaiting n w).wcSettle n w) d) d
  d.onPipe p (fun q => { q with q := 0, guarded := 2 })

/-- Step 1 of R181 begins the re-initialisation. -/
def Dev.beginReinit (d : Dev) (p : Nat) : Dev :=
  let d := d.haltPipe p
  { d with
    reinitRunning := if d.reinitRunning.contains p then d.reinitRunning else d.reinitRunning ++ [p]
    reinitQuiet := d.reinitQuiet.filter (· != p) }

/-- A seam epoch re-initialises pipelines as in steps 1 and 2 alone: no event, and no re-initialisation in the count of step 3 (R337). -/
def Dev.quietReinit (d : Dev) (p : Nat) : Dev :=
  let quiet := d.reinitQuiet.contains p || !d.reinitRunning.contains p
  let d := d.beginReinit p
  if quiet then { d with reinitQuiet := d.reinitQuiet ++ [p] } else d

/-- Handle `h` of every core that a target core number reaches is reset (R217). -/
def Dev.resetTarget (d : Dev) (tcore h : Nat) : Dev := (d.targets tcore).foldl (fun d c => d.resetAnyHandle c h) d

/-- Route `route` of a writer into a handle is reset with the handle. -/
def Dev.resetInto (d : Dev) (writer route tcore h : Nat) : Dev := (d.resetTarget tcore h).resetRoute writer route tcore h

/-- Handle `h` that a task of core `c` uses is reset, and the handle it leads into where it is REMOTE. -/
def Dev.resetUsed (d : Dev) (c h : Nat) : Dev :=
  if d.bit (Reg.HND_VALID.at (cix c [h])) && d.isRemote c h then d.resetInto c (d.remRoute c h) (d.remTcore c h) (d.remThandle c h)
  else d.resetAnyHandle c h

/-- Step 2 of R181: what the pipeline's members use is reset. A task uses the handles that OWNERS give it, a stream unit those its routes and watch ports name, a boundary engine
layer its own. -/
def Dev.resetPipe (d : Dev) (p : Nat) : Dev :=
  let d := (d.pipeTasks p).foldl (fun d x =>
    upTo 64 (fun h d => if (d.rd (Reg.HND_OWNERS.at (cix x.1 [h]))).testBit x.2 then d.resetUsed x.1 h else d) d) d
  let d := (d.pipeUnits p).foldl (fun d u => upTo 8 (fun r d =>
    let i := six u [r]
    let d := d.resetPort u r
    let d := if r < 4 then d.resetWatch u r else d
    let d := if r < 4 && d.bit (Reg.SU_WP_VALID.at i) then d.resetAnyHandle (d.rd (Reg.SU_WP_TCORE.at i)) (d.rd (Reg.SU_WP_THANDLE.at i)) else d
    if d.bit (Reg.SU_RT_VALID.at i) then
      d.resetInto (0x100 + u) (d.rd (Reg.SU_RT_ROUTE.at i)) (d.rd (Reg.SU_RT_TCORE.at i)) (d.rd (Reg.SU_RT_THANDLE.at i))
    else d) d) d
  (d.plan.beLayers.filter (fun l => l.pipe = p)).foldl (fun d l =>
    if l.last then (d.resetAnyHandle l.inCore l.inHandle).resetAnyHandle l.inCore l.inHalo
    else upTo 4 (fun e d =>
      if l.engines.getLsbD e then
        (d.resetInto (0x180 + e) l.route l.tcore l.thandle).resetInto (0x180 + e) l.haloRoute l.haloCore l.haloHandle
      else d) d) d

/-- REINIT_HANDLES_RESET (R181 steps 2 and 3, R372): once every transaction of the pipeline's writers has arrived. A pipeline stopped for a spare
is reset with it and raises no event of its own, nor does one that a seam epoch re-initialises (R337). -/
def execReinitHandlesReset (p : Fin 64) (s : State) : Host.Outcome State Fault Refusal :=
  s.act (fun d =>
    if d.pipeWrites p then d
    else if d.reinitRunning.contains p.val then
      let quiet := d.reinitQuiet.contains p.val
      let d := d.resetPipe p
      let d := { d with
        reinitRunning := d.reinitRunning.filter (fun q => q != p.val)
        reinitQuiet := d.reinitQuiet.filter (fun q => q != p.val) }
      if quiet then d else { d with reinitFrame := Tab.insert d.reinitFrame p d.pipeCount }.raise 0x0211 5 p
    else if d.stopped.contains p.val then d.resetPipe p
    else d)

/-- SU_DRAIN_DONE (R19, R174, R402): the drain after END is over; the unit is IDLE, or a held launch takes effect. The END of a launch of an abandoned run ends no run. -/
def execSuDrainDone (u : Fin 128) (s : State) : Host.Outcome State Fault Refusal :=
  s.act (fun d =>
    if d.suState u = suDrain && d.suQuiet u then
      let d := d.onSu u (fun q => if q.stale = 0 then { q with ended := true } else { q with stale := q.stale - 1 })
      match (d.su u).shadow with
      | some l => d.startSu u l
      | none => d.setSuState u suIdle
    else d)

end Sys2Proof.Machine
end

