-- ==== Sys2Proof/Machine/Plans.lean ====
section
/-! DEFINITION. Plans of a configuration image: what a plan refers to, its spare variants, and which plan the working resources allow (R222 to R225, R372, R377, R483). -/

namespace Sys2Proof.Machine

/-! ### What paces PIPE (R108) -/

/-- Frame period of the raster that paces PIPE: its pixels, and its clock in kHz. -/
def Dev.enhPeriod (d : Dev) : Option (Nat × Nat) :=
  d.pipePacer.map (fun o => (d.rd (Reg.OUT_VTOTAL.at [o]) * d.rd (Reg.OUT_HTOTAL.at [o]), d.rd (Reg.OUT_PCLK_KHZ.at [o])))

/-- MC_ENH_WINDOW becomes twice the frame period of the raster that paces PIPE, in units of 4 µs (R108). Three points are the model's choice (log 146): with no raster pacing PIPE
the value in force stays; a value above 65,535 is cut to its low 16 bits; a core that is OFF is passed over. -/
def Dev.enhWindows (d : Dev) : Dev :=
  match d.pipePacer with
  | none => d
  | some o =>
    let clk := max (d.rd (Reg.OUT_PCLK_KHZ.at [o])) 1
    let w := (d.rd (Reg.OUT_VTOTAL.at [o]) * d.rd (Reg.OUT_HTOTAL.at [o]) * 500 + clk - 1) / clk
    upTo 72 (fun c d => if d.mcState c = mcOff then d else d.wrB (Reg.MC_ENH_WINDOW.at (cix c)) w) d

/-! ### Spare variants (R223) -/

/-- The core a reference to core `c` goes to when the spares stand for the cores `ks`. -/
def movedCore (ks : List Nat) (c : Nat) : Nat := if ks.contains c then c / 9 * 9 + 8 else c

/-- Changes bits [lo+w-1:lo] of a value. -/
def mapBits (lo w : Nat) (f : Nat → Nat) (v : Nat) : Nat := v - bits v lo w * 2 ^ lo + trunc w (f (bits v lo w)) * 2 ^ lo

/-- A member mask of cluster `n` with the spare in the place of the cores `ks`. -/
def movedMask (ks : List Nat) (n m : Nat) : Nat :=
  ks.foldl (fun m k => if k / 9 = n && m.testBit (k % 9) then (m - 2 ^ (k % 9)) ||| 256 else m) m

/-- Start of the cluster blocks of BAR0 (R31), which hold the image-owned fields (R236). -/
def clusterBase : Nat := 0x01000000

/-- An offset of the CL_, MC_, SU_ and SP_ registers. -/
def inClusters (a : Nat) : Bool := decide (clusterBase ≤ a) && decide (a < 0x01800000)

/-- Value of a REGSET list at an offset. -/
def regsetAt (l : List (Nat × Nat)) (a : Nat) : Nat := ((l.find? (fun e => e.1 = a)).map Prod.snd).getD 0

/-- Which registers name cores, by their place in a cluster block (R32). -/
inductive CoreRef where
  | mask (lo : Nat)
  | target
  | writer
  | none
  deriving DecidableEq, Repr

/-- How the register at an offset names cores: a member mask, the TCORE of a route, watch port or REMOTE handle, or the WRITER of an inbound entry. -/
def coreRef (all : List (Nat × Nat)) (a : Nat) : CoreRef :=
  let r := a % 0x100000
  if r < 0x10000 then
    if r = 0x24 || (0x40 ≤ r && r < 0x78 && r % 8 = 0) then .mask 0
    else if 0x100 ≤ r && r < 0x500 && r % 0x20 = 0 then .mask 8
    else .none
  else if r < 0x20000 then .none
  else if r < 0x30000 then (if 0x40 ≤ r % 0x800 && r % 0x800 < 0x100 && r % 16 = 0 then .target else .none)
  else
    let q := r % 0x1000
    if 0x400 ≤ q && q < 0x800 && q % 16 = 4 && (regsetAt all (a - 4)).testBit 1 then .target
    else if 0xC00 ≤ q && q < 0xD00 && q % 8 = 0 then .writer
    else .none

/-- The core whose MC_ or SP_ block holds an offset. -/
def blockCore (a : Nat) : Option Nat :=
  let n := (a - clusterBase) / 0x100000
  let r := a % 0x100000
  if (0x10000 ≤ r && r < 0x19000) || (0x30000 ≤ r && r < 0x39000) then some (9 * n + r % 0x10000 / 0x1000) else none

/-- A REGSET pair of a spare variant. -/
def movedPair (all : List (Nat × Nat)) (ks : List Nat) (e : Nat × Nat) : Nat × Nat :=
  if !inClusters e.1 then e
  else
    let n := (e.1 - clusterBase) / 0x100000
    let v := match coreRef all e.1 with
      | .mask lo => mapBits lo 9 (movedMask ks n) e.2
      | .target => mapBits 0 7 (movedCore ks) e.2
      | .writer => mapBits 8 9 (movedCore ks) e.2
      | .none => e.2
    match blockCore e.1 with
    | some c => (e.1 + (movedCore ks c - c) * 0x1000, v)
    | none => (e.1, v)

/-- The spare variant of a plan for the cores `ks`. -/
def variant (p : Plan) (ks : List Nat) : Plan :=
  if ks.isEmpty then p
  else
    let mv := movedCore ks
    { p with
      programs := p.programs.map (fun e => (mv e.1, e.2))
      regset := p.regset.map (movedPair p.regset ks)
      pipes := p.pipes.map (fun r => { r with members := r.members.map (fun m => { m with master := mv m.master }) })
      stages := p.stages.map (fun s => { s with cores := s.cores.map mv })
      beLayers := p.beLayers.map (fun l => { l with inCore := mv l.inCore, tcore := mv l.tcore, haloTcore := l.haloTcore.map mv })
      weights := p.weights.map (fun e => (mv e.1, e.2)) }

/-- A REGSET pair gives core `c` a handle or inbound entry, or names it in a route, watch port, inbound entry or membership (R483). -/
def pairUses (all : List (Nat × Nat)) (c : Nat) (e : Nat × Nat) : Bool :=
  inClusters e.1 && e.2 != 0 &&
  ((blockCore e.1 = some c && 0x30000 ≤ e.1 % 0x100000 && ((0x400 ≤ e.1 % 0x1000 && e.1 % 0x1000 < 0x800) || (0xC00 ≤ e.1 % 0x1000 && e.1 % 0x1000 < 0xD00))) ||
    match coreRef all e.1 with
    | .mask lo => (e.1 - clusterBase) / 0x100000 = c / 9 && e.2.testBit (lo + c % 9)
    | .target => bits e.2 0 7 = c
    | .writer => bits e.2 8 9 = c && e.2.testBit 0
    | .none => false)

/-- A plan gives core `c` a task, handle, route, watch port, inbound entry or multicast membership (R483). -/
def planUses (p : Plan) (c : Nat) : Bool :=
  p.pipes.any (fun r => r.members.any (fun m => m.master = c)) || p.regset.any (pairUses p.regset c)

/-- The fields of the register at a BAR0 offset, each with its row of the register map and its index. -/
def fieldsAt (a : Nat) : List (RegDef × List Nat) := regMap.flatMap (fun r => (r.instances a).map (fun i => (r, i)))

/-! ### Register values of a plan -/

/-- Value a plan's REGSET gives a field; a field it does not name has its reset value. -/
def planFld (p : Plan) (f : Fld) : Nat :=
  match p.regset.reverse.find? (fun e => e.1 = f.key / 32) with
  | some e => bits e.2 (f.key % 32) f.width
  | none => f.reset

def planBit (p : Plan) (f : Fld) : Bool := planFld p f != 0

/-- Cores whose blocks a plan writes. -/
def planCores (p : Plan) : List Nat := (List.range 72).filter (fun c => p.regset.any (fun e => inClusters e.1 && blockCore e.1 = some c))

/-- Stream units whose blocks a plan writes. -/
def planSus (p : Plan) : List Nat :=
  (List.range 128).filter (fun u => p.regset.any (fun e => decide (clusterBase + u / 16 * 0x100000 + 0x20000 + u % 16 * 0x800 ≤ e.1) &&
    decide (e.1 < clusterBase + u / 16 * 0x100000 + 0x20000 + u % 16 * 0x800 + 0x800)))

/-- Valid handles of a core. -/
def planHandles (p : Plan) (c : Nat) : List Nat := (List.range 64).filter (fun h => planBit p (Reg.HND_VALID.at (cix c [h])))

/-- Cores and handles that TCORE and THANDLE reach (R217). -/
def planTargets (p : Plan) (tcore handle : Nat) : List (Nat × Nat) :=
  if tcore < 72 then [(tcore, handle)]
  else
    let n := (tcore - 72) / 7
    let g := (tcore - 72) % 7
    ((List.range 9).filter (fun k => (planFld p (Reg.CL_MCG_MEMBERS.at [n, g])).testBit k)).map (fun k => (9 * n + k, planFld p (Reg.CL_MCG_THANDLE.at [n, g])))

/-! ### Programs of a plan -/

/-- Where an instruction at `pc` may pass control to (R90, R91, R95, R485). -/
def codeNext (w : IWord) (pc : Nat) : List Nat :=
  match ifld w 0 8 with
  | 0x01 => []
  | 0x04 => [pc + 1, ifld w 16 12 + 1]
  | 0x05 => if ifld w 8 3 = 0 then [ifld w 16 12] else [ifld w 16 12, pc + 1]
  | _ => [pc + 1]

/-- The indices that control reaches from those of `todo`, with those already `seen`, in at most `n` visits. -/
def codeReach (code : Nat → IWord) : Nat → List Nat → List Nat → List Nat
  | 0, _, seen => seen
  | _, [], seen => seen
  | n + 1, pc :: todo, seen =>
    if 4096 ≤ pc || seen.contains pc then codeReach code n todo seen else codeReach code n (codeNext (code pc) pc ++ todo) (pc :: seen)

/-- The instructions that a task may reach from its ENTRY_PC; where the program holds no word, END stands (log 152). An index passes control to at most two others, so 8,193 visits
reach all of the store. -/
def taskCode (p : Plan) (c t : Nat) : List IWord :=
  let l := (p.programs.filter (fun e => e.1 = c)).map Prod.snd
  let code (i : Nat) : IWord := ((l.find? (fun e => e.1 = i)).map Prod.snd).getD 1
  (codeReach code 8193 [planFld p (Reg.TASK_ENTRY_PC.at (cix c [t]))] []).map code

/-- Core clock cycles for which an array instruction occupies the array at an issue limit of 16 (R38, R76, R78, R80); 0 for any other instruction. -/
def arrCycles (w : IWord) : Nat :=
  let f := if pairRate (ifld w 8 4) (ifld w 12 4) = some 4 then 4 else 1
  let load := if weightPitch (ifld w 12 4) = 128 then 16 else 8
  let m := ifld w 32 6 + 1
  let taps := (ifld w 64 4 + 1) * (ifld w 68 4 + 1)
  match ifld w 0 8 with
  | 0x10 => (ifld w 64 8 + 1) * max (m * f) load
  | 0x11 => taps * max (m * f) load
  | 0x12 => max (m * ((taps + 15) / 16) * f) load
  | _ => 0

/-- Sum of the two greatest numbers of a list. -/
def twoGreatest (l : List Nat) : Nat :=
  let m := l.foldl (fun (m : Nat × Nat) x => if m.1 < x then (x, m.1) else (m.1, max m.2 x)) (0, 0)
  m.1 + m.2

/-- Cycles of the two longest array instructions of analysis tasks on a core (R219); an instruction counts once, however often its program runs it (log 177). -/
def shareCycles (p : Plan) (c : Nat) : Nat :=
  twoGreatest ((p.pipes.filter PipeRec.analysis).flatMap (fun r =>
    (r.members.filter (fun m => m.master = c)).flatMap (fun m => (taskCode p c m.task).map arrCycles)))

/-! ### Load of the boundary engines (R125, R130, R131) -/

/-- Ring cycles of one row of a layer (R125): `bin` new input bytes, `bout` output bytes. -/
def beCycles (l : BeLayer) (bin bout : Nat) : Nat :=
  let up (a b : Nat) : Nat := (a + b - 1) / b
  32 + max (max (up (l.w * l.co * up (l.fh * l.fw * l.ci) 16) 64) (up l.w 16)) (max (up bin 64) (up bout 64))

/-- The boundary engine layers of a plan's pipelines, each with its pipeline and the rows of its grid. -/
def planBeLayers (p : Plan) : List (PipeRec × BeLayer × Nat) :=
  p.pipes.flatMap (fun r =>
    let ms := r.members.filter (fun m => decide (0x180 ≤ m.master))
    (List.zip (List.range ms.length) ms).filterMap (fun e => (beLayerIn p r e.1).map (fun l => (r, l, e.2.y))))

/-- Bytes of a row that a layer reads: a source row of a camera frame, or an input row of a last layer. -/
def Dev.beInBytes (d : Dev) (l : BeLayer) : Nat :=
  if l.last then l.inW * l.ci * fmtBytes l.fmt 1 else (d.srcRuns l.stream 0 0).foldl (fun n x => n + x.2) 0

/-- Ring cycles of one row of a layer. -/
def Dev.beLayerCycles (d : Dev) (l : BeLayer) : Nat := beCycles l (l.sv * d.beInBytes l) (if l.last then 4 * l.w else beRowBytes l)

/-- What each boundary engine layer asks for: its set, and the ring cycles per second declared for it. -/
def beLoads (p : Plan) : List (BitVec 4 × Nat) := (planBeLayers p).map (fun x => (x.2.1.engines, x.2.1.load))

/-- A working boundary engine. -/
def Dev.workingBe (d : Dev) (e : Nat) : Bool := !(d.be e).stopped && !(d.be e).retired

/-- The engines `up` carry the load of every job within its set (R130, R131): no choice of engines has more load that only they can run than they have capacity. -/
def loadsFit (p : Plan) (up : List Nat) : Bool :=
  let l := beLoads p
  l.all (fun x => up.any (fun e => x.1.getLsbD e)) &&
  (List.range 16).all (fun s =>
    (l.filter (fun x => up.all (fun e => !x.1.getLsbD e || s.testBit e))).foldl (fun n x => n + x.2) 0 ≤
      1000000000 * ((List.range 4).filter (fun e => s.testBit e)).length)

/-- The working engines carry the load of the plan in force (R131). -/
def Dev.enginesCover (d : Dev) : Bool := loadsFit d.plan ((List.range 4).filter d.workingBe)

/-! ### LPDDR6 load of a plan (R220) -/

/-- An amount per frame of a raster as one per second: a numerator and a denominator. -/
def Dev.perFrame (d : Dev) (o n : Nat) : Nat × Nat :=
  (n * d.rd (Reg.OUT_PCLK_KHZ.at [o]) * 1000, max 1 (d.rd (Reg.OUT_HTOTAL.at [o]) * d.rd (Reg.OUT_VTOTAL.at [o])))

/-- Bytes per second that a first layer reads: its input frame at the raster's rate; for an analysis pipeline, at the row rate of its declared load. -/
def Dev.beReadBytes (d : Dev) (r : PipeRec) (l : BeLayer) : Nat × Nat :=
  if r.analysis then (l.load * (l.sv * d.beInBytes l), d.beLayerCycles l) else d.perFrame (d.pipeRaster r) (l.inH * d.beInBytes l)

/-- Bytes per second that an output reads for a layer: the rows of a memory-fed one, or the source rows of a guard path. -/
def Dev.layerBytes (d : Dev) (j : Nat) : List (Nat × Nat) :=
  let o := d.rasterOf j
  let n := match d.rd (Reg.LAY_KIND.at [j]) with
    | 1 => d.shownRows j * d.lbBytes j
    | 2 => d.rd (Reg.GP_SRC_H.at [j]) * (d.guardRuns j {frame := 0} [0]).foldl (fun n x => n + x.2) 0
    | _ => 0
  if d.bit (Reg.OUT_ENABLE.at [o]) then [d.perFrame o n] else []

/-- Keeper's computation of a plan's LPDDR6 bytes per second, term by term (R220; log 178): regulated stream units, STREAMED weights, boundary engine reads, write-back and display reads. -/
def Dev.planBytes (d : Dev) (p : Plan) : List (Nat × Nat) :=
  ((planSus p).filter (fun u => planBit p (Reg.SU_REG_EN.at (six u)))).map (fun u => (planFld p (Reg.SU_RATE.at (six u)) * 4000000, 1)) ++
  p.rings.filterMap (fun g =>
    let u := 16 * g.cluster + planFld p (Reg.CL_RING_SU.at [g.cluster])
    (p.pipes.find? (fun r => !r.members.isEmpty && !r.analysis && r.pipe = planFld p (Reg.SU_PIPELINE.at (six u)))).map (fun r =>
      d.perFrame (d.pipeRaster r) (r.stripes * (g.slices * g.bytes)))) ++
  (planBeLayers p).filterMap (fun x => if x.2.1.last then none else some (d.beReadBytes x.1 x.2.1)) ++
  (List.range 2).filterMap (fun o =>
    if d.bit (Reg.OUT_ENABLE.at [o]) && d.bit (Reg.CMP_WB_EN.at [o]) && !(d.split && o = 1) then some (d.perFrame o (4 * d.rasterWidth o * d.vactive o)) else none) ++
  (List.range 16).flatMap d.layerBytes

/-! ### Slack (R219, R221, R222) -/

/-- Stages of a pipeline, in order. -/
def planStages (p : Plan) (pipe : Nat) : List StageRec := p.stages.filter (fun s => s.pipe = pipe)

/-- The stripe period T_s of a pipeline in ns (R221); on both outputs, of the raster whose lines are shorter. -/
def Dev.stripeNs (d : Dev) (r : PipeRec) : Int :=
  if r.output = 2 && !d.split then min (d.linesNs 0 (r.h : Int)) (d.linesNs 1 (r.h : Int)) else d.linesNs (d.pipeRaster r) (r.h : Int)

/-- Core clock of an operating point in MHz (R344). -/
def opMhz (op : Nat) : Nat := [400, 500, 600, 800, 900, 1000, 1100, 1200].getD op 1200

/-- A declared time of a stage at an issue limit, with the declared clock and the one it runs at in MHz: the times of core stages count the array instructions of analysis tasks that share
their cores, and scale with the clock and by 16 over the limit (R219, R221). -/
def stageNs (p : Plan) (s : StageRec) (limit : Nat) (clk : Nat × Nat) (t : Nat) : Nat :=
  if s.cores.isEmpty then t
  else
    let n := max (clk.2 * limit) 1
    ((t * clk.1 + s.cores.foldl (fun m c => max m (shareCycles p c)) 0 * 1000) * 16 + n - 1) / n

/-- The phase that a pipeline belongs to, and its record. -/
def phaseFor (phases : List PhaseRec) (pipe : Nat) : Option (Nat × PhaseRec) :=
  ((List.range phases.length).zip phases).find? (fun e => e.2.pipes.getLsbD pipe)

/-- Declared and actual clock of a stage at the checks of an image (R222): at the operating point of its phase, which OP_MAX bounds (R344). -/
def Dev.checkClock (d : Dev) (phases : List PhaseRec) (s : StageRec) : Nat × Nat :=
  match phaseFor phases s.pipe with
  | some (_, q) => (opMhz q.op, opMhz (min q.op (d.rd (Reg.PWR_OP_MAX.at []))))
  | none => (1200, 1200)

/-- The same for a plan of the image in force, whose phases have the operating points now preferred. -/
def Dev.nextClock (d : Dev) (s : StageRec) : Nat × Nat :=
  match phaseFor d.phases s.pipe with
  | some (i, q) => (opMhz q.op, opMhz (min (d.rd (Reg.PWR_PHASE_OP.at [i])) (d.rd (Reg.PWR_OP_MAX.at []))))
  | none => (1200, 1200)

/-- The same for the plan in force: the clusters of the stage run at their operating points (R344, R345). -/
def Dev.planClock (d : Dev) (s : StageRec) : Nat × Nat :=
  match phaseFor d.phases s.pipe with
  | some (_, q) => (opMhz q.op, opMhz (s.cores.foldl (fun m c => min m (Tab.get 0 d.power.ops (c / 9))) 7))
  | none => (1200, 1200)

/-- An enhancement pipeline of a plan with its own slack. -/
def timedPipe (r : PipeRec) : Bool := !r.members.isEmpty && !r.analysis && r.output != 3

/-- Slack of a pipeline at an issue limit and clocks: the smaller of its period slack and its lead slack (R221). -/
def Dev.pipeSlack (d : Dev) (p : Plan) (r : PipeRec) (limit : Nat) (clk : StageRec → Nat × Nat) : Int :=
  let ss := planStages p r.pipe
  let longest := ss.foldl (fun m s => max m (stageNs p s limit (clk s) s.tauNs)) 0
  let first := ss.dropLast.foldl (fun n s => n + stageNs p s limit (clk s) s.tau0Ns + s.omegaNs) 0 + ((ss.getLast?.map StageRec.phiNs).getD 0)
  min (d.stripeNs r - (longest : Int)) ((r.leadNs : Int) - (first : Int))

/-- Pipelines of a plan whose slack is negative, `limit` giving the issue limit of each. -/
def Dev.lateIn (d : Dev) (p : Plan) (limit : Nat → Nat) (clk : StageRec → Nat × Nat) : List PipeRec :=
  p.pipes.filter (fun r => timedPipe r && decide (d.pipeSlack p r (limit r.pipe) clk < 0))

/-- Issue limit of the phase of a pipeline (R346); 16 for one that no phase names. -/
def Dev.pipeLimit (d : Dev) (pipe : Nat) : Nat :=
  match d.phases.findIdx? (fun q => q.pipes.getLsbD pipe) with
  | some i => d.rd (Reg.PWR_PHASE_LIMIT.at [i])
  | none => 16

/-! ### Working resources (R222, R224) -/

/-- A core that is neither frozen nor retired. -/
def Dev.working (d : Dev) (c : Nat) : Bool := d.mcState c != mcFrozen && d.mcState c != mcRetired

/-- Working active cores of a cluster; a working core 8 counts where it can stand for one that is lost. -/
def Dev.workingCores (d : Dev) (n : Nat) : Nat :=
  let k := ((List.range 8).filter (fun i => d.working (9 * n + i))).length
  if k = 7 && d.working (9 * n + 8) then 8 else k

/-- The lost cores that a plan refers to. -/
def Dev.lostIn (d : Dev) (p : Plan) : List Nat := (List.range 72).filter (fun c => !d.working c && planUses p c)

/-- Whether the working resources meet a plan's needs (R130, R131, R224): in each cluster at most one core it refers to is lost, and its spare works; the
working engines carry the load of its jobs. -/
def Dev.planFits (d : Dev) (p : Plan) : Bool :=
  let lost := d.lostIn p
  (List.range 8).all (fun n => p.needCores.getD n 0 ≤ d.workingCores n) &&
  (List.range 4).all (fun e => !p.needBe.getLsbD e || d.workingBe e) &&
  lost.all (fun c => d.working (c / 9 * 9 + 8) && !planUses p (c / 9 * 9 + 8) && lost.all (fun k => k = c || k / 9 != c / 9)) &&
  loadsFit p ((List.range 4).filter d.workingBe)

/-- The plan of an image with those phases that R222 and R224 choose, at an issue limit of 16: its number and whether ACCEPT_DEGRADED was used; or the refusing code. -/
def Dev.choosePlan (d : Dev) (phases : List PhaseRec) (plans : List Plan) (accept : Bool) : Except Nat (Nat × Bool) :=
  let ok (p : Plan) : Bool := (d.lateIn p (fun _ => 16) (d.checkClock phases)).isEmpty
  let ok0 := match plans with
    | p :: _ => ok p
    | [] => false
  if !plans.any d.planFits then .error 0x09
  else if !ok0 && !accept then .error 0x0A
  else match plans.findIdx? (fun p => d.planFits p && ok p) with
    | some i => .ok (i, !ok0)
    | none => .error 0x0A

/-! ### What refers to a core (R372) -/

/-- A target core number reaches core `k`. -/
def Dev.reaches (d : Dev) (tcore k : Nat) : Bool :=
  tcore = k || (72 ≤ tcore && (tcore - 72) / 7 = k / 9 && (d.rd (Reg.CL_MCG_MEMBERS.at [(tcore - 72) / 7, (tcore - 72) % 7])).testBit (k % 9))

/-- A handle of a core refers to core `k`: as a REMOTE handle's target, or as a writer of the handle. -/
def Dev.handleRefers (d : Dev) (c h k : Nat) : Bool :=
  d.bit (Reg.HND_VALID.at (cix c [h])) &&
  (if d.rd (Reg.HND_KIND.at (cix c [h])) = 1 then d.reaches (bits (d.rd (Reg.HND_BASE_ROW.at (cix c [h]))) 0 7) k
   else (List.range 32).any (fun i => d.bit (Reg.SP_INRT_VALID.at (cix c [i])) && d.rd (Reg.SP_INRT_HANDLE.at (cix c [i])) = h &&
     d.rd (Reg.SP_INRT_WRITER.at (cix c [i])) = k))

/-- Pipeline `p` has a member on core `k`, or a handle, route, watch port, inbound entry or multicast membership referring to it. -/
def Dev.pipeTouches (d : Dev) (p k : Nat) : Bool :=
  (d.pipeTasks p).any (fun x => x.1 = k || (List.range 64).any (fun h =>
    (d.rd (Reg.HND_OWNERS.at (cix x.1 [h]))).testBit x.2 && d.handleRefers x.1 h k)) ||
  (d.pipeUnits p).any (fun u =>
    (List.range 8).any (fun r => d.bit (Reg.SU_RT_VALID.at (six u [r])) && d.reaches (d.rd (Reg.SU_RT_TCORE.at (six u [r]))) k) ||
    (List.range 4).any (fun r => d.bit (Reg.SU_WP_VALID.at (six u [r])) && d.rd (Reg.SU_WP_TCORE.at (six u [r])) = k)) ||
  d.plan.beLayers.any (fun l => l.pipe = p && (if l.last then l.inCore = k else d.reaches l.tcore k || d.reaches l.haloCore k))

/-- Pipelines of the plan in force. -/
def Dev.planPipes (d : Dev) : List Nat := (d.plan.pipes.filter (fun r => !r.members.isEmpty)).map PipeRec.pipe

/-- Pipelines with a member of the given master identifiers. -/
def Dev.pipesOn (d : Dev) (ms : List Nat) : List Nat :=
  (d.plan.pipes.filter (fun r => r.members.any (fun m => ms.contains m.master))).map PipeRec.pipe

end Sys2Proof.Machine
end

