-- ==== Sys2Proof/Machine/ImageParse.lean ====
section
/-! DEFINITION. What Keeper reads from the bytes of a configuration image: section entries, and the records of the SEQ, REGSET, CURVE, FORMAT, PHASES and ANALYSIS sections with
the rules whose breach is a section error (R226, R227, R229, R230, R281, R285, R343, R402, R404). -/

namespace Sys2Proof.Machine

/-! ### Bytes and sections (R226, R227) -/

/-- Little-endian value of `n` bytes of a byte string at an offset. -/
def leAt (b : Bytes) (off n : Nat) : Nat := leNat ((b.drop off).take n)

/-- A section entry: TYPE, PLAN, FLAGS, LENGTH and OFFSET (R227). -/
structure Section where
  typ : Nat
  plan : Nat
  flags : Nat
  len : Nat
  off : Nat
  deriving DecidableEq, Repr

/-- The section entries of an image at a device address. -/
def Dev.imgSections (d : Dev) (addr : Nat) : List Section :=
  let h := d.bytes addr 128
  let size := if leAt h 0x04 2 = 1 then 12 else 16
  (List.range (leAt h 0x18 2)).map (fun i =>
    let e := d.bytes (addr + leAt h 0x1C 4 + i * size) size
    ⟨leAt e 0 2, leAt e 2 1, leAt e 3 1, leAt e 4 4, leAt e 8 (size - 8)⟩)

/-- The section of a type that applies to a plan; 0xFF asks for one of the whole image. -/
def sectionOf (l : List Section) (typ plan : Nat) : Option Section := l.find? (fun s => s.typ = typ && (s.plan = plan || s.plan = 0xFF))

/-- Bytes of that section; an absent one is empty. -/
def Dev.sectionBytes (d : Dev) (addr typ plan : Nat) : Bytes :=
  match sectionOf (d.imgSections addr) typ plan with
  | some s => d.bytes (addr + s.off) s.len
  | none => []

/-- Cuts a byte string into its whole records of `n` bytes. -/
def records (n : Nat) (b : Bytes) : List Bytes := (List.range (b.length / n)).map (fun i => (b.drop (n * i)).take n)

/-- Every bit of a value outside `mask` is 0. -/
def onlyBits (v mask : Nat) : Bool := Nat.land v mask = v

/-! ### SEQ (R229) and REGSET -/

/-- A member record; whether its input handle has two halves stands in STAGE_MAP. -/
def memberOf (b : Bytes) (twoHalves : Bool) : MemberRec :=
  let flags := leAt b 3 1
  { master := leAt b 0 2, task := leAt b 2 1, frameMember := flags.testBit 0, armsWc := flags.testBit 1, topPad := flags.testBit 2,
    downNs := leAt b 4 4, y := leAt b 8 2, hi := leAt b 0xA 1, delta := leAt b 0xB 1, edgeL := (leAt b 0xC 1).testBit 2, edgeR := (leAt b 0xC 1).testBit 3,
    wc := leAt b 0xD 1 % 32, wcCluster := leAt b 0xD 1 / 32, botFrom := leAt b 0xE 2, twoHalves := twoHalves }

/-- FIRST and COUNT of a pipeline record. -/
def memberSpan (b : Bytes) : Nat × Nat := (leAt b 0xC 2, leAt b 0xE 2)

/-- The pipeline records of a SEQ section of `n` pipelines. -/
def seqPipes (b : Bytes) (n : Nat) (stages : List StageRec) : List PipeRec :=
  let ms := records 16 (b.drop (32 * n))
  (records 32 (b.take (32 * n))).map (fun r =>
    let flags := leAt r 1 1
    let span := memberSpan r
    let two (i : Nat) : Bool := stages.any (fun s => s.pipe = leAt r 0 1 && s.members.contains i && s.twoHalves)
    { pipe := leAt r 0 1, analysis := flags.testBit 0, retime := flags.testBit 1, output := flags / 4 % 4, stream := leAt r 2 1, layer := leAt r 3 1,
      h := leAt r 4 2, stripes := leAt r 6 2, leadNs := leAt r 8 4,
      members := (List.range span.2).map (fun i => memberOf (ms.getD (span.1 + i) []) (two i)) })

/-- A master identifier of R151. -/
def isMaster (m : Nat) : Bool := m < 72 || (0x100 ≤ m && m < 0x184)

/-- R229 is broken: the section's length, the place of the members, a number out of its range, or a Reserved bit that is not 0 (log 150). -/
def badSeq (b : Bytes) (n : Nat) : Bool :=
  let ps := (records 32 (b.take (32 * n))).filter (fun r => (memberSpan r).2 != 0)
  let ms := records 16 (b.drop (32 * n))
  b.length < 32 * n || b.length % 16 != 0 || ps.foldl (fun t r => t + (memberSpan r).2) 0 != ms.length ||
  ps.any (fun r => ms.length < (memberSpan r).1 + (memberSpan r).2 || 64 ≤ leAt r 0 1 || !onlyBits (leAt r 1 1) 0x0F || 16 ≤ leAt r 2 1 ||
    (if (leAt r 1 1).testBit 0 then leAt r 3 1 != 0xFF else 16 ≤ leAt r 3 1) || leAt r 0x10 16 != 0) ||
  (List.zip (List.range ps.length) ps).any (fun x => (List.zip (List.range ps.length) ps).any (fun y => x.1 < y.1 &&
    (leAt x.2 0 1 = leAt y.2 0 1 || ((memberSpan x.2).1 < (memberSpan y.2).1 + (memberSpan y.2).2 && (memberSpan y.2).1 < (memberSpan x.2).1 + (memberSpan x.2).2)))) ||
  ms.any (fun m => !isMaster (leAt m 0 2) || (if leAt m 0 2 < 72 then 8 ≤ leAt m 2 1 else leAt m 2 1 != 0xFF) || !onlyBits (leAt m 3 1) 7 ||
    leAt m 0xA 1 = 0 || 127 < leAt m 0xA 1 || !onlyBits (leAt m 0xC 1) 0x0C)

/-- Pairs of a REGSET section: BAR0 offset and value, 4 bytes each as in R242 (log 151). -/
def regsetPairs (b : Bytes) : List (Nat × Nat) := (records 8 b).map (fun r => (leAt r 0 4, leAt r 4 4))

/-! ### CURVE (R230, R281) -/

/-- A record's length: 16 bytes and COUNT entries. -/
def curveLen (b : Bytes) : Nat := 16 + 4 * leAt b 2 2

/-- The records of a CURVE section, one after the other; bytes that hold no whole record are left. -/
def curveParts : Nat → Bytes → List Bytes × Bytes
  | 0, b => ([], b)
  | n + 1, b =>
    if b.length < 16 || b.length < curveLen b then ([], b)
    else
      let r := curveParts n (b.drop (curveLen b))
      (b.take (curveLen b) :: r.1, r.2)

def curveOf (b : Bytes) : CurveRec :=
  ⟨leAt b 0 2, BitVec.ofNat 32 (leAt b 4 4), BitVec.ofNat 32 (leAt b 8 4), leAt b 0xC 1 % 4, leAt b 0xC 1 / 4 % 4,
    (records 4 (b.drop 16)).map (fun e => BitVec.ofNat 32 (leAt e 0 4))⟩

/-- A curve record that is a section error: its TARGET names nothing, its COUNT is not that of its target, an output-path curve has X0, ISTEP or MODES, or a Reserved bit is not 0. -/
def badCurve (b : Bytes) : Bool :=
  let t := leAt b 0 2
  let n := leAt b 2 2
  leAt b 0xD 3 != 0 || !onlyBits (leAt b 0xC 1) 0x0F ||
  (if t < 288 || (0x400 ≤ t && t < 0x410) then n != 256
   else if (0x8000 ≤ t && t < 0x8040) || (0x8040 ≤ t && t < 0x8060) then t % 4 = 3 || n != 1024 || leAt b 4 9 != 0
   else true)

/-! ### FORMAT (R285, R404) -/

/-- A record's length: its header and LENGTH bytes of body. -/
def formatLen (b : Bytes) : Nat := 4 + leAt b 2 2

/-- The records of a FORMAT section; bytes that hold no whole record are left. -/
def formatParts : Nat → Bytes → List Bytes × Bytes
  | 0, b => ([], b)
  | n + 1, b =>
    if b.length < 4 || b.length < formatLen b then ([], b)
    else
      let r := formatParts n (b.drop (formatLen b))
      (b.take (formatLen b) :: r.1, r.2)

/-- `n` FP32 values of a body at an offset. -/
def wordsAt (b : Bytes) (off n : Nat) : List Word := (List.range n).map (fun i => BitVec.ofNat 32 (leAt b (off + 4 * i) 4))

def colourOf (b : Bytes) : ColourEntry :=
  { linear := leAt b 4 1 = 1, alphaSrc := leAt b 5 1, alphaK := BitVec.ofNat 32 (leAt b 8 4), off1 := wordsAt b 12 3, gain := wordsAt b 24 3,
    mat := wordsAt b 36 9, off2 := wordsAt b 72 3 }

/-- The signed 16-bit coefficients of a set. -/
def coefOf (b : Bytes) : List Int := (records 2 (b.drop 4)).map (fun e => toSigned 16 (leAt e 0 2))

/-- Every phase of a set of `taps` taps sums to 1,024 (R285). -/
def phasesSum (taps : Nat) (l : List Int) : Bool :=
  (List.range 64).all (fun k => ((l.drop (k * taps)).take taps).foldl (· + ·) 0 = 1024)

/-- A FORMAT record that is a section error. -/
def badFormat (b : Bytes) : Bool :=
  let i := leAt b 1 1
  match leAt b 0 1 with
  | 1 => 16 ≤ i || leAt b 2 2 != 80 || 1 < leAt b 4 1 || 2 < leAt b 5 1 || leAt b 6 2 != 0
  | 2 => 4 ≤ i || leAt b 2 2 != 1024 || !phasesSum 8 (coefOf b)
  | 3 => 4 ≤ i || leAt b 2 2 != 768 || !phasesSum 6 (coefOf b)
  | _ => true

/-- The records of a type, with their INDEX. -/
def formatsOf {α : Type} (typ : Nat) (f : Bytes → α) (l : List Bytes) : List (Nat × α) :=
  (l.filter (fun b => leAt b 0 1 = typ)).map (fun b => (leAt b 1 1, f b))

/-! ### PHASES (R343) and ANALYSIS (R402) -/

def phaseRecOf (b : Bytes) : PhaseRec := ⟨leAt b 0x10 1, leAt b 0x11 1, leAt b 0x12 1, leAt b 0x14 2, BitVec.ofNat 64 (leAt b 0x18 8)⟩

/-- R343 is broken: the number of records, a field out of its range or a Reserved byte, more than one idle phase, or a pipeline that does not belong to exactly one phase. -/
def badPhases (b : Bytes) (n : Nat) (pipes : List Nat) : Bool :=
  let l := records 32 b
  let ps := l.map phaseRecOf
  b.length != 32 * n || l.any (fun r => 7 < leAt r 0x10 1 || leAt r 0x11 1 = 0 || 16 < leAt r 0x11 1 || leAt r 0x13 1 != 0 || leAt r 0x16 2 != 0) ||
  1 < (ps.filter (fun p => p.pipes = 0)).length || pipes.any (fun i => (ps.filter (fun p => p.pipes.getLsbD i)).length != 1)

def analysisOf (b : Bytes) : AnalysisRec := ⟨leAt b 0 2, leAt b 2 1, leAt b 3 1, leAt b 4 2, leAt b 6 1, leAt b 8 8⟩

/-! ### The image -/

/-- Plan `n` of an image: what Keeper reads of it, with its REGSET and SEQ sections. -/
def Dev.imgPlan (d : Dev) (addr n : Nat) (p : PlanDesc) : Plan :=
  { p with
    regset := regsetPairs (d.sectionBytes addr 0x04 n)
    pipes := seqPipes (d.sectionBytes addr 0x06 n) (leAt (d.bytes addr 128) 0x29 1) p.stages }

/-- The content of the image at a device address: PLAN_COUNT plans, and the sections that the whole image shares. -/
def Dev.imgContent (d : Dev) (addr : Nat) (f : ImgFound) : ImgReport :=
  let h := d.bytes addr 128
  let all (typ : Nat) : Bytes := d.sectionBytes addr typ 0xFF
  let fmt := (formatParts (all 0x08).length (all 0x08)).1
  { plans := (List.range (leAt h 0x28 1)).map (fun n => d.imgPlan addr n (f.plans.getD n {}))
    curves := (curveParts (all 0x09).length (all 0x09)).1.map curveOf
    colours := formatsOf 1 colourOf fmt
    hcoefs := formatsOf 2 coefOf fmt
    vcoefs := formatsOf 3 coefOf fmt
    phases := ((records 32 (all 0x0C)).map phaseRecOf).take (leAt h 0x2A 1)
    analysis := (records 32 (all 0x0E)).map analysisOf }

/-- A pipeline's members do not lie in stage order (R229): a member of a stage comes at or after one of a later stage. -/
def outOfOrder (p : Plan) : Bool :=
  p.pipes.any (fun r =>
    let ss := planStages p r.pipe
    (List.range ss.length).any (fun j => (List.range j).any (fun i =>
      ((ss[i]?.map StageRec.members).getD []).any (fun a => ((ss[j]?.map StageRec.members).getD []).any (fun b => b ≤ a)))))

/-- Pipelines of any plan with members. -/
def contentPipes (r : ImgReport) : List Nat := r.plans.flatMap (fun p => (p.pipes.filter (fun q => !q.members.isEmpty)).map PipeRec.pipe)

/-- A rule of a section's records is broken; SEQ and PHASES are required (log 150). -/
def Dev.badRecords (d : Dev) (addr : Nat) (r : ImgReport) : Bool :=
  let h := d.bytes addr 128
  let all (typ : Nat) : Bytes := d.sectionBytes addr typ 0xFF
  let curves := curveParts (all 0x09).length (all 0x09)
  let fmt := formatParts (all 0x08).length (all 0x08)
  (List.range (leAt h 0x28 1)).any (fun n =>
    (sectionOf (d.imgSections addr) 0x06 n).isNone || badSeq (d.sectionBytes addr 0x06 n) (leAt h 0x29 1) || (d.sectionBytes addr 0x04 n).length % 8 != 0) ||
  r.plans.any outOfOrder || !curves.2.isEmpty || curves.1.any badCurve || !fmt.2.isEmpty || fmt.1.any badFormat ||
  badPhases (all 0x0C) (leAt h 0x2A 1) (contentPipes r) || (all 0x0E).length % 32 != 0

end Sys2Proof.Machine
end

