-- ==== Sys2Proof/Machine/ImageChecks.lean ====
section
/-! DEFINITION. Keeper's checks of a plan and of its spare variants (R220, R232): what each refuses, with the detail it reports. An item of R220 that has a code of its own is
refused with that code, every other one with FIT (log 152). -/

namespace Sys2Proof.Machine

/-- A failed check: its code, and what TOP_IMG_DETAIL shows of it. -/
structure ImgFault where
  code : Nat
  pipe : Nat := 0
  stage : Nat := 0
  core : Nat := 0x7F
  plan : Nat := 0
  item : Nat := 0
  deriving DecidableEq, Repr

/-! ### Copies of a target's SIZE and HALVES (R164, R167, R217) -/

/-- TCORE and THANDLE of a REMOTE handle. -/
def remoteOf (p : Plan) (c h : Nat) : Nat × Nat :=
  (bits (planFld p (Reg.HND_BASE_ROW.at (cix c [h]))) 0 7, bits (planFld p (Reg.HND_SIZE.at (cix c [h]))) 0 6)

/-- Copies of SIZE and HALVES agree with those of every target handle. -/
def copiesAgree (p : Plan) (tcore handle size halves : Nat) : Bool :=
  (planTargets p tcore handle).all (fun t => size = planFld p (Reg.HND_SIZE.at (cix t.1 [t.2])) && halves = planFld p (Reg.HND_HALVES.at (cix t.1 [t.2])))

/-- A THANDLE that names a group is the group's. -/
def groupAgrees (p : Plan) (tcore handle : Nat) : Bool :=
  tcore < 72 || handle = planFld p (Reg.CL_MCG_THANDLE.at [(tcore - 72) / 7, (tcore - 72) % 7])

/-! ### Stripes (R109, R110, R198, R199) -/

/-- Dilated filter extent E. -/
def geoE (g : Geo) : Nat := (g.f - 1) * g.d + 1

/-- The limits of R109. -/
def geoLegal (g : Geo) : Bool :=
  1 ≤ g.i && 1 ≤ g.f && g.f ≤ 11 && 1 ≤ g.d && g.d ≤ 16 && 1 ≤ g.s && g.s ≤ 16 && g.lo ≤ 10 && g.hi ≤ 10

/-- The layer has no output along the axis (R110). -/
def geoEmpty (g : Geo) : Bool := g.i + g.lo + g.hi < geoE g

/-- Output extent O (R109). -/
def geoOut (g : Geo) : Nat := (g.i + g.lo + g.hi - geoE g) / g.s + 1

/-- Stripe members of a stage. -/
def stageMembers (r : PipeRec) (s : StageRec) : List MemberRec :=
  ((List.range r.members.length).zip r.members).filterMap (fun e => if s.members.contains e.1 && !e.2.frameMember then some e.2 else none)

/-- Stripe height, offset and rows of a stage, as its first stripe member has them. -/
def stageGrid (r : PipeRec) (s : StageRec) : Option (Nat × Nat × Nat) := (stageMembers r s).head?.map (fun m => (m.hi, m.delta, m.y))

/-- The least multiple of `g` that is at least `x` (R198). -/
def roundUp (g : Nat) (x : Int) : Nat := if x ≤ 0 then 0 else (x.toNat + g - 1) / g * g

/-- The η halo rows before producer stripe `s`, as far as the producer has them, lie in its stripe `s` - 1 (R199). -/
def haloInside (hp dp yp eta s : Nat) : Bool :=
  let f := s * hp + dp
  let lo := f - eta
  let hi := min f yp
  let prev := stripeRows hp dp yp (s - 1)
  hi ≤ lo || (prev.1 ≤ lo && hi ≤ prev.2)

/-- The hand-over from a stage to one it feeds: h_p, the bound on Δ_p, and whether η is at least P_lo and its rows lie where R199 wants them. -/
def handOver (r : PipeRec) (p c : StageRec) : Option (Nat × Int × Bool) :=
  match stageGrid r p, stageGrid r c, c.vert with
  | some gp, some gc, some g =>
    let b := max c.block 1
    let hc := gc.1 / b
    let dc := gc.2.1 / b
    let eta : Int := (gp.2.1 : Int) - ((g.s * dc : Nat) : Int) + (g.lo : Int)
    let fine := gc.1 % b = 0 && gc.2.1 % b = 0 && decide ((g.lo : Int) ≤ eta) && ((List.range r.stripes).drop 1).all (fun s =>
      let rows := stripeRows hc dc (gc.2.2 / b) s
      rows.2 ≤ rows.1 || haloInside gp.1 gp.2.1 gp.2.2 eta.toNat s)
    some (g.s * hc, ((g.s * dc + geoE g : Nat) : Int) - (g.s : Int) - (g.lo : Int), fine)
  | _, _, _ => none

/-- Stage `s`, at place `i` of its pipeline's, breaks R109, R198 or R199, or its members' numbers are not Keeper's: rows, stripe height, offset and downstream offset (R16). -/
def stageUnfit (r : PipeRec) (ss : List StageRec) (i : Nat) (s : StageRec) : Bool :=
  let ms := stageMembers r s
  let down := if i + 1 = ss.length then 0
    else ((ss.getLast?.map StageRec.phiNs).getD 0) + (((ss.drop (i + 1)).dropLast).foldl (fun n t => n + t.tauNs + t.omegaNs) 0)
  s.members.isEmpty || s.members.any (fun k => r.members.length ≤ k) || (s.vert.toList ++ s.horz.toList).any (fun g => !geoLegal g) ||
  match stageGrid r s with
  | none => false
  | some g =>
    let outs := s.feeds.filterMap (fun k => (ss[k]?).bind (fun c => handOver r s c))
    ms.any (fun m => (m.hi, m.delta, m.y) != g || m.downNs != down) ||
    (match s.vert with
     | some v => !geoEmpty v && geoOut v * max s.block 1 != g.2.2
     | none => false) ||
    (if i + 1 = ss.length then (!r.analysis && (g.1 != r.h || g.2.1 != 0)) || r.stripes != (g.2.2 + r.h - 1) / max r.h 1
     else outs.any (fun o => o.1 != g.1 || !o.2.2) ||
       (!outs.isEmpty && g.2.1 != roundUp (max s.block 1) (outs.foldl (fun m o => max m o.2.1) 0)))

/-! ### FIT (R220) -/

/-- LPDDR6 data bandwidth at the configured rate, in bytes per second (R187). -/
def Dev.ddrDataBps (d : Dev) : Nat :=
  match d.rd (Reg.DDR_DATARATE.at []) with
  | 9600 => 307200000000
  | 8533 => 273100000000
  | _ => 341000000000

/-- A quotient, or a sum of quotients, rounded down or up at each of them (log 178). -/
def nearSum (l : List (Nat × Nat)) (v : Nat) : Bool :=
  l.foldl (fun n x => n + x.1 / max x.2 1) 0 ≤ v && v ≤ l.foldl (fun n x => n + (x.1 + max x.2 1 - 1) / max x.2 1) 0

/-- The declared load of a boundary engine layer of an enhancement pipeline is that of R125 at its raster's frame rate. -/
def Dev.loadDeclared (d : Dev) (x : PipeRec × BeLayer × Nat) : Bool :=
  x.1.analysis || nearSum [d.perFrame (d.pipeRaster x.1) (d.beLayerCycles x.2.1 * x.2.2)] x.2.1.load

/-- FIT: what R220 asks of a plan that has no code of its own, and the declared LPDDR6 bytes and engine loads against Keeper's computation. The declared stage times are compared by
what Keeper reports with IMG_CHECKS_DONE, since the manual gives no formula for them (log 152). -/
def Dev.fitFaults (d : Dev) (p : Plan) : List ImgFault :=
  (planCores p).filterMap (fun c =>
    if (List.range 8).any (fun t => 0x300000 < planFld p (Reg.SP_TASK_BOUND.at (cix c [t])) || 0x300000 < planFld p (Reg.SP_TASK_BASE.at (cix c [t]))) then
      some ⟨0x09, 0, 0, c, 0, 0⟩ else none) ++
  (planBeLayers p).filterMap (fun x => if d.loadDeclared x then none else some ⟨0x09, x.1.pipe, 0, 0x7F, 0, 4⟩) ++
  (if 9 * d.ddrDataBps < 10 * p.ddrBps || !nearSum (d.planBytes p) p.ddrBps then [⟨0x09, 0, 0, 0x7F, 0, 7⟩] else []) ++
  (p.pipes.filter (fun r => !r.members.isEmpty)).flatMap (fun r =>
    let ss := planStages p r.pipe
    (if r.h < 8 || 64 < r.h || (timedPipe r && decide (15 * d.stripeNs r < (r.leadNs : Int))) || 16 < ss.length then [⟨0x09, r.pipe, 0, 0x7F, 0, 5⟩] else []) ++
    ((List.range ss.length).zip ss).filterMap (fun e => if stageUnfit r ss e.1 e.2 then some ⟨0x09, r.pipe, e.1, 0x7F, 0, 5⟩ else none))

/-! ### The other checks of a plan -/

/-- ACC_OVERLAP (R51): slots of two resident tasks of a core. -/
def accFaults (p : Plan) : List ImgFault :=
  (planCores p).flatMap (fun c =>
    let slots (t : Nat) : List Nat :=
      if planBit p (Reg.TASK_RESIDENT.at (cix c [t])) then
        (List.range (planFld p (Reg.MC_ACC_CNT.at (cix c [t])))).map (planFld p (Reg.MC_ACC_BASE.at (cix c [t])) + ·) |>.filter (· < 8)
      else []
    if (List.range 8).any (fun t => (List.range t).any (fun u => (slots t).any (slots u).contains)) then [⟨0x0B, 0, 0, c, 0, 1⟩] else [])

/-- EMPTY_LAYER (R110). -/
def emptyFaults (p : Plan) : List ImgFault :=
  (p.pipes.filter (fun r => !r.members.isEmpty)).flatMap (fun r =>
    let ss := planStages p r.pipe
    ((List.range ss.length).zip ss).filterMap (fun e => if (e.2.vert.toList ++ e.2.horz.toList).any geoEmpty then some ⟨0x0C, r.pipe, e.1, 0x7F, 0, 5⟩ else none))

/-- BE_LOAD (R130): the engines cannot carry the load of the plan's jobs, each within its set. -/
def loadFaults (p : Plan) : List ImgFault := if loadsFit p (List.range 4) then [] else [⟨0x0D, 0, 0, 0x7F, 0, 4⟩]

/-- TAGMODE of the handle or of a handle it reaches is COUNTED (R144). -/
def countedHandle (p : Plan) (c h : Nat) : Bool :=
  if planFld p (Reg.HND_KIND.at (cix c [h])) = 0 then planFld p (Reg.HND_TAGMODE.at (cix c [h])) = 2
  else (planTargets p (remoteOf p c h).1 (remoteOf p c h).2).any (fun t => planFld p (Reg.HND_TAGMODE.at (cix t.1 [t.2])) = 2)

/-- The code writes by accumulate-on-write or releases a COUNTED handle (R211). -/
def tilesUnfit (p : Plan) (c t : Nat) : Bool :=
  (taskCode p c t).any (fun w =>
    (bits w.toNat 0 8 = 0x20 && bits w.toNat 13 1 = 1) || (bits w.toNat 0 8 = 0x0F && bits w.toNat 16 1 = 1 && countedHandle p c (bits w.toNat 8 6)))

/-- HANDLE (R137, R164, R211). -/
def handleFaults (p : Plan) : List ImgFault :=
  (planCores p).flatMap (fun c => (planHandles p c).filterMap (fun h =>
    let v (f : RegDef) : Nat := planFld p (f.at (cix c [h]))
    let bad := v Reg.HND_TAGMODE = 3 ||
      (if v Reg.HND_KIND = 0 then 6144 < v Reg.HND_BASE_ROW + (v Reg.HND_HALVES + 1) * (v Reg.HND_SIZE + 1)
       else (remoteOf p c h).1 < 72 && !copiesAgree p (remoteOf p c h).1 (remoteOf p c h).2 (v Reg.HND_TSIZE) (v Reg.HND_THALVES))
    if bad then some ⟨0x0E, 0, 0, c, 0, 0⟩ else none)) ++
  (p.pipes.filter (fun r => !r.members.isEmpty)).flatMap (fun r =>
    let ss := planStages p r.pipe
    ((List.range ss.length).zip ss).flatMap (fun e => if e.2.split != 1 then [] else
      (stageMembers r e.2).filterMap (fun m => if m.master < 72 && (e.2.aow || tilesUnfit p m.master m.task) then some ⟨0x0E, r.pipe, e.1, m.master, 0, 0⟩ else none)))

/-- GATED (R155): a gated bank that a valid handle, which inbound routes name, or a task's range touches. -/
def gatedFaults (p : Plan) : List ImgFault :=
  (planCores p).filterMap (fun c =>
    let gated (b : Nat) : Bool := (if b < 32 then planFld p (Reg.SP_BANK_PG_LO.at (cix c)) else planFld p (Reg.SP_BANK_PG_HI.at (cix c))).testBit (b % 32)
    let rows := ((planHandles p c).filter (fun h => planFld p (Reg.HND_KIND.at (cix c [h])) = 0)).map (fun h =>
        (planFld p (Reg.HND_BASE_ROW.at (cix c [h])) * 512, (planFld p (Reg.HND_HALVES.at (cix c [h])) + 1) * (planFld p (Reg.HND_SIZE.at (cix c [h])) + 1) * 512)) ++
      (List.range 8).map (fun t =>
        let lo := planFld p (Reg.SP_TASK_BASE.at (cix c [t]))
        (lo, min (planFld p (Reg.SP_TASK_BOUND.at (cix c [t]))) 0x300000 - lo))
    if rows.any (fun s => (banksOf s.1 s.2).any gated) then some ⟨0x0F, 0, 0, c, 0, 0⟩ else none)

/-- An offset that holds image-owned fields (R236). -/
def ownedOffset (a : Nat) : Bool := inClusters a && (fieldsAt a).any (fun r => r.1.acc = .rws)

/-- A boundary engine's route to a multicast group names the group's handle, and its SIZE and HALVES (R217). -/
def beRouteAgrees (p : Plan) (l : BeLayer) : Bool :=
  let ok (t h : Nat) : Bool := t < 72 || (groupAgrees p t h && copiesAgree p t h l.tsize l.thalves)
  l.last || (ok l.tcore l.thandle && (l.eta = 0 || ok l.haloCore l.haloHandle))

/-- COPY (R167, R217, R232). -/
def copyFaults (p : Plan) : List ImgFault :=
  (if p.regset.any (fun e => !ownedOffset e.1) then [⟨0x10, 0, 0, 0x7F, 0, 0⟩] else []) ++
  p.beLayers.filterMap (fun l => if beRouteAgrees p l then none else some ⟨0x10, l.pipe, 0, 0x7F, 0, 0⟩) ++
  (planCores p).flatMap (fun c => (planHandles p c).filterMap (fun h =>
    let r := remoteOf p c h
    if planFld p (Reg.HND_KIND.at (cix c [h])) = 1 && 72 ≤ r.1 && (!groupAgrees p r.1 r.2 ||
        !copiesAgree p r.1 r.2 (planFld p (Reg.HND_TSIZE.at (cix c [h]))) (planFld p (Reg.HND_THALVES.at (cix c [h])))) then some ⟨0x10, 0, 0, c, 0, 0⟩ else none)) ++
  (planSus p).flatMap (fun u =>
    ((List.range 8).filterMap (fun k =>
      let i := six u [k]
      let t := planFld p (Reg.SU_RT_TCORE.at i)
      let h := planFld p (Reg.SU_RT_THANDLE.at i)
      if planBit p (Reg.SU_RT_VALID.at i) && (!groupAgrees p t h ||
          !copiesAgree p t h (planFld p (Reg.SU_RT_TSIZE.at i)) (planFld p (Reg.SU_RT_THALVES.at i))) then some ⟨0x10, 0, 0, 0x7F, 0, 0⟩ else none)) ++
    (List.range 4).filterMap (fun k =>
      let i := six u [k]
      let t := planFld p (Reg.SU_WP_TCORE.at i)
      if planBit p (Reg.SU_WP_VALID.at i) && (72 ≤ t ||
          !copiesAgree p t (planFld p (Reg.SU_WP_THANDLE.at i)) (planFld p (Reg.SU_WP_TSIZE.at i)) (planFld p (Reg.SU_WP_THALVES.at i))) then
        some ⟨0x10, 0, 0, 0x7F, 0, 0⟩ else none))

/-- TAGS (R182): TAGRES of a cluster's stream units. -/
def tagFaults (p : Plan) : List ImgFault :=
  (List.range 8).filterMap (fun n =>
    if 512 < ((List.range 16).map (fun k => planFld p (Reg.SU_TAGRES.at [n, k]))).foldl (· + ·) 0 then some ⟨0x11, 0, 0, 0x7F, 0, 3⟩ else none)

/-- COUNTER (R207, R213, R229): HI + DELTA above 127, a stripe of more than 65,535 tiles, or a LEASE that is not shorter than its pipeline's lead. -/
def counterFaults (p : Plan) : List ImgFault :=
  (p.pipes.filter (fun r => !r.members.isEmpty)).flatMap (fun r =>
    (if r.members.any (fun m => 127 < m.hi + m.delta ||
        (m.armsWc && 65535 < min (m.hi + m.delta) m.y * planFld p (Reg.CL_WC_PER_ROW.at [m.wcCluster, m.wc]))) then [⟨0x12, r.pipe, 0, 0x7F, 0, 6⟩] else []) ++
    (if (List.range 8).any (fun n => (List.range 32).any (fun w => planBit p (Reg.CL_WC_VALID.at [n, w]) && planFld p (Reg.CL_WC_PIPELINE.at [n, w]) = r.pipe &&
        r.leadNs ≤ 1000 * planFld p (Reg.CL_WC_LEASE.at [n, w]))) then [⟨0x12, r.pipe, 0, 0x7F, 0, 6⟩] else []))

/-- Hand-overs of a plan, from the buffer a task, stream unit or engine reads to the one it writes over a route: cores and handles (R137, R167; log 153). -/
def routeEdges (p : Plan) : List ((Nat × Nat) × (Nat × Nat)) :=
  (planCores p).flatMap (fun c =>
    let own (h : Nat) : Nat := planFld p (Reg.HND_OWNERS.at (cix c [h]))
    let hs := planHandles p c
    (hs.filter (fun h => planFld p (Reg.HND_KIND.at (cix c [h])) = 1)).flatMap (fun h =>
      (hs.filter (fun l => planFld p (Reg.HND_KIND.at (cix c [l])) = 0 && Nat.land (own l) (own h) != 0)).flatMap (fun l =>
        (planTargets p (remoteOf p c h).1 (remoteOf p c h).2).map (fun t => ((c, l), t))))) ++
  (planSus p).flatMap (fun u =>
    ((List.range 4).filter (fun k => planBit p (Reg.SU_WP_VALID.at (six u [k])))).flatMap (fun k =>
      ((List.range 8).filter (fun r => planBit p (Reg.SU_RT_VALID.at (six u [r])))).flatMap (fun r =>
        (planTargets p (planFld p (Reg.SU_RT_TCORE.at (six u [r]))) (planFld p (Reg.SU_RT_THANDLE.at (six u [r])))).map (fun t =>
          ((planFld p (Reg.SU_WP_TCORE.at (six u [k])), planFld p (Reg.SU_WP_THANDLE.at (six u [k]))), t)))))

/-- Drops the edges that lead to a node from which none starts. -/
def pruneEdges (l : List ((Nat × Nat) × (Nat × Nat))) : List ((Nat × Nat) × (Nat × Nat)) := l.filter (fun e => l.any (fun f => f.1 = e.2))

/-- ROUTE_CYCLE (R232): edges are left when all that lead nowhere are gone. -/
def cycleFaults (p : Plan) : List ImgFault :=
  let l := routeEdges p
  if (upTo l.length (fun _ l => pruneEdges l) l).isEmpty then [] else [⟨0x13, 0, 0, 0x7F, 0, 0⟩]

/-- SLACK (R222): the pipelines of a plan whose slack is negative. -/
def Dev.slackFaults (d : Dev) (phases : List PhaseRec) (p : Plan) : List ImgFault :=
  (d.lateIn p (fun _ => 16) (d.checkClock phases)).map (fun r => ⟨0x0A, r.pipe, 0, 0x7F, 0, 8⟩)

/-- Every failed check of a plan but its slack. -/
def Dev.planFaults (d : Dev) (p : Plan) : List ImgFault :=
  d.fitFaults p ++ accFaults p ++ emptyFaults p ++ loadFaults p ++ handleFaults p ++ gatedFaults p ++ copyFaults p ++ tagFaults p ++ counterFaults p ++ cycleFaults p

/-- A plan with its spare variants, one for each active core it uses where it leaves core 8 of the cluster free (R223). -/
def withVariants (p : Plan) : List Plan :=
  p :: ((List.range 72).filter (fun c => c % 9 != 8 && planUses p c && !planUses p (c / 9 * 9 + 8))).map (fun c => variant p [c])

/-- The failed checks of every plan and of every spare variant (R232). -/
def Dev.contentFaults (d : Dev) (r : ImgReport) : List ImgFault :=
  ((List.range r.plans.length).zip r.plans).flatMap (fun e => (withVariants e.2).flatMap (fun p => (d.planFaults p).map (fun x => { x with plan := e.1 })))

/-- The failed check with the lowest code, the first of those in the list. -/
def firstFault : List ImgFault → Option ImgFault
  | [] => none
  | x :: l => match firstFault l with
    | some y => if y.code < x.code then some y else some x
    | none => some x

end Sys2Proof.Machine
end

