-- ==== Sys2Proof/Machine/Images.lean ====
section
/-! DEFINITION. Image commands and Keeper's checks of a configuration image (R226 to R232, R238, R424). -/

namespace Sys2Proof.Machine

/-! ### Header and sections (R226 to R228) -/

/-- Types that may be given per plan. -/
def perPlan (typ : Nat) : Bool := [1, 2, 3, 4, 5, 6, 0x0A, 0x0B, 0x0D].contains typ

/-- Ranges [a, a+n) and [b, b+m) meet. -/
def meets (a n b m : Nat) : Bool := a < b + m && b < a + n

/-- R227 is broken. -/
def badSections (l : List Section) (imgLen tabOff tabLen plans : Nat) : Bool :=
  let ix := List.zip (List.range l.length) l
  ix.any (fun e =>
    let s := e.2
    s.off % 256 != 0 || imgLen < s.off + s.len || meets s.off s.len 0 128 || meets s.off s.len tabOff tabLen ||
    s.typ = 0 || (0x10 ≤ s.typ && s.typ < 0x80) || 0xFF < s.typ || s.flags != 0 ||
    (s.typ < 0x80 && (if perPlan s.typ then plans ≤ s.plan && s.plan != 0xFF else s.plan != 0xFF)) ||
    ix.any (fun f => f.1 < e.1 && (meets s.off s.len f.2.off f.2.len ||
      (s.typ < 0x80 && f.2.typ = s.typ && (s.plan = f.2.plan || s.plan = 0xFF || f.2.plan = 0xFF)))))

/-- Bytes with `n` of them from an offset on taken as zero. -/
def zeroed (b : Bytes) (off n : Nat) : Bytes := b.take off ++ List.replicate (min n (b.length - off)) 0 ++ b.drop (off + n)

/-- The OPSIG section of an image. -/
def Dev.opsigOf (d : Dev) (addr : Nat) : Option Section := (d.imgSections addr).find? (fun s => s.typ = 0x0F)

/-- SHA-384 of an image under R228. -/
def Dev.imgDigest (d : Dev) (addr : Nat) : Bytes :=
  let b := zeroed (d.bytes addr (d.readLe (addr + 0x10) 8)) 0x30 48
  Config.sha384 (match d.opsigOf addr with
    | some s => zeroed b s.off s.len
    | none => b)

/-- The OPSIG section verifies (R424). -/
def Dev.opsigGood (d : Dev) (addr : Nat) (s : Section) : Bool :=
  let dig := d.bytes (addr + 0x30) 48
  match d.flash.owner with
  | none => false
  | some o => s.len = 16608 && Config.rsaVerify o.rsa dig (d.bytes (addr + s.off) 384) &&
    Config.slhVerify o.slh dig (d.bytes (addr + s.off + 384) 16224)

/-- Ranges of the input frame buffers of the streams in use. -/
def Dev.ifbMeets (d : Dev) (a n : Nat) : Bool :=
  (List.range 16).any (fun s => d.rd (Reg.STR_SRC.at [s]) != 0 && meets a n (d.ifbRange s).1 (d.ifbRange s).2)

/-- A failed check of what R232 asks of the header, the signature and the sections: its code (R226 to R230, R281, R285, R343, R404, R424). -/
def Dev.headerCode (d : Dev) (addr : Nat) (r : ImgReport) : Nat :=
  let h := d.bytes addr 128
  let ver := leAt h 0x04 2
  let size := if ver = 1 then 12 else 16
  let ss := d.imgSections addr
  let n := leAt h 0x10 8
  let plans := leAt h 0x28 1
  let opsig := d.opsigOf addr
  firstCode [
    (0x01, addr % 4096 != 0 || leAt h 0 4 != 0x1A4B4449 || leAt h 6 2 != 128 || 1 < leAt h 0x0C 4 || leAt h 0x2B 5 != 0 || leAt h 0x60 32 != 0),
    (0x02, !(ver = 1 || ver = 2) || leAt h 0x1A 2 != size || (if ver = 1 then 0xFFFFFFFF < n else 64 * 2 ^ 30 < n) ||
      plans = 0 || (if ver = 1 then 5 else 9) < plans || (ver = 1 && ss.any (fun s => s.typ = 0x0F || s.typ = 0x0E))),
    (0x03, leAt h 0x08 4 != 0x0DF87201),
    (0x04, d.imgDigest addr != d.bytes (addr + 0x30) 48),
    (0x05, d.rd (Reg.SEC_FW_VERSION.at []) < leAt h 0x24 4),
    (0x06, d.bit (Reg.SEC_OPSIG_REQ.at []) && opsig.isNone),
    (0x07, match opsig with
      | some s => !d.opsigGood addr s
      | none => false),
    (0x08, ss.isEmpty || 64 < ss.length || leAt h 0x1C 4 % 16 != 0 || 64 < leAt h 0x29 1 || leAt h 0x2A 1 = 0 || 16 < leAt h 0x2A 1 ||
      badSections ss n (leAt h 0x1C 4) (ss.length * size) plans || d.badRecords addr r)]

/-- REGION (R232): the image, or a region that a plan declares, meets the active image or the input frame buffers in use. -/
def Dev.regionFaults (d : Dev) (addr len : Nat) (r : ImgReport) : List ImgFault :=
  let taken (a : Nat × Nat) : Bool := (d.activeImage.2 != 0 && meets a.1 a.2 d.activeImage.1 d.activeImage.2) || d.ifbMeets a.1 a.2
  (if taken (addr, len) then [{ code := 0x14 }] else []) ++
  ((List.range r.plans.length).zip r.plans).filterMap (fun e => if e.2.regions.any taken then some { code := 0x14, plan := e.1 } else none)

/-- The first failed check of an image in the order of R232: of its header and sections, of its plans and their variants, of its regions, or one that Keeper reports. -/
def Dev.imgFault (d : Dev) (addr len : Nat) (f : ImgFound) : Option ImgFault :=
  let r := d.imgContent addr f
  let c := d.headerCode addr r
  if c != 0 then some { code := c }
  else firstFault ((if f.code = 0 then [] else [⟨f.code, f.detPipe, f.detStage, f.detCore, f.detPlan, f.detItem⟩]) ++ d.contentFaults r ++ d.regionFaults addr len r)

/-! ### Commands (R231, R232) -/

def imgIdle : Nat := 0
def imgChecking : Nat := 1
def imgWait : Nat := 2
def imgCutover : Nat := 3
def imgDone : Nat := 4
def imgRefused : Nat := 5

def Dev.imgState (d : Dev) : Nat := d.rd (Reg.TOP_IMG_STATE.at [])
def Dev.setImgState (d : Dev) (v : Nat) : Dev := d.wr (Reg.TOP_IMG_STATE.at []) v

/-- The held PIPE commit (R238): an installation, or a change of plan, is under way. -/
def Dev.pipeHeld (d : Dev) : Bool := d.imgState = imgWait || d.imgState = imgCutover || d.cut.kind != 0

/-- A held PIPE commit is checked again; it stays armed, or it is rejected (R238). -/
def Dev.recheckPipe (d : Dev) : Dev :=
  if !d.armed 2 then d
  else
    let v := d.checkCommit [2] true
    if v.code = 0 then d else (d.setBit (Reg.TOP_ARMED.at []) 2 false).reject [2] v

/-- An image is refused (R232): it changes nothing else. DET fields that the failed check does not name read as at reset (log 41). -/
def Dev.refuseImage (d : Dev) (x : ImgFault) : Dev :=
  let held := d.imgState = imgWait
  let d := (d.setImgState imgRefused).wr (Reg.TOP_IMG_REFUSE.at []) x.code
  let d := ((d.wr (Reg.TOP_DET_PIPE.at []) x.pipe).wr (Reg.TOP_DET_STAGE.at []) x.stage).wr (Reg.TOP_DET_CORE.at []) x.core
  let d := (d.wr (Reg.TOP_DET_PLAN.at []) x.plan).wr (Reg.TOP_DET_ITEM.at []) x.item
  let d := { d with inst := {} }.raise 0x0904 8 0
  if held then d.recheckPipe else d

/-- IMG_CMD INSTALL or VALIDATE. -/
def Dev.startImage (d : Dev) (kind : Nat) : Dev :=
  if d.imgState = imgChecking || d.imgState = imgWait || d.imgState = imgCutover then d
  else
    let addr := d.rd (Reg.TOP_IMG_ADDR_LO.at []) + d.rd (Reg.TOP_IMG_ADDR_HI.at []) * 2 ^ 32
    let len := d.rd (Reg.TOP_IMG_LEN_LO.at []) + d.rd (Reg.TOP_IMG_LEN_HI.at []) * 2 ^ 32
    { d with inst := { kind := kind, addr := addr, len := len } }.setImgState imgChecking

/-- INSTALL (R231, R233): Keeper checks the image; what follows is IMG_CHECKS_DONE and the cut-over. -/
def execInstall (s : State) : Host.Outcome State Fault Refusal := s.act (fun d => d.startImage 1)

/-- VALIDATE (R231): Keeper checks the image, and stops before installation. -/
def execValidate (s : State) : Host.Outcome State Fault Refusal := s.act (fun d => d.startImage 2)

/-- CANCEL (R231): ends a command in CHECKING or WAIT_BOUNDARY; the image is refused with CANCELLED. -/
def execCancel (s : State) : Host.Outcome State Fault Refusal :=
  s.act (fun d => if d.imgState = imgChecking || d.imgState = imgWait then d.refuseImage { code := 0x15 } else d)

/-- The failed check that the choice of a plan answers with (R220, R222). -/
def Dev.choiceFault (d : Dev) (r : ImgReport) (code : Nat) : ImgFault :=
  match (if code = 0x0A then (r.plans.head?.map (d.slackFaults r.phases)).getD [] else []) with
  | x :: _ => x
  | [] => { code := code }

/-- IMG_CHECKS_DONE (R222, R231, R232): the image is refused with the first failed check, or waits for a boundary, or VALIDATE ends in DONE. -/
def execImgChecksDone (r : ImgFound) (s : State) : Host.Outcome State Fault Refusal :=
  s.act (fun d =>
    if d.imgState != imgChecking then d
    else
      let addr := d.inst.addr
      let content := d.imgContent addr r
      let bad := d.imgFault addr d.inst.len r
      match d.choosePlan content.phases content.plans ((d.readLe (addr + 0x0C) 4).testBit 0) with
      | .error e => d.refuseImage ((firstFault (bad.toList ++ [d.choiceFault content e])).getD (d.choiceFault content e))
      | .ok (i, degraded) =>
        match bad with
        | some x => d.refuseImage x
        | none =>
          if d.inst.kind = 2 then ({ d with inst := {} }.wr (Reg.TOP_IMG_PLAN.at []) i).setImgState imgDone
          else
            let dig := d.bytes (addr + 0x30) 48
            { d with inst := { d.inst with rep := content, plan := i, degraded := degraded, digest := dig } }.setImgState imgWait)

end Sys2Proof.Machine
end

