-- ==== Sys2Proof/Machine/Power.lean ====
section
/-! DEFINITION. Operating points, the power cap, PMBus rails, ageing and temperature (R341 to R361, R454, R455, R459). -/

namespace Sys2Proof.Machine

def Dev.onPower (d : Dev) (f : Power → Power) : Dev := { d with power := f d.power }

/-! ### Phases and operating points (R343 to R345) -/

/-- Master identifiers and tasks of the cores that the SEQ section declares for phase `p` (R343). -/
def Dev.phaseCores (d : Dev) (p : Nat) : List (Nat × Nat) :=
  match d.phases[p]? with
  | none => []
  | some r => (d.plan.pipes.filter (fun q => r.pipes.getLsbD q.pipe)).flatMap (fun q =>
      (q.members.filter (fun m => decide (m.master < 72))).map (fun m => (m.master, m.task)))

/-- The phase of a task. -/
def Dev.phaseOf (d : Dev) (c t : Nat) : Option Nat := (List.range d.phases.length).find? (fun p => (d.phaseCores p).contains (c, t))

/-- Operating point of a cluster: the highest preferred one of its phases, else the idle phase's, else 0 (R344). -/
def Dev.clusterPoint (d : Dev) (n : Nat) : Nat :=
  let ps := (List.range d.phases.length).filter (fun p => (d.phaseCores p).any (fun c => c.1 / 9 = n))
  let pref (p : Nat) : Nat := d.rd (Reg.PWR_PHASE_OP.at [p])
  let idle := (List.range d.phases.length).find? (fun p => match d.phases[p]? with
    | some r => r.pipes = 0
    | none => false)
  let want := if ps.isEmpty then (idle.map pref).getD 0 else ps.foldl (fun m p => max m (pref p)) 0
  min want (d.rd (Reg.PWR_OP_MAX.at []))

/-- Rail voltage for the operating points of the clusters (R344). -/
def Dev.railFor (d : Dev) (ops : List Nat) : Nat :=
  ops.foldl (fun m op => max m (d.rd (Reg.PWR_OP_VMIN_MV.at [op]))) 0 + d.rd (Reg.PWR_AGE_COMP_MV.at []) + d.rd (Reg.PWR_GB_MV.at [])

/-- Switches the clocks of clusters; a change of operating point is reported (R345). -/
def Dev.switchClocks (d : Dev) (l : List (Nat × Nat)) : Dev :=
  let was := d
  l.foldl (fun d e =>
    let d := (d.onPower (fun p => { p with ops := Tab.put 0 p.ops e.1 e.2 })).wr (Reg.CL_CLK_MHZ.at [e.1]) (d.rd (Reg.PWR_OP_MHZ.at [e.2]))
    if Tab.get 0 was.power.ops e.1 = e.2 then d else d.raise 0x0605 4 e.1 [e.1, e.2]) d

/-- A rail that receives VOUT_COMMAND is named (R455). -/
def Dev.coreRail (d : Dev) : Bool := (List.range 8).any (fun r => d.bit (Reg.PWR_RAIL_VALID.at [r]) && d.bit (Reg.PWR_RAIL_CORE.at [r]))

/-- The rail's set point: it starts at 0.95 V and holds that until the first VOUT_COMMAND (R455). -/
def Dev.railMv (d : Dev) : Nat := if d.rd (Reg.PWR_VDD_MV.at []) = 0 then 950 else d.rd (Reg.PWR_VDD_MV.at [])

/-- At a PIPE boundary after an installation, a commit or a change of AGE_COMP or OP_MAX, points and rail follow; a higher voltage comes before its clocks (R345, R352). -/
def Dev.powerBoundary (d : Dev) : Dev :=
  if !d.power.due then d
  else
    let d := d.onPower (fun p => { p with due := false })
    let ops := (List.range 8).map d.clusterPoint
    let changed := ((List.range 8).filter (fun n => ops.getD n 0 != Tab.get 0 d.power.ops n || d.rd (Reg.CL_CLK_MHZ.at [n]) = 0)).map (fun n => (n, ops.getD n 0))
    let v := d.railFor ops
    let old := d.railMv
    if !d.coreRail then d.switchClocks changed
    else
      let d := d.wr (Reg.PWR_VDD_MV.at []) v
      if old < v then d.onPower (fun p => { p with switching := changed }) else (d.onPower (fun p => { p with switching := [] })).switchClocks changed

/-- VSETTLE_DONE (R345): the rail has reached its raised set point, and the clocks switch. -/
def execVsettleDone (s : State) : Host.Outcome State Fault Refusal :=
  s.act (fun d => (d.onPower (fun p => { p with switching := [] })).switchClocks d.power.switching)

/-- AGEING_EVAL (R352): each hour of operation. -/
def execAgeingEval (marginLow : Bool) (s : State) : Host.Outcome State Fault Refusal :=
  s.act (fun d =>
    if !marginLow then d
    else
      let d := { d with healthDirty := true }.onPower (fun p => { p with due := true })
      let comp := d.rd (Reg.PWR_AGE_COMP_MV.at []) + 5
      if comp ≤ 40 then (d.wr (Reg.PWR_AGE_COMP_MV.at []) comp).raise 0x0620 8 0 [comp]
      else (d.wr (Reg.PWR_OP_MAX.at []) (d.rd (Reg.PWR_OP_MAX.at []) - 1)).raise 0x0606 8 0)

/-! ### Rails (R341, R342, R459) -/

/-- Milliwatts of a LINEAR11 word, rounded down; a negative reading counts as 0. -/
def linear11 (w : Nat) : Nat :=
  let n := toSigned 5 (w / 2048)
  let y := toSigned 11 w
  (if n < 0 then y * 1000 / ((2 ^ n.natAbs : Nat) : Int) else y * 1000 * ((2 ^ n.natAbs : Nat) : Int)).toNat

def Dev.rails (d : Dev) : List Nat := (List.range 8).filter (fun r => d.bit (Reg.PWR_RAIL_VALID.at [r]))

/-- No member of a stage is active (R354). -/
def Dev.stagesIdle (d : Dev) : Bool :=
  (List.range 72).all (fun c => d.mcState c != mcRun) && (List.range 128).all (fun u => d.suState u = suIdle || d.suState u = suFrozen) &&
  (List.range 4).all (fun e => (d.be e).job.isNone && (d.be e).queue.isEmpty)

/-- A poll enters the measurements of P_BASE (R354): the first 100 with outputs running and no stage active, and those of steps 1 to 3 of a cut-over. -/
def Dev.basePoll (d : Dev) (mw : Nat) : Dev :=
  let w := d.power
  let d := if d.cut.kind != 0 && d.cut.step != 3 then d.onPower (fun p => { p with cutMw := (p.cutMw.1 + mw, p.cutMw.2 + 1) }) else d
  if w.based || !(d.outRuns 0 || d.outRuns 1) || !d.stagesIdle then d
  else
    let s := (w.bootMw.1 + mw, w.bootMw.2 + 1)
    if s.2 < 100 then d.onPower (fun p => { p with bootMw := s })
    else (d.onPower (fun p => { p with bootMw := s, based := true })).wr (Reg.PWR_P_BASE_MW.at []) (openDiv s.1 s.2)

/-- P_BASE after step 3 of a cut-over that has lasted at least 1 ms (R354). -/
def Dev.baseAgain (d : Dev) : Dev :=
  let m := d.power.cutMw
  let d := d.onPower (fun p => { p with cutMw := (0, 0) })
  if d.time < d.cut.b0 + 1000000 || m.2 = 0 then d else (d.onPower (fun p => { p with based := true })).wr (Reg.PWR_P_BASE_MW.at []) (openDiv m.1 m.2)

/-- PMBUS_POLL (R342): READ_POUT of each valid rail; `none`, the read or its PEC check fails. A rail that has failed three times in a row counts with its last good value
times the model energy since the last poll over that at the value; where that was 0 the ratio is a free value (log 40). -/
def execPmbusPoll (pout : List (Option (BitVec 16))) (s : State) : Host.Outcome State Fault Refusal :=
  s.act (fun d =>
    let now := d.power.pollFj
    let r := d.rails.foldl (fun (acc : Nat × Dev) r =>
      let d := acc.2
      match (pout[r]?).getD none with
      | some w =>
        let mw := linear11 w.toNat
        (acc.1 + mw, d.onPower (fun p =>
          { p with railMw := Tab.put 0 p.railMw r mw, railFails := Tab.put 0 p.railFails r 0, railFj := Tab.put 0 p.railFj r now }))
      | none =>
        let n := Tab.get 0 d.power.railFails r + 1
        let d := d.onPower (fun p => { p with railFails := Tab.put 0 p.railFails r n })
        let d := if n = 3 then d.raise 0x0603 6 (0x100 + r) [r] else d
        let mw := Tab.get 0 d.power.railMw r
        let fj := Tab.get 0 d.power.railFj r
        if n < 3 then (acc.1 + mw, d)
        else if fj = 0 then (acc.1 + d.freeVal 20, d.useFree)
        else (acc.1 + openDiv (mw * now) fj, d)) (0, d)
    let d := r.2.set (Reg.PWR_PMBUS_OK.at []) (r.2.rails.all (fun x => Tab.get 0 r.2.power.railFails x < 3))
    (d.onPower (fun p => { p with sum := p.sum + r.1, polls := p.polls + 1, pollFj := 0 })).basePoll r.1)

/-- PMB_ALERT (R459): STATUS_WORD of every valid rail is read. -/
def execPmbAlert (status : List (BitVec 16)) (s : State) : Host.Outcome State Fault Refusal :=
  s.act (fun d => d.rails.foldl (fun d r =>
    let w := ((status[r]?).getD 0).toNat
    if w = 0 then d else d.raiseSecond 0x0607 6 (0x100 + r) r [r, w]) d)

/-! ### The cap (R346 to R350, R353, R354) -/

/-- Device energy over the most recent `t` milliseconds of a history, in µJ. -/
def energyOver : Nat → List (Nat × Nat) → Nat
  | _, [] => 0
  | t, (ms, mw) :: rest => min t ms * mw + energyOver (t - ms) rest

/-- The entries of a history that reach into the most recent `t` milliseconds. -/
def recent : Nat → List (Nat × Nat) → List (Nat × Nat)
  | _, [] => []
  | t, e :: rest => if t = 0 then [] else e :: recent (t - e.1) rest

/-- Raises an event at most once per window (R348, R354). -/
def Dev.raiseWindow (d : Dev) (code : Nat) : Dev :=
  let k := code * 65536
  let last := Tab.get 0 d.limits k
  if last = 0 || last + 1000000 * d.rd (Reg.PWR_WINDOW_MS.at []) ≤ d.time + 1 then
    { d with limits := Tab.put 0 d.limits k (d.time + 1) }.raise code 8 0
  else d

/-- Inserts a phase by ascending RANK, ties in phase order. -/
def Dev.rankInsert (d : Dev) (p : Nat) : List Nat → List Nat
  | [] => [p]
  | q :: l => if d.rd (Reg.PWR_PHASE_RANK.at [p]) < d.rd (Reg.PWR_PHASE_RANK.at [q]) then p :: q :: l else q :: d.rankInsert p l

/-- MIN_LIMIT of a phase; 0 acts as 1, and no limit is above 16. -/
def Dev.minLimit (d : Dev) (p : Nat) : Nat := min 16 (max 1 (d.rd (Reg.PWR_PHASE_MIN_LIMIT.at [p])))

/-- The limits of R346 step 4, from 16 times what is left to give. -/
def Dev.grant (d : Dev) (left16 : Int) : List Nat → List (Nat × Nat)
  | [] => []
  | p :: ps =>
    let dm := d.rd (Reg.PWR_PHASE_DEMAND_MW.at [p])
    let l := if dm = 0 then 16 else min 16 (max (d.minLimit p) (left16.toNat / dm))
    (p, l) :: d.grant (left16 - ((dm * l : Nat) : Int)) ps

/-- Milliwatts of a model energy over `ms` milliseconds, times k (R354). -/
def Dev.modelMw (d : Dev) (fj ms : Nat) : Nat := openDiv (fj * d.rd (Reg.PWR_K.at [])) (4096 * 10 ^ 9 * ms)

/-- The core share of phase `p` over a period of `ms` milliseconds (R346): the MAC and scratchpad terms of its pipelines. -/
def Dev.coreShare (d : Dev) (p ms : Nat) : Nat :=
  match d.phases[p]? with
  | none => 0
  | some r => d.modelMw ((d.power.coreFj.filter (fun e => r.pipes.getLsbD e.1)).foldl (fun n e => n + e.2) 0) ms

/-- CONTROL_PERIOD (R346 to R348, R353, R354): shares are taken with the k in force, then k follows. A committed CAP_W outside 60 to 165 W, or WINDOW_MS outside 500 to 10,000 ms, is used as it stands (R4, R341, R360; log 140). A period without model
energy gives k a free value (log 40). The history reaches as far back as any WINDOW_MS; the period that contains a commit of the cap is recorded at the new cap (R350). -/
def execControlPeriod (s : State) : Host.Outcome State Fault Refusal :=
  s.act (fun d =>
    let ctl := max (d.rd (Reg.PWR_CTL_MS.at [])) 1
    let win := max (d.rd (Reg.PWR_WINDOW_MS.at [])) ctl
    let cap := d.rd (Reg.PWR_CAP_W.at []) * 1000
    let meas := if d.power.polls = 0 then d.rd (Reg.PWR_P_MEAS_MW.at []) else openDiv d.power.sum d.power.polls
    let hist := recent 16383 ((ctl, if d.power.capNew then cap else meas) :: d.power.hist)
    let allow := openDiv (cap * win - energyOver (win - ctl) hist) ctl
    let frames := d.pipeCount - d.power.frames
    let ps := List.range d.phases.length
    let m (p : Nat) : Nat := d.coreShare p ctl
    let unattr := d.modelMw d.power.unattrFj ctl
    let model := energySum d.power.coreFj + energySum d.power.otherFj + d.power.unattrFj
    let fixed : Int := (meas : Int) - (((ps.map m).foldl (· + ·) 0 : Nat) : Int)
    let d := ps.foldl (fun d p =>
      let l := Tab.get 16 d.power.ran p
      let old := d.rd (Reg.PWR_PHASE_DEMAND_MW.at [p])
      let d := if 0 < m p && l != 0 then d.wr (Reg.PWR_PHASE_DEMAND_MW.at [p]) (openDiv (7 * old * l + 16 * m p) (8 * l)) else d
      if frames = 0 then d.wrFree (Reg.PWR_PHASE_EPF.at [p]) else d.wr (Reg.PWR_PHASE_EPF.at [p]) (openDiv (m p * ctl * 65536) (1000 * frames))) d
    let least := ps.foldl (fun n p => n + d.rd (Reg.PWR_PHASE_DEMAND_MW.at [p]) * d.minLimit p) 0
    let out : Bool := decide ((allow : Int) * 16 < fixed * 16 + (least : Nat))
    let order := ps.foldl (fun l p => d.rankInsert p l) []
    let limits := if out then ps.map (fun p => (p, d.minLimit p)) else d.grant (16 * ((allow : Int) - fixed)) order
    let d := limits.foldl (fun d e => d.wr (Reg.PWR_PHASE_LIMIT.at [e.1]) e.2) d
    let pwin := openDiv (energyOver win hist) win
    let d := ((d.wr (Reg.PWR_P_MEAS_MW.at []) meas).wr (Reg.PWR_P_WIN_MW.at []) pwin).wr (Reg.PWR_P_ALLOW_MW.at []) allow
    let d := (d.wr (Reg.PWR_P_FIXED_MW.at []) (ofSigned 32 fixed)).wr (Reg.PWR_P_UNATTR_MW.at []) unattr
    let d := d.set (Reg.PWR_UNREACHABLE.at []) out
    let d := if out then d.raiseWindow 0x0602 else d
    let d := if cap * 102 < pwin * 100 then d.raiseWindow 0x0601 else d
    let excess : Int := ((meas : Int) - d.rd (Reg.PWR_P_BASE_MW.at [])) * (ctl * 10 ^ 9 * 4096 : Nat)
    let k := if model = 0 then openDiv (15 * d.rd (Reg.PWR_K.at []) + d.freeVal 20) 16
      else openDiv (((15 * d.rd (Reg.PWR_K.at []) * model : Nat) : Int) + excess).toNat (16 * model)
    let d := if model = 0 then d.useFree else d
    let d := d.wr (Reg.PWR_K.at []) (min 8192 (max 2048 k))
    let d := if k < 2048 || 8192 < k then d.raiseWindow 0x0604 else d
    d.onPower (fun p => { p with
      hist := hist, sum := 0, polls := 0, capNew := false, frames := d.pipeCount, coreFj := [], otherFj := [], unattrFj := 0
      ran := limits.foldl (fun t e => Tab.put 16 t e.1 e.2) [] }))

/-- A commit of CAP_W or WINDOW_MS replaces the energy history, that of the period in progress too (R350); `c` holds the new values. -/
def Dev.capChanged (d c : Dev) : Dev :=
  let same (f : RegDef) : Bool := d.rd (f.at []) = c.rd (f.at [])
  if same Reg.PWR_CAP_W && same Reg.PWR_WINDOW_MS then c
  else c.onPower (fun p => { p with capNew := true, hist := p.hist.map (fun e => (e.1, c.rd (Reg.PWR_CAP_W.at []) * 1000)) })

/-- At an installation the demands start at DECL_MW × 10 and the phase fields are loaded (R343, R347); no phase has run at one limit throughout this period. -/
def Dev.loadPhases (d : Dev) (l : List PhaseRec) : Dev :=
  let d := { d with phases := l }.onPower (fun p => { p with due := true, ran := (List.range 16).map (fun i => (i, 0)) })
  (List.zip (List.range l.length) l).foldl (fun d e =>
    let d := ((d.wrB (Reg.PWR_PHASE_OP.at [e.1]) e.2.op).wrB (Reg.PWR_PHASE_MIN_LIMIT.at [e.1]) e.2.minLimit).wrB (Reg.PWR_PHASE_RANK.at [e.1]) e.2.rank
    d.wr (Reg.PWR_PHASE_DEMAND_MW.at [e.1]) (e.2.declMw * 10)) d

/-- CAP_LIMIT of a core (R349): the limit of its issuing task's phase and THM_LIMIT. -/
def Dev.capLimit (d : Dev) (c : Nat) : Nat :=
  let l := match d.running c with
    | none => 16
    | some t => match d.phaseOf c t with
      | some p => d.rd (Reg.PWR_PHASE_LIMIT.at [p])
      | none => 16
  min l (d.rd (Reg.THM_LIMIT.at []))

/-! ### Temperature (R356 to R358) -/

/-- THM_MAX in 1/4 °C. -/
def Dev.thmMax (d : Dev) : Int := toSigned 11 (d.rd (Reg.THM_MAX.at []))

/-- THM_SAMPLE (R356, R357, R361): each sensor is read; `none`, it does not respond. A reading out of range is the sensor's last reading, and is not valid. -/
def execThmSample (quarterC : List (Option Int)) (s : State) : Host.Outcome State Fault Refusal :=
  s.act (fun d =>
    let good (r : Option Int) : Option Int := match r with
      | some q => if -200 ≤ q ∧ q ≤ 560 then some q else none
      | none => none
    let r := (List.range 36).foldl (fun (acc : Option (Int × Nat) × Dev) k =>
      match good ((quarterC[k]?).getD none) with
      | some q =>
        let d := (acc.2.wr (Reg.THM_SENSOR_TEMP.at [k]) (ofSigned 11 q)).set (Reg.THM_SENSOR_VALID.at [k]) true
        let d := d.onPower (fun p => { p with badSensors := p.badSensors.filter (· != k) })
        (match acc.1 with
          | some b => if b.1 < q then some (q, k) else some b
          | none => some (q, k), d)
      | none =>
        let d := match (quarterC[k]?).getD none with
          | some q => acc.2.wr (Reg.THM_SENSOR_TEMP.at [k]) (ofSigned 11 q)
          | none => acc.2
        let d := d.set (Reg.THM_SENSOR_VALID.at [k]) false
        if d.power.badSensors.contains k then (acc.1, d)
        else (acc.1, (d.onPower (fun p => { p with badSensors := p.badSensors ++ [k] })).raise 0x0613 6 k)) (none, d)
    match r.1 with
    | none => r.2
    | some (q, k) =>
      let d := (r.2.wr (Reg.THM_MAX.at []) (ofSigned 11 q)).wr (Reg.THM_MAX_SENSOR.at []) k
      let d := if toSigned 11 (d.rd (Reg.THM_PEAK.at [])) < q then d.wr (Reg.THM_PEAK.at []) (ofSigned 11 q) else d
      let hot := decide (((4 * d.rd (Reg.THM_WARN_C.at []) : Nat) : Int) ≤ q)
      let told := d.power.warned
      let d := d.onPower (fun p => { p with warned := hot })
      if hot && !told then d.raise 0x0610 6 k [k] else d)

/-- THM_STEP (R357): each 10 ms THM_LIMIT steps down under throttle, or up after it. -/
def execThmStep (s : State) : Host.Outcome State Fault Refusal :=
  s.act (fun d =>
    let throttle := min 115 (d.rd (Reg.THM_THROTTLE_C.at []))
    let l := d.rd (Reg.THM_LIMIT.at [])
    if ((4 * throttle : Nat) : Int) ≤ d.thmMax then
      if 1 < l then
        let d := d.wr (Reg.THM_LIMIT.at []) (l - 1)
        if l = 16 then d.raise 0x0611 8 0 else d
      else d
    else if d.thmMax < 4 * ((throttle : Int) - d.rd (Reg.THM_HYST_C.at [])) then
      if l < 16 then
        let d := d.wr (Reg.THM_LIMIT.at []) (l + 1)
        if l = 15 then d.raise 0x0612 8 0 else d
      else d
    else d)

/-- PEAK_CLEAR (R361). -/
def execPeakClear (s : State) : Host.Outcome State Fault Refusal :=
  s.actHost (fun d => d.wr (Reg.THM_PEAK.at []) (d.rd (Reg.THM_MAX.at [])))

end Sys2Proof.Machine
end

