-- ==== Sys2Proof/Machine/Install.lean ====
section
/-! DEFINITION. The cut-over to a new plan, spare variants, degraded plans and the release of frozen units (R106, R131, R155, R157, R176, R223, R233, R234, R243, R368 to R378, R427, R483). -/

namespace Sys2Proof.Machine

/-! ### Writing registers by offset -/

/-- Keeper writes the RWS fields of a register: both copies take the value. -/
def Dev.writePair (d : Dev) (e : Nat × Nat) : Dev :=
  (fieldsAt e.1).foldl (fun d r => if r.1.acc = .rws then d.wrB (r.1.at r.2) (bits e.2 (r.1.lowBit r.2) r.1.width) else d) d

/-- The RWS fields of a register return to their reset values. -/
def Dev.resetOffset (d : Dev) (a : Nat) : Dev :=
  (fieldsAt a).foldl (fun d r => if r.1.acc = .rws then d.wrB (r.1.at r.2) (r.1.at r.2).reset else d) d

/-! ### Banks (R155, R157) -/

/-- At a frame boundary the banks of a core follow their gating bits: a gated bank waits to power down, or tries again; a bank no longer gated wakes. -/
def Dev.syncBank (d : Dev) (c b : Nat) : Dev :=
  let on := if b < 32 then d.bitAt (Reg.SP_BANK_ON_LO.at (cix c)) b else d.bitAt (Reg.SP_BANK_ON_HI.at (cix c)) (b - 32)
  let pg := if b < 32 then d.bitAt (Reg.SP_BANK_PG_LO.at (cix c)) b else d.bitAt (Reg.SP_BANK_PG_HI.at (cix c)) (b - 32)
  let w := Tab.get 0 (d.core c).pgWait b
  if pg then (if on && w != 1 then d.onCore c (fun k => { k with pgWait := Tab.put 0 k.pgWait b 1 }) else d)
  else
    let d := if w = 0 then d else d.onCore c (fun k => { k with pgWait := Tab.put 0 k.pgWait b 0 })
    if on || d.bankWaking c b then d else d.onCore c (fun k => { k with waking := k.waking ++ [b] })

/-- The banks of every core that is not OFF. -/
def Dev.syncBanks (d : Dev) : Dev := upTo 72 (fun c d => if d.mcState c = 0 then d else upTo 48 (fun b d => d.syncBank c b) d) d

/-- What was filling is filled: Keeper writes a core's scratchpad only after that (R157, R233). -/
def Dev.finishFills (d : Dev) (c : Nat) : Dev :=
  let d := (d.core c).waking.foldl (fun d b => (d.clearBank c b).setBankOn c b true) d
  d.onCore c (fun k => { k with waking := [] })

/-! ### Power states of cores (R483) -/

/-- The registers of a core's MC_ and SP_ blocks, the row map apart. -/
def coreRegister (c key : Nat) : Bool :=
  let a := key / 32
  inClusters a && blockCore a = some c && !(0x30000 ≤ a % 0x100000 && 0x100 ≤ a % 0x1000 && a % 0x1000 < 0x1C0)

/-- A core leaves OFF: every register and task at its reset value, every bank that is not gated waking. -/
def Dev.coreOn (d : Dev) (c : Nat) : Dev :=
  let d := { d with regs := d.regs.filter (fun e => !coreRegister c e.1), live := d.live.filter (fun e => !coreRegister c e.1),
                    shadow := d.shadow.filter (fun e => !coreRegister c e.1) }
  let d := d.onCore c (fun k =>
    { k with tasks := [], mac := 0, releases := [], drainQ := [], vecNext := none, arrQ := [], doneQ := [], freezeOwed := [], closeOwed := false, waking := List.range 48,
             pgWait := [], owed := [], zfills := [] })
  let d := (d.wr (Reg.SP_BANK_ON_LO.at (cix c)) 0).wr (Reg.SP_BANK_ON_HI.at (cix c)) 0
  d.wr (Reg.MC_STATE.at (cix c)) mcIdle

/-- The cores that a plan uses leave OFF, and IDLE cores that it does not use return to OFF. -/
def Dev.powerCores (d : Dev) (p : Plan) : Dev :=
  upTo 72 (fun c d =>
    if planUses p c then (if d.mcState c = mcOff then d.coreOn c else d)
    else if d.mcState c = mcIdle then d.wr (Reg.MC_STATE.at (cix c)) mcOff else d) d

/-! ### What the image holds for a unit -/

/-- Program store of core `c`. -/
def Dev.loadProgram (d : Dev) (p : Plan) (c : Nat) : Dev :=
  let l := p.programs.filter (fun e => e.1 = c)
  if l.isEmpty then d
  else d.onCore c (fun k => { k with
    prog := l.foldl (fun t e => Tab.put 0 t e.2.1 e.2.2) []
    ecc := k.ecc.filter (fun e => e.1 < 0x10000 || 0x20000 ≤ e.1) })

/-- A curve record for table `t` of core `c` (R230). -/
def Dev.loadCoreCurve (d : Dev) (c t : Nat) (r : CurveRec) : Dev :=
  let d := d.onCore c (fun k => { k with
    curve := Tab.putList 0 k.curve (t * 256) (r.entries.take 256)
    ecc := k.ecc.filter (fun e => !(0x20000 + t * 256 ≤ e.1 && e.1 < 0x20000 + (t + 1) * 256)) })
  let d := (d.wr (Reg.MC_CURVE_X0.at (cix c [t])) r.x0.toNat).wr (Reg.MC_CURVE_ISTEP.at (cix c [t])) r.istep.toNat
  (d.wr (Reg.MC_CURVE_LO_MODE.at (cix c [t])) r.loMode).wr (Reg.MC_CURVE_HI_MODE.at (cix c [t])) r.hiMode

/-- A curve record for table `t` of boundary engine `e`. -/
def Dev.loadBeCurve (d : Dev) (e t : Nat) (r : CurveRec) : Dev :=
  d.onBe e (fun b => { b with curves := Tab.put ⟨0, 0, 0, 0⟩ b.curves t ⟨r.x0, r.istep, r.loMode, r.hiMode⟩,
                              curve := Tab.putList 0 b.curve (t * 256) (r.entries.take 256) })

/-- Curve tables of core `c`, from the records that name core `src`. -/
def Dev.loadCurvesOf (d : Dev) (l : List CurveRec) (src c : Nat) : Dev :=
  (l.filter (fun r => r.target / 4 = src)).foldl (fun d r => d.loadCoreCurve c (r.target % 4) r) d

/-- Weights, curve tables and colour tables of boundary engine `e` (R131): plan and image hold the first and the last of them. -/
def Dev.loadBe (d : Dev) (l : List CurveRec) (e : Nat) : Dev :=
  (l.filter (fun r => r.target / 4 = 0x100 + e)).foldl (fun d r => d.loadBeCurve e (r.target % 4) r) (d.onBe e (fun b => { b with ded := false }))

/-- Resident weights of core `c` into its scratchpad. -/
def Dev.loadWeights (d : Dev) (p : Plan) (c : Nat) : Dev :=
  (p.weights.filter (fun e => e.1 = c)).foldl (fun d e => d.spWrite c e.2.1 e.2.2) (d.finishFills c)

/-! ### Step 3 of the cut-over (R233) -/

/-- Registers that hold slots, credits and half selectors (R150, R168). -/
def routeState (key : Nat) : Bool :=
  let a := key / 32
  let r := a % 0x100000
  inClusters a &&
  (if 0x30000 ≤ r then (0x200 ≤ r % 0x1000 && r % 0x1000 < 0x240) || (0x800 ≤ r % 0x1000 && r % 0x1000 < 0xA00)
   else 0x20000 ≤ r && 0x40 ≤ r % 0x800 && r % 0x800 < 0x100)

/-- Adds a route's count to a list; a multicast route counts with its members' smallest (R217). -/
def addCount (l : List (Nat × Nat)) (k v : Nat) : List (Nat × Nat) :=
  if l.any (fun e => e.1 = k) then l.map (fun e => if e.1 = k then (k, min e.2 v) else e) else l ++ [(k, v)]

/-- Every handle, route and watch port is reset (R150, R168). -/
def Dev.resetRoutes (d : Dev) : Dev :=
  let clear (e : Nat × Core) : Nat × Core :=
    (e.1, { e.2 with drainQ := [], vecNext := none, arrQ := [], doneQ := [], zfills := [], releases := e.2.releases.map (fun r => { r with behind := 0 }) })
  let d := { d with
    fabric := d.fabric.filter (fun m => match m.body with
      | .unused _ _ => true
      | _ => false)
    mcReturned := [], beCredits := []
    regs := d.regs.filter (fun e => !routeState e.1)
    cores := d.cores.map clear }
  let l := (List.range 72).foldl (fun acc c => (List.range 32).foldl (fun acc i =>
    let h := d.rd (Reg.SP_INRT_HANDLE.at (cix c [i]))
    if d.bit (Reg.SP_INRT_VALID.at (cix c [i])) && d.bit (Reg.HND_VALID.at (cix c [h])) && d.rd (Reg.HND_KIND.at (cix c [h])) = 0 then
      addCount acc (d.rd (Reg.SP_INRT_WRITER.at (cix c [i])) * 16 + d.rd (Reg.SP_INRT_ROUTE.at (cix c [i])))
        (d.fullCredit c h (d.rd (Reg.SP_INRT_ALLOC.at (cix c [i]))))
    else acc) acc) ([] : List (Nat × Nat))
  l.foldl (fun d e => d.setRouteCredit (e.1 / 16) (e.1 % 16) e.2) d

/-- Unused credits of a writer's route (R148). -/
def Dev.creditsOf (d : Dev) (writer route : Nat) : Nat :=
  if writer < 72 then d.rd (Reg.SP_OUTRT_CRED.at (cix writer [route]))
  else if writer < 0x100 || 0x180 ≤ writer then Tab.get 0 d.beCredits (beOf writer * 16 + route)
  else
    let u := writer - 0x100
    match (List.range 8).find? (fun p => d.bit (Reg.SU_RT_VALID.at (six u [p])) && d.rd (Reg.SU_RT_ROUTE.at (six u [p])) = route) with
    | some p => d.rd (Reg.SU_RT_CRED.at (six u [p]))
    | none => 0

/-- Credits on their way to a writer's route; they reach it before it reports (R101, R150). -/
def Dev.creditsFlying (d : Dev) (writer route : Nat) : Nat :=
  d.fabric.foldl (fun n m => match m.body with
    | .credit r k => if m.dst = masterNode writer && r = route then n + k else n
    | _ => n) 0

/-- The routes into core `c` that a commit removes, `was` being the device before it: the writer's master identifier, the banks of the handle that the route led into, and its
unused credits (R150, R155). -/
def Dev.removedRoutes (d was : Dev) (c : Nat) : List (Nat × List Nat × Nat) :=
  let entry (e : Dev) (i : Nat) : Option (Nat × Nat × Nat) :=
    let h := e.rd (Reg.SP_INRT_HANDLE.at (cix c [i]))
    if e.bit (Reg.SP_INRT_VALID.at (cix c [i])) && e.bit (Reg.HND_VALID.at (cix c [h])) && e.rd (Reg.HND_KIND.at (cix c [h])) = 0 then
      some (h, e.rd (Reg.SP_INRT_WRITER.at (cix c [i])), e.rd (Reg.SP_INRT_ROUTE.at (cix c [i])))
    else none
  let now := (List.range 32).filterMap (entry d)
  ((List.range 32).filterMap (entry was)).filterMap (fun e =>
    if now.contains e then none
    else
      let r := was.halfBytes c e.1 0
      some (e.2.1, banksOf r.1 (r.2 * (was.rd (Reg.HND_HALVES.at (cix c [e.1])) + 1)), was.creditsOf e.2.1 e.2.2 + was.creditsFlying e.2.1 e.2.2))

/-- Each removed route adds its credits to the outstanding-write counts of its banks, and its writer reports what it has not used (R150, R155). -/
def Dev.reportUnused (d was : Dev) : Dev :=
  upTo 72 (fun c d =>
    (d.removedRoutes was c).foldl (fun d e =>
      let d := d.onCore c (fun k => { k with owed := e.2.1.foldl (fun t b => Tab.modify 0 t b (· + e.2.2)) k.owed })
      d.send (masterNode e.1) (.core c) (.unused e.2.1 e.2.2)) d) d

/-- CL_ACTIVE, the cores that run stages, and CL_PLAN of every cluster (R225). -/
def Dev.clusterStatus (d : Dev) : Dev :=
  upTo 8 (fun n d =>
    let runs (c : Nat) : Bool := d.plan.stages.any (fun s => s.cores.contains c) || d.plan.pipes.any (fun r => r.members.any (fun m => m.master = c))
    let act := (List.range 9).foldl (fun m k => if runs (9 * n + k) then m + 2 ^ k else m) 0
    (d.wr (Reg.CL_ACTIVE.at [n]) act).wr (Reg.CL_PLAN.at [n]) d.planNo) d

/-- Pipelines with a frozen stream unit are parked (R375). -/
def Dev.parkFrozen (d : Dev) : Dev :=
  upTo 128 (fun u d => if d.suState u = suFrozen then d.setParked (d.rd (Reg.SU_PIPELINE.at (six u))) true else d) d

/-- The range and digest of the active image (R234). -/
def Dev.setActive (d : Dev) (addr len : Nat) (digest : Bytes) : Dev :=
  let d := ((d.wr (Reg.TOP_ACT_ADDR_LO.at []) addr).wr (Reg.TOP_ACT_ADDR_HI.at []) (addr / 2 ^ 32)).wr (Reg.TOP_ACT_LEN_LO.at []) len
  let d := d.wr (Reg.TOP_ACT_LEN_HI.at []) (len / 2 ^ 32)
  upTo 12 (fun i d => d.wr (Reg.TOP_IMG_DIGEST.at [i]) (leAt digest (4 * i) 4)) d

/-- The bucket of a stream unit whose SU_REG fields changed since `was` is full (R183). -/
def Dev.fillBuckets (d was : Dev) : Dev :=
  upTo 128 (fun u d =>
    if [Reg.SU_REG_EN, Reg.SU_RATE, Reg.SU_BURST].all (fun r => d.rd (r.at (six u)) = was.rd (r.at (six u))) then d
    else d.onSu u (fun s => { s with bucket := d.rd (Reg.SU_BURST.at (six u)) * 64000, bucketAt := d.time })) d

/-- Latches go over to the new plan, since the guard paths run without interruption (R233): a pipeline takes those of the pipeline that fed its layer from the same stream. Frames
that follow b1 are still to be begun. -/
def Dev.carriedPipes (d : Dev) (p : Plan) : Tab Pipe :=
  p.pipes.foldl (fun t r =>
    if r.analysis || r.members.isEmpty then t
    else match d.pipeOfLayer r.layer with
      | none => t
      | some o =>
        let q := d.pipe o.pipe
        if o.stream = r.stream && o.retime = r.retime then
          Tab.put {} t r.pipe { latches := q.latches, todo := q.latches.reverse, lastCount := q.lastCount }
        else t) []

/-- Pipelines of the plan in force that feed a layer whose latches the new plan does not take over, with what they have latched. -/
def Dev.keptGuards (d : Dev) (p : Plan) : List (PipeRec × Pipe) :=
  (d.plan.pipes.filter (fun o => !o.members.isEmpty && !o.analysis && !p.pipes.any (fun r =>
    !r.analysis && !r.members.isEmpty && r.layer = o.layer && r.stream = o.stream && r.retime = o.retime))).map (fun o => (o, d.pipe o.pipe))

/-- Step 3: Keeper writes programs, tables, registers and weights of the chosen plan, and resets handles, routes and watch ports. Fields that only the old plan set
return to their reset values (log 42). -/
def Dev.writePlan (d : Dev) (c : Install) : Dev :=
  let base := c.rep.plans.getD c.plan {}
  let p := variant base c.ks
  let was := d
  let old := d.plan.regset.filter (fun e => !p.regset.any (fun f => f.1 = e.1))
  let d := old.foldl (fun d e => d.resetOffset e.1) d
  let d := p.regset.foldl (fun d e => d.writePair e) d
  let d := d.fillBuckets was
  let cores := (List.range 72).filter (fun k => planUses p k && d.working k)
  let d := cores.foldl (fun d k => ((d.loadProgram p k).loadCurvesOf c.rep.curves k k).loadWeights p k) d
  let d := c.ks.foldl (fun d k => d.loadCurvesOf c.rep.curves k (movedCore c.ks k)) d
  let d := upTo 4 (fun e d => d.loadBe c.rep.curves e) d
  let d := (List.range 128).foldl (fun d u =>
    if (d.su u).prog.isEmpty && !p.suPrograms.any (fun e => e.1 = u) then d
    else d.onSu u (fun s => { s with prog := (p.suPrograms.filter (fun e => e.1 = u)).foldl (fun t e => Tab.put 0 t e.2.1 e.2.2) [] })) d
  let d := { d with
    plan := p, planNo := c.plan, image := c.rep, analysis := c.rep.analysis, rings := p.rings, ringSent := []
    tables := Tab.put {} d.tables 2 { formats := c.rep.colours, hcoefs := c.rep.hcoefs, vcoefs := c.rep.vcoefs, curves := c.rep.curves }
    pipes := d.carriedPipes p, guardKept := d.keptGuards p, launchQ := [], reinitMarked := [], reinitRunning := [], reinitQuiet := [], stopped := [], reinitFrame := [], parkedKeep := [], streamLatch := []
    slack := [], slackNow := [] }
  let d := d.resetRoutes.reportUnused was
  let d := upTo 72 (fun k d => d.stopDisabled k) d.enhWindows
  let d := ((d.wr (Reg.TOP_PARKED_LO.at []) 0).wr (Reg.TOP_PARKED_HI.at []) 0).parkFrozen
  let d := (d.loadPhases c.rep.phases).syncBanks
  let d := d.clusterStatus
  let d := upTo 8 (fun n d => d.wr (Reg.CL_SPARE_FOR.at [n]) 15) { d with spareAt := [] }
  c.ks.foldl (fun d k => { d with spareAt := Tab.insert d.spareAt (k / 9) d.pipeCount }.wr (Reg.CL_SPARE_FOR.at [k / 9]) (k % 9)) d

/-! ### The cut-over (R233, R377) -/

/-- Analysis runs in progress are abandoned (R19). -/
def Dev.abandonRuns (d : Dev) : Dev :=
  upTo 16 (fun s d =>
    let d := (d.stream s).runs.foldl (fun d r => d.endJob r.1 true) d
    if (d.stream s).runs.isEmpty then d else d.onStream s (fun q => { q with runs := [] })) d

/-- Step 1, at b0: the sequencer stops, launch queues are emptied, queued arms are dropped and every work counter returns to IDLE; a seam epoch
reset starts (R337). -/
def Dev.beginCutover (d : Dev) (c : Install) : Dev :=
  let d := { d with
    cut := { c with step := 1, b0 := d.time }
    inst := if c.kind = 4 then d.inst else {}
    seqRun := false, launchQ := [], reinitMarked := [], spareJobs := [], planSwitchWanted := false, lostBes := [], lostCores := [], spareFaults := [], wcs := []
    fabric := d.fabric.filter (fun m => match m.body with
      | .arm _ => false
      | _ => true) }
  let d := upTo 8 (fun n d => upTo 32 (fun w d => d.wr (Reg.CL_WC_STATE.at [n, w]) wcIdle) d) d
  let d := d.abandonRuns.startEpoch
  if c.kind = 4 then d else d.setImgState imgCutover

/-- CUTOVER_MEMBERS_IDLE (R233 step 2, R483): every member of the old plan is idle or frozen, or 500 µs have passed and the others are returned to IDLE; cores change
their power state and step 3 starts. -/
def execCutoverMembersIdle (s : State) : Host.Outcome State Fault Refusal :=
  s.act (fun d =>
    if d.cut.kind = 0 || d.cut.step != 1 then d
    else
      let d := d.planPipes.foldl (fun d p => d.haltPipe p) d
      let p := variant (d.cut.rep.plans.getD d.cut.plan d.plan) d.cut.ks
      { d with cut := { d.cut with step := 2 } }.powerCores p)

/-- CUTOVER_WRITE_DONE (R233 step 3, R234): once every write of the old plan has arrived. -/
def execCutoverWriteDone (s : State) : Host.Outcome State Fault Refusal :=
  s.act (fun d =>
    let writes := d.fabric.any (fun m => match m.body with
      | .write _ => true
      | _ => false)
    if d.cut.kind = 0 || d.cut.step != 2 || writes then d
    else
      let d := (d.writePlan d.cut).baseAgain
      let d := if d.cut.kind = 4 then d else d.wr (Reg.TOP_IMG_PLAN.at []) d.cut.plan
      { d with cut := { d.cut with step := 3 } }.wr (Reg.TOP_IMG_CUTOVER_US.at []) ((d.time - d.cut.b0) / 1000))

/-- STORE_IMG (R427): the image, as long as its header says, goes to the image slot where that holds it. -/
def Dev.storeImage (d : Dev) : Dev :=
  if !d.bit (Reg.SEC_STORE_IMG.at []) then d
  else
    let a := d.activeImage.1
    let n := d.readLe (a + 0x10) 8
    if n ≤ d.rd (Reg.SEC_FLASH_MIB.at []) * 2 ^ 20 - 0x016E0000 then
      { d with flash := { d.flash with image := some (d.bytes a n) } }.raise 0x090E 8 0
    else d.raise 0x090F 8 0

/-- What a device tells its twin of its image: digest, plan and twin protocol (R323, R430). -/
def Dev.imageMsg (d : Dev) : KeeperMsg :=
  .image ((List.range 12).flatMap (fun k => leBytes 4 (d.rd (Reg.TOP_IMG_DIGEST.at [k])))) d.planNo (d.rd (Reg.SEC_TWIN_PROTO.at []))

/-- Step 4, at b1: the image is the active one and the range of the one before it is released (R234); the sequencer starts for the frames that follow, the held PIPE commit is checked again, and the installation is reported. Keeper writes START
after the recorded image (R280). -/
def Dev.finishCutover (d : Dev) : Dev :=
  let c := d.cut
  let d := { d.setActive c.addr c.len c.digest with
    seqRun := true, adopt := [0, 1]
    pipes := d.pipes.map (fun (e : Nat × Pipe) => (e.1, { e.2 with todo := e.2.todo.filter (fun l =>
      match d.pipeRec e.1 with
      | some r => d.outFrame (d.pipeRaster r) < l.frame
      | none => true) })) }
  let d := { d with cut := {}, guardKept := [] }
  let d := if c.kind = 4 then d
    else
      let d := ((d.setImgState imgDone).set (Reg.TOP_IMG_DEGRADED.at []) c.degraded).raise 0x0905 8 0
      let d := if c.degraded then d.raise 0x0906 8 0 [c.plan] else d
      let d := if c.kind = 3 then upTo 2 (fun o d => d.onOut o (fun q => { q with startAsked := true })) d else d
      d.storeImage
  let d := d.tellTwin [d.imageMsg]
  d.recheckPipe.requestLastGood

/-- The OUTSEQ, FORMAT and output-curve contents that an output takes at its first boundary at or after b1. -/
def Dev.adoptTables (d : Dev) (o : Nat) : Dev :=
  if d.adopt.contains o then
    { d with adopt := d.adopt.filter (· != o),
             tables := Tab.put {} d.tables o ⟨d.image.colours, d.image.hcoefs, d.image.vcoefs, d.image.curves⟩ }
  else d

/-! ### Losses (R372 to R378) -/

/-- Core 8 of a cluster stands for a lost core: every pipeline that refers to that core is stopped (R372 step 1). -/
def Dev.engageSpare (d : Dev) (k : Nat) : Dev :=
  let ps := d.planPipes.filter (fun p => d.pipeTouches p k)
  let d := ps.foldl (fun d p => d.haltPipe p) d
  { d with stopped := d.stopped ++ ps.filter (fun p => !d.stopped.contains p), spareJobs := d.spareJobs ++ [(k / 9, k)] }

/-- No plan meets R224: in a cluster that has lost the one core of `spared` the free spare is engaged (R372), and every pipeline with a member on another lost unit is parked (R378). -/
def Dev.noPlan (d : Dev) (spared : List Nat) : Dev :=
  let d := spared.foldl (fun d k => d.engageSpare k) d
  let lost := (List.range 72).filter (fun c => !d.working c && !spared.contains c) ++ ((List.range 4).filter (fun e => !d.workingBe e)).map (0x180 + ·)
  let d := (d.pipesOn lost).foldl (fun d p => { d.setParked p true with parkedKeep := d.parkedKeep ++ [p] }) d
  d.raise 0x090D 8 0

/-- Keeper changes to a degraded plan (R377): the lowest-numbered one other than the plan in force that the working resources and its slack allow. `spared`: lost cores for which a spare
stands ready. -/
def Dev.switchPlan (d : Dev) (spared : List Nat) : Dev :=
  let d := { d with planSwitchWanted := false, lostBes := [] }
  let l := (List.zip (List.range d.image.plans.length) d.image.plans).filter (fun e => e.1 != 0 && e.1 != d.planNo && (d.lateIn e.2 d.pipeLimit d.nextClock).isEmpty && d.planFits e.2)
  match l with
  | [] => d.noPlan spared
  | (i, p) :: _ =>
    let a := d.activeImage
    let d := d.raise 0x090C 8 0 [d.planNo, i, p.qualityPm, p.linePm]
    d.beginCutover { kind := 4, rep := d.image, plan := i, ks := d.lostIn p, addr := a.1, len := a.2,
                     digest := (List.range 12).flatMap (fun k => leBytes 4 (d.rd (Reg.TOP_IMG_DIGEST.at [k]))) }

/-- Engines released since the last PIPE boundary return to their sets (R371). -/
def Dev.returnBes (d : Dev) : Dev := { d with bes := d.bes.map (fun (e : Nat × Be) => (e.1, { e.2 with resting := false })) }

/-- At a PIPE boundary Keeper resolves the cores lost since the last one, the stops of boundary engines and a second credit stall (R131, R181, R372 to R378). -/
def Dev.resolveLosses (d : Dev) : Dev :=
  if d.cut.kind != 0 then d
  else
    let lost := (d.lostCores.filter (fun c => planUses d.plan c)).eraseDups
    let faults := lost.filter d.spareFaults.contains
    let d := { d with lostCores := [], spareFaults := [] }
    let d := faults.foldl (fun d c =>
      ((d.pipesOn [c]).foldl (fun d p => { d.setParked p true with parkedKeep := d.parkedKeep ++ [p] }) d).raise 0x0173 0 c) d
    let rest := lost.filter (fun c => !faults.contains c)
    let free (n : Nat) : Bool := d.working (9 * n + 8) && d.rd (Reg.CL_SPARE_FOR.at [n]) = 15 && !d.spareJobs.any (fun j => j.1 = n)
    let one (c : Nat) : Bool := c % 9 != 8 && free (c / 9) && rest.all (fun k => k = c || k / 9 != c / 9)
    let engines := !d.lostBes.isEmpty && !d.enginesCover
    if !rest.all one || engines || d.planSwitchWanted then d.switchPlan (rest.filter one)
    else rest.foldl (fun d k => d.engageSpare k) { d with lostBes := [] }

/-- SPARE_ENGAGED (R372 steps 2 to 4, R483): core 8 leaves OFF, and Keeper has written core 8 for the lost core; the stopped pipelines may resume. -/
def execSpareEngaged (n : Fin 8) (s : State) : Host.Outcome State Fault Refusal :=
  s.act (fun d =>
    match d.spareJobs.find? (fun j => j.1 = n.val) with
    | none => d
    | some (_, k) =>
      let ps := d.stopped.filter (fun p => d.pipeTouches p k)
      if ps.any d.pipeWrites then d
      else
        let c := 9 * n.val + 8
        let d := if d.mcState c = mcOff then d.coreOn c else d
        let v := variant d.plan [k]
        let d := (v.regset.filter (fun e => !d.plan.regset.contains e)).foldl (fun d e => d.writePair e) d
        let d := (upTo 72 (fun (k : Nat) (d : Dev) => d.stopDisabled k) { d with plan := v }).enhWindows
        let d := ((d.loadProgram v c).loadCurvesOf d.image.curves k c).loadWeights v c
        let d := upTo 48 (fun b d => d.syncBank c b) d
        let d := ps.foldl (fun d p => (d.resetPipe p).onPipe p (fun q => { q with q := 0 })) d
        let jobs := d.spareJobs.filter (fun j => j.1 != n.val)
        let d := { d with spareJobs := jobs, stopped := d.stopped.filter (fun p => jobs.any (fun j => d.pipeTouches p j.2)),
                          spareAt := Tab.insert d.spareAt n d.pipeCount }
        (d.wr (Reg.CL_SPARE_FOR.at [n.val]) (k % 9)).clusterStatus.raise 0x0171 4 n [n.val, k % 9])

/-! ### Release of a frozen unit (R371) -/

/-- A unit as TOP_UNFREEZE names it (0 core, 1 stream unit, 2 boundary engine, 3 BAR2): its SOURCE, whether it is frozen and whether it is retired. -/
def Dev.namedUnit (d : Dev) (kind i : Nat) : (Nat × Nat) × Bool × Bool :=
  match kind with
  | 0 => ((0, i), decide (i < 72) && d.mcState i = mcFrozen, decide (i < 72) && d.mcState i = mcRetired)
  | 1 => ((0, 0x100 + i), d.suState i = suFrozen, false)
  | 2 => ((0, 0x180 + i), decide (i < 4) && (d.be i).stopped, decide (i < 4) && (d.be i).retired)
  | _ => ((7, 2), d.bit (Reg.TOP_FROZEN_BAR2.at []), false)

/-- The host's consumer index has passed a record at ring index `i` (R371, R393). -/
def Dev.consumed (d : Dev) (i : Nat) : Bool :=
  let h := (d.rd (Reg.EVT_HIDX.at []) + 2 ^ 32 - i) % 2 ^ 32
  0 < h && h ≤ (d.rd (Reg.EVT_DIDX.at []) + 2 ^ 32 - i) % 2 ^ 32

/-- What a write to TOP_UNFREEZE answers in RESULT. -/
def Dev.unfreezeResult (d : Dev) (kind i : Nat) : Nat :=
  let u := d.namedUnit kind i
  if u.2.2 then 4
  else if !u.2.1 then 1
  else match d.events.froze.find? (fun e => e.1.seq = d.rd (Reg.TOP_UNFREEZE_SEQ.at [])) with
    | none => 2
    | some (r, place) =>
      if (r.kind, r.index) != u.1 then 2
      else match place with
        | some p => if d.consumed p then 0 else 3
        | none => 3

/-- A core returns to IDLE with every task IDLE and no pending launch; its registers, the loops among them, stay (R106). -/
def Dev.releaseCore (d : Dev) (c : Nat) : Dev :=
  let d := upTo 8 (fun t d => (d.onTask c t (fun k => { k with pending := none, wait := .none, stalled := false, yielded := false })).setTstate c t tIdle) d
  d.wr (Reg.MC_STATE.at (cix c)) mcIdle

/-- UNFREEZE (R371, R106, R131, R176, R375): releases the unit or gives the reason. A released stream unit's pipeline is re-initialised, and no longer parked, from
the next PIPE boundary. -/
def execUnfreeze (u : UnitId) (s : State) : Host.Outcome State Fault Refusal :=
  s.act (fun d =>
    let i := u.index.val
    if 3 < u.kind.val then d
    else
      let res := d.unfreezeResult u.kind i
      let d := d.wr (Reg.TOP_UNFREEZE_RESULT.at []) res
      if res != 0 then d
      else
        let src := (d.namedUnit u.kind i).1
        let d := match u.kind.val with
          | 0 => d.releaseCore i
          | 1 => (d.idleSu i).setSuState i suIdle |>.markReinit (d.rd (Reg.SU_PIPELINE.at (six i)))
          | 2 => (d.loadBe d.image.curves i).onBe i (fun b => { b with stopped := false, resting := true })
          | _ => d.set (Reg.TOP_FROZEN_BAR2.at []) false
        d.raise 0x0174 src.1 src.2)

/-- Pipelines marked for re-initialisation, at a PIPE boundary (R181, R375): one that no frozen stream unit parks runs again, and
another keeps its mark. -/
def Dev.startReinits (d : Dev) : Dev :=
  let l := d.reinitMarked
  let held (p : Nat) : Bool := d.parked p && ((d.pipeUnits p).any (fun u => d.suState u = suFrozen) || d.parkedKeep.contains p)
  let go := l.filter (fun p => !held p)
  let d := if go.any d.seamPipes.contains then d.startEpoch else d
  go.foldl (fun d p => (d.setParked p false).beginReinit p) { d with reinitMarked := l.filter held }

end Sys2Proof.Machine
end

