-- ==== Sys2Proof/Machine/Twin.lean ====
section
/-! DEFINITION. The Beacon link and the twin: heartbeats, presence, roles, tokens, seam slots and epochs, slack, Keeper messages (R311 to R323, R327 to R338). -/

namespace Sys2Proof.Machine

/-! ### What an owner sends (R241, R319, R323) -/

/-- Every index list of a family. -/
def dimIndices : List Dim → List (List Nat)
  | [] => [[]]
  | m :: ms => (List.range m.count).flatMap (fun i => (dimIndices ms).map (fun l => i :: l))

/-- Pairs of BAR0 offset and value of the fields of some families, in ascending offset. -/
def Dev.regPairs (d : Dev) (rs : List RegDef) : List (Nat × Nat) :=
  rs.foldl (fun t r => (dimIndices r.dims).foldl (fun t i =>
    Tab.insert t (r.addr i) (Tab.get 0 t (r.addr i) + d.rd (r.at i) * 2 ^ r.lowBit i)) t) []

/-- The host-writable families of RWS fields (R242): the image writes those of the clusters. -/
def hostRws : List RegDef := regMap.filter (fun r => r.acc = .rws && !inClusters r.base)

/-- Pairs of offset and live value of the host-writable RWS registers. -/
def Dev.hostPairs (d : Dev) : List (Nat × Nat) := d.regPairs hostRws

/-- Host-writable shadows of the domains `ms` take the values of a list of pairs, and their reset values where it lists none. -/
def Dev.loadPairs (d : Dev) (ms : List Nat) (pairs : List (Nat × Nat)) : Dev :=
  let d := { d with shadow := d.shadow.filter (fun e => inClusters (e.1 / 32) || !ms.contains (domainOf e.1)) }
  pairs.foldl (fun d e =>
    (fieldsAt e.1).foldl (fun d r =>
      let f := r.1.at r.2
      if r.1.acc = .rws && !inClusters e.1 && ms.contains (domainOf f.key) then d.wrS f (bits e.2 (r.1.lowBit r.2) r.1.width) else d) d) d

/-- The link that an output has trained (R319). -/
def Dev.linkMsg (d : Dev) (o : Fin 2) : KeeperMsg :=
  .link o (d.rd (Reg.OUT_LINK_RATE.at [o.val])) (d.rd (Reg.OUT_LINK_LANES.at [o.val])) (d.bit (Reg.OUT_FEC_ACTIVE.at [o.val])) (d.out o).dsc (d.out o).scrambled

/-- What an owner tells a twin in SYNC, or after a commit (R319, R323): its values, its image, and the links it has trained. -/
def Dev.tellOwner (d : Dev) : Dev :=
  d.tellTwin ([.committed d.hostPairs, d.imageMsg] ++ (([0, 1] : List (Fin 2)).filter (fun o => d.bit (Reg.OUT_LINK_UP.at [o.val]))).map d.linkMsg)

/-- The fields of a device that its twin's values leave alone. -/
def ownFields : List Fld := [Reg.BCN_PAIR_EN.at [], Reg.BCN_SIDE.at []]

/-- The owner's values are adopted, and the live registers hold them (R323). -/
def Dev.hasOwnerVals (d : Dev) : Bool :=
  match d.beacon.ownerVals with
  | none => false
  | some pairs => pairs.all (fun e => (fieldsAt e.1).all (fun r =>
    let f := r.1.at r.2
    r.1.acc != .rws || inClusters e.1 || ownFields.contains f || d.rd f = bits e.2 (r.1.lowBit r.2) r.1.width))

/-! ### Heartbeats (R314, R322, R338) -/

/-- The lesser slack of two, with the position it comes from. -/
def lesser (a b : Int × Nat) : Int × Nat := if b.1 < a.1 then b else a

def Dev.ownSlack (d : Dev) : Int × Nat := (toSigned 32 (d.rd (Reg.BCN_OWN_MIN_SLACK.at [])), d.wallId)

/-- What a port's partner reported. -/
def Dev.slackFrom (d : Dev) (p : Nat) : Option (Int × Nat) :=
  if d.partner p then (d.heard p).map (fun h => (h.minSlack, h.minPos)) else none

/-- The slack figures a port sends: on E the least of its own and port W's, on W of its own and port E's, on T its own. -/
def Dev.slackOut (d : Dev) (p : Nat) : Int × Nat :=
  match (if p = 1 then d.slackFrom 2 else if p = 2 then d.slackFrom 1 else none) with
  | some x => lesser d.ownSlack x
  | none => d.ownSlack

/-- WALL_MIN_SLACK and WALL_MIN_POS. -/
def Dev.wallSlack (d : Dev) : Dev :=
  let x := [d.slackFrom 1, d.slackFrom 2].foldl (fun a o => match o with
    | some b => lesser a b
    | none => a) d.ownSlack
  (d.wr (Reg.BCN_WALL_MIN_SLACK.at []) (ofSigned 32 x.1)).wr (Reg.BCN_WALL_MIN_POS.at []) x.2

def Dev.heartbeat (d : Dev) (p : Nat) : Heartbeat :=
  let s := d.slackOut p
  { sideB := d.bit (Reg.BCN_SIDE.at []), pos := d.rd (Reg.BCN_POS.at []), serial := d.serial, role := d.role, ready := d.bit (Reg.BCN_READY.at []),
    frame := d.outFrame 0, epoch := d.rd (Reg.BCN_EPOCH.at []), handover := d.beacon.marking,
    claim := d.beacon.claim.isSome || d.role = roleOwner, minSlack := s.1, minPos := s.2, ePresent := d.bit (presentFld 1), wPresent := d.bit (presentFld 2) }

/-- FAULT_N is asserted (R382): any enabled condition of TOP_FAULTN_STATE holds. -/
def Dev.faultN (d : Dev) : Bool :=
  let frozen := (List.range 72).any (fun c => d.mcState c = mcFrozen) || (List.range 128).any (fun u => d.suState u = suFrozen) ||
    (List.range 4).any (fun e => (d.be e).stopped && !(d.be e).retired) || d.bit (Reg.TOP_FROZEN_BAR2.at [])
  let parked := d.rd (Reg.TOP_PARKED_LO.at []) != 0 || d.rd (Reg.TOP_PARKED_HI.at []) != 0
  let spare := (List.range 8).any (fun n => d.rd (Reg.CL_SPARE_FOR.at [n]) != 15)
  let conds := [frozen, parked, d.planNo != 0, d.bit (Reg.TOP_MEM_UE.at []), spare, !d.retired.isEmpty]
  (List.zip (List.range 6) conds).any (fun e => e.2 && d.bitAt (Reg.TOP_FAULTN_MASK.at []) e.1)

/-- The device's plan number is above its twin's, of which its messages tell (R322, R340; log 155). -/
def Dev.planAbove (d : Dev) : Bool := (d.beacon.ownerImage.map (fun x => decide (x.2.1 < d.planNo))).getD false

/-- HEARTBEAT_SEND (R314, R315, R415, R421): each port that is up, on a healthy device that is RUNNING. An owner looks at its plan and at FAULT_N for its handover (R322). -/
def execHeartbeatSend (s : State) : Host.Outcome State Fault Refusal :=
  s.act (fun d =>
    if d.beacon.sick || !d.hostOpen then d
    else
      let d := if d.planAbove then d.handoverCause 1 else d
      let d := if d.faultN then d.handoverCause 3 else d
      d.upPorts.foldl (fun d p => d.bcnSend (.heartbeat p (d.heartbeat p))) d)

/-- The partner of port `p` becomes present. -/
def Dev.partnerBack (d : Dev) (p : Nat) : Dev :=
  let d := d.onBeacon (fun b => { b with present := b.present ++ [p] })
  let d := d.announce p
  if p = 0 then d else d.neighbour p

/-- Roles after a heartbeat of the twin (R316, R317, R320, R322). -/
def Dev.twinBeat (d : Dev) (h : Heartbeat) (was : Nat) : Dev :=
  if !d.bit (Reg.BCN_PAIR_EN.at []) || !d.partner 0 || d.beacon.sick then d
  else if d.sideConflict then
    let d := if d.beacon.sideTold then d else (d.onBeacon (fun b => { b with sideTold := true })).raise 0x0516 8 0
    if d.role = roleSync || d.role = roleStandby then d.enterWait else d
  else
    let d := d.onBeacon (fun b => { b with sideTold := false })
    let d := if d.role = roleWait then d.enterSync else d
    if d.role = roleSync then
      if h.role != roleOwner && !d.bit (Reg.BCN_SIDE.at []) then d.becomeOwner false else d
    else if d.role = roleStandby then (if h.handover then d.claimNow else d)
    else if d.role = roleOwner then
      let d := if (h.role = roleSync || h.role = roleStandby) && was != roleSync && was != roleStandby then d.tellOwner else d
      if d.beacon.marking && h.claim then d.onBeacon (fun b => { b with handOff := true }) else d
    else d

/-- HEARTBEAT_ARRIVAL (R314, R316, R317, R320, R322, R336, R338). -/
def execHeartbeatArrival (p : Fin 3) (h : Heartbeat) (s : State) : Host.Outcome State Fault Refusal :=
  s.act (fun d => d.onPort p (fun d =>
    let was := if d.partner p then ((d.heard p).map Heartbeat.role).getD 0 else 0
    let d := d.onBeacon (fun b => { b with heard := Tab.insert b.heard p (some h) })
    let d := (d.set (Reg.BCNP_PARTNER.at [p.val]) true).wr (Reg.BCNP_PARTNER_ID.at [p.val]) (2 * h.pos + (if h.sideB then 1 else 0))
    let d :=
      if d.partner p then d
      else
        let n := Tab.get 0 d.beacon.beats p + 1
        let d := d.onBeacon (fun b => { b with beats := Tab.put 0 b.beats p n })
        if 16 ≤ n then d.partnerBack p else d
    if p = 0 then
      let d := (d.wr (Reg.BCN_TWIN_ROLE.at []) h.role).twinBeat h was
      (d.neighbour 1).neighbour 2
    else d.wallSlack))

/-- PARTNER_LOST (R314, R316, R320, R325, R336): 12 µs without a heartbeat. -/
def execPartnerLost (p : Fin 3) (s : State) : Host.Outcome State Fault Refusal :=
  s.act (fun d =>
    if !d.bit (Reg.BCNP_PARTNER.at [p.val]) then d
    else
      let there := d.partner p
      let d := (d.set (Reg.BCNP_PARTNER.at [p.val]) false).inc (Reg.BCNP_BEATS_MISSED.at [p.val]) 3
      let d := d.onBeacon (fun b => { b with beats := Tab.put 0 b.beats p 0, present := b.present.filter (· != p.val) })
      if !there then d
      else if p = 0 then
        let d := (d.raise 0x0510 3 0).onBeacon (fun b => { b with marking := false, handOff := false })
        let d := upTo 16 (fun s d =>
          if d.bit (Reg.BCN_MIR_RX.at [s]) && d.bit (Reg.BCN_FALLBACK.at [s]) then d.onStream s (fun q => { q with fallback := true }) else d) d
        let d :=
          if d.role = roleSync then d.becomeOwner false
          else if d.role = roleStandby then (if d.bit (Reg.BCN_READY.at []) then d.claimNow else d.becomeOwner true)
          else d
        (d.neighbour 1).neighbour 2
      else (d.neighbour p).wallSlack)

/-! ### Roles (R316 to R320, R323) -/

/-- TWIN_TAKEOVER (R320): a claiming standby becomes OWNER. -/
def execTwinTakeover (s : State) : Host.Outcome State Fault Refusal :=
  s.act (fun d => if d.role = roleStandby && d.beacon.claim.isSome && !d.beacon.sick then (d.becomeOwner false).raise 0x0511 8 0 else d)

/-- TWIN_SPLIT (R320): SHOWN has stayed 0 for 1 ms after a claim. -/
def execTwinSplit (s : State) : Host.Outcome State Fault Refusal :=
  s.act (fun d =>
    if d.beacon.claim.isSome && !d.beacon.sick && !d.shown && !d.bit (Reg.BCN_SPLIT.at []) then (d.set (Reg.BCN_SPLIT.at []) true).raise 0x0513 8 0 else d)

/-- The active image's digest, plan and firmware's twin protocol equal the owner's (R323, R430). -/
def Dev.sameImage (d : Dev) : Bool :=
  match d.beacon.ownerImage with
  | some (dig, plan, proto) => d.imageMsg = .image dig plan proto
  | none => false

/-- A slot on trial becomes ACTIVE (R429); a package staged meanwhile stays on trial in the other slot. -/
def Dev.confirmSlot (d : Dev) : Dev :=
  if !d.bit (Reg.SEC_TRYING.at []) then d
  else { d with flash := d.flash.putBoot (d.rd (Reg.SEC_SLOT.at [])) d.boot.staged.isSome 0 }.set (Reg.SEC_TRYING.at []) false

/-- TWIN_READY (R316, R323, R429): a device that meets every condition becomes STANDBY with READY set, and tells the owner its plan (log 155). In split mode OUT0's raster is that of both outputs (R258). -/
def execTwinReady (s : State) : Host.Outcome State Fault Refusal :=
  s.act (fun d =>
    let locked := (List.range 2).all (fun o => (d.split && o = 1) || d.rd (Reg.OUT_GL_STATE.at [o]) = 4)
    let epoch := ((d.heard 0).map Heartbeat.epoch) = some (d.rd (Reg.BCN_EPOCH.at []))
    if (d.role = roleSync || (d.role = roleStandby && !d.bit (Reg.BCN_READY.at []))) && d.partner 0 && d.rd (Reg.BCN_TWIN_ROLE.at []) = roleOwner &&
        d.sameImage && d.beacon.valsApplied && locked && epoch && !d.beacon.sick then
      (((d.standBy true).raise 0x0514 8 0).tellTwin [d.imageMsg]).confirmSlot
    else d)

/-- START_WAIT_EXPIRY (R316, R317): START_WAIT_MS have elapsed in WAIT. -/
def execStartWaitExpiry (s : State) : Host.Outcome State Fault Refusal :=
  s.act (fun d =>
    if d.role != roleWait then d
    else if d.sideConflict then
      (if d.serial < ((d.heard 0).map Heartbeat.serial).getD 0 then d.becomeOwner true else d)
    else if d.partner 0 then d
    else d.becomeOwner true)

/-- TWIN_SEL_CHANGE (R318): the level of each TWIN_SEL ball, 1 for B. Once the device is shown, its claim is over. -/
def execTwinSelChange (sel0 sel1 : Bool) (s : State) : Host.Outcome State Fault Refusal :=
  s.act (fun d =>
    let d := { d with selB := (if sel0 then [0] else []) ++ (if sel1 then [1] else []) }
    if d.shown then
      (d.set (Reg.BCN_SPLIT.at []) false).onBeacon (fun b => { b with claim := if d.role = roleOwner then none else b.claim })
    else d)

/-- HANDOVER (R322). -/
def execHandover (s : State) : Host.Outcome State Fault Refusal := s.actHost Dev.markHandover

/-! ### Ports (R311, R330) -/

/-- BCN_DOWN (R311): a port loses lane lock. -/
def execBcnDown (p : Fin 3) (s : State) : Host.Outcome State Fault Refusal :=
  s.act (fun d =>
    if d.bit (Reg.BCNP_UP.at [p.val]) then
      ((d.set (Reg.BCNP_UP.at [p.val]) false).wr (Reg.BCNP_LANES_OK.at [p.val]) 0).raise 0x0502 3 p
    else d)

/-- BCN_RETRAIN (R311): a port that is down tries to train. The attempt changes nothing the manual names; its success is BCN_UP. -/
def execBcnRetrain (_p : Fin 3) (s : State) : Host.Outcome State Fault Refusal := s.act (fun d => d)

/-- BCN_UP (R311, R330, R339): a port trains and measures its hop delay. -/
def execBcnUp (p : Fin 3) (lanes : BitVec 4) (hopPs : Nat) (s : State) : Host.Outcome State Fault Refusal :=
  s.act (fun d =>
    let d := (d.set (Reg.BCNP_UP.at [p.val]) true).wr (Reg.BCNP_LANES_OK.at [p.val]) lanes.toNat
    (d.wr (Reg.BCNP_HOP_DELAY_PS.at [p.val]) hopPs).raise 0x0501 3 p)

/-- HOP_DELAY_MEASURE (R330). -/
def execHopDelayMeasure (p : Fin 3) (hopPs : Nat) (s : State) : Host.Outcome State Fault Refusal :=
  s.act (fun d => if d.bit (Reg.BCNP_UP.at [p.val]) then d.wr (Reg.BCNP_HOP_DELAY_PS.at [p.val]) hopPs else d)

/-! ### Frame tokens (R327 to R331) -/

/-- The device sends tokens: its pair has TOK_MASTER and it is SOLO, or OWNER since a boundary (R327, R328). -/
def Dev.sendsTokens (d : Dev) : Bool :=
  d.bit (Reg.BCN_TOK_MASTER.at []) && (d.role = roleSolo || (d.role = roleOwner && d.beacon.tokenOn)) && !d.beacon.sick

/-- TOKEN_SEND (R327, R328): TOK_LEAD_US before a boundary of the raster that paces PIPE. -/
def execTokenSend (s : State) : Host.Outcome State Fault Refusal :=
  s.act (fun d =>
    match d.pipePacer with
    | none => d
    | some o =>
      if !d.sendsTokens || !d.outRuns o then d
      else
        let lead := 1000 * d.rd (Reg.BCN_TOK_LEAD_US.at [])
        let t : FrameToken := ⟨(d.outFrame o + 1) % 2 ^ 32, (d.time + lead) % 2 ^ 64, lead, 0⟩
        d.upPorts.foldl (fun d p => d.bcnSend (.token p t)) d)

/-- The Beacon port whose tokens an output takes its edges from: port T on a device that is not the sender of a pair (R319, R328), else REF_SRC. -/
def Dev.tokenPort (d : Dev) (o : Nat) : Option Nat :=
  if d.follows then some 0
  else if d.rd (Reg.OUT_MODE.at [o]) = 2 then
    (match refPort (d.rd (Reg.OUT_REF_SRC.at [o])) with
     | some 0 => if d.sendsTokens then none else some 0
     | x => x)
  else none

/-- The time base follows the master's (R331): it steps once for a difference above 100 µs, and makes up any other by a change of rate (`Dev.tick`), one that still stands above 100 µs at
the edges after a step among them. -/
def Dev.followTime (d : Dev) (master edge : Nat) : Dev :=
  let diff : Int := (master : Int) - edge
  let d := d.wr (Reg.BCN_TB_OFFSET.at []) (ofSigned 32 diff)
  let far := decide (100000 < diff.natAbs)
  if far && !d.beacon.stepped then
    ({ d with time := ((d.time : Int) + diff).toNat % 2 ^ 64 }.onBeacon (fun b => { b with stepped := true, drift := 0 })).raise 0x0521 8 0
  else d.onBeacon (fun b => { b with stepped := far, drift := diff })

/-- The token of TOK_ALT for a frame has given an edge time that has passed (R329). -/
def Dev.tokenLate (d : Dev) (p frame : Nat) : Bool :=
  d.beacon.edges.any (fun e => decide (refPort (d.rd (Reg.BCN_TOK_ALT.at [])) = some e.1) && e.1 != p && e.2.1 = frame && e.2.2.1 ≤ d.time)

/-- TOKEN_ARRIVAL (R327, R329, R331): the token gives an edge at arrival + LEAD − d and goes on to the other ports that are up, with LEAD less d and the
residence time, which is measured (a free value). -/
def execTokenArrival (p : Fin 3) (tok : FrameToken) (s : State) : Host.Outcome State Fault Refusal :=
  s.act (fun d => d.onPort p (fun d =>
    let hop := d.rd (Reg.BCNP_HOP_DELAY_PS.at [p.val]) / 1000
    let edge := d.time + tok.leadNs - hop
    let d := d.inc (Reg.BCNP_TOK_RX.at [p.val])
    let d := d.onBeacon (fun b =>
      let last := Tab.get (0, 0) b.tokRun p
      { b with
        edges := (b.edges ++ [(p.val, tok.frame, edge, tok.masterTime)]).drop (b.edges.length + 1 - 16)
        tokRun := Tab.put (0, 0) b.tokRun p (tok.frame, if d.tokenLate p tok.frame then 0 else if tok.frame = (last.1 + 1) % 2 ^ 32 then last.2 + 1 else 1) })
    let d := upTo 2 (fun o d =>
      if d.tokenPort o = some p.val && 16 ≤ (Tab.get (0, 0) d.beacon.tokRun p).2 then
        d.onBeacon (fun b => { b with useAlt := b.useAlt.filter (· != o), altRun := Tab.put 0 b.altRun o 0 })
      else d) d
    let d :=
      if d.sendsTokens then d
      else
        let gone := hop + d.freeVal 8
        let d := d.useFree
        let others := d.upPorts.filter (· != p.val)
        if others.isEmpty then d
        else if tok.leadNs < gone + 1000 || 64 < tok.hops + 1 then d.inc (Reg.BCNP_TOK_LATE.at [p.val])
        else others.foldl (fun d q => d.bcnSend (.token q { tok with leadNs := tok.leadNs - gone, hops := tok.hops + 1 })) d
    d))

/-! ### Seam slots (R332 to R336) -/

/-- Adds a slot, or a part of one, to a binding's stage. -/
def addPart (l : List SeamSlot) (x : SeamSlot) : List SeamSlot :=
  if l.any (fun s => s.k = x.k) then l.map (fun s => if s.k = x.k then { s with txns := s.txns ++ x.txns } else s) else l ++ [x]

/-- A slot is dropped as stale and its credit returned. -/
def Dev.staleSlot (d : Dev) (p q : Nat) (viaT : Bool) : Dev :=
  ((d.inc (Reg.BCNQ_STALE.at [p, q])).raiseSecond 0x0535 3 p 0).returnSlot p q viaT

/-- A slot for binding `q` of port `p` arrives, directly or by the twin's relay (R334, R336). -/
def Dev.stageSlot (d : Dev) (p q : Nat) (slot : SeamSlot) (viaT : Bool) : Dev :=
  if !d.bit (Reg.BCNQ_RX_EN.at [p, q]) then d
  else if slot.epoch != d.rd (Reg.BCN_EPOCH.at []) || slot.k < d.rd (Reg.BCNQ_NEXT_K.at [p, q]) then d.staleSlot p q viaT
  else
    let n := d.rd (Reg.BCNQ_RX_SLOT_TXN.at [p, q])
    let had := ((d.rx p q).slots.find? (fun s => s.k = slot.k)).any (fun s => n ≤ s.txns.length)
    if had then d.staleSlot p q viaT
    else
      let d := d.onRx p q (fun r => { r with slots := addPart r.slots slot, viaT := if viaT && !r.viaT.contains slot.k then r.viaT ++ [slot.k] else r.viaT })
      match (d.rx p q).slots.find? (fun s => s.k = slot.k && n ≤ s.txns.length) with
      | none => d
      | some full =>
        let late := decide (0 < toSigned 32 (trunc 32 d.time + 2 ^ 32 - slot.deadline))
        let d := if late then (d.inc (Reg.BCNP_NBR_LATE.at [p])).raiseSecond 0x0530 3 p p else d
        let t := relayQueue p q
        let d := if p != 0 && d.bit (Reg.BCNQ_RELAY.at [p, q]) then d.pumpRelays t ((d.tx 0 t).relays ++ [full]) else d
        d.seamDrain p q

/-- SEAM_SLOT_ARRIVAL (R333, R334, R336): a slot on port T queue q is the twin's relay of port E (q below 8) or of port W. A binding that has its neighbour takes no relayed slot, and returns
its credit (log 181). -/
def execSeamSlotArrival (p : Fin 3) (q : Fin 16) (slot : SeamSlot) (s : State) : Host.Outcome State Fault Refusal :=
  s.act (fun d => d.onPort p (fun d =>
    let e := q.val % 8
    let port := if q.val < 8 then 1 else 2
    let alt := p = 0 && d.bit (Reg.BCNQ_ALT_T.at [port, e]) && d.bit (Reg.BCNQ_RX_EN.at [port, e])
    if alt && d.bit (relayFld port) then d.stageSlot port e slot true
    else if alt && !d.bit (Reg.BCNQ_RX_EN.at [0, q.val]) then d.returnSlot port e true
    else d.stageSlot p q slot false))

/-- SLOT_CREDIT (R333, R336, R337): the partner's binding announces itself, with its STAGE_SLOTS credits, which are those the queue starts with; or, with no announcement, the partner has
written a slot out. -/
def execSlotCredit (p : Fin 3) (q : Fin 16) (announced : Option (BitVec 8)) (s : State) : Host.Outcome State Fault Refusal :=
  s.act (fun d => d.onPort p (fun d =>
    let d := match announced with
      | some n => (d.incSat (Reg.BCNQ_TX_CRED.at [p.val, q.val]) n.toNat).onBeacon (fun b => { b with startCred := Tab.put 0 b.startCred (p.val * 16 + q.val) n.toNat })
      | none => d.incSat (Reg.BCNQ_TX_CRED.at [p.val, q.val])
    if p = 0 && !(d.tx 0 q).relays.isEmpty then d.pumpRelays q (d.tx 0 q).relays else d))

/-- NBR_STALL (R333): a wait for a slot credit has lasted longer than NBR_STALL_US; it counts once. -/
def execNbrStall (p : Fin 3) (s : State) : Host.Outcome State Fault Refusal :=
  s.act (fun d =>
    match (List.range 16).find? (fun q => d.bit (Reg.BCNQ_TX_WAITING.at [p.val, q]) && !(d.tx p q).counted) with
    | none => d
    | some q => ((d.onTx p q (fun t => { t with counted := true })).inc (Reg.BCNP_NBR_LATE.at [p.val])).raiseSecond 0x0530 3 p p)

/-- SEAM_EPOCH_RESET (R337): a larger F_e replaces the one held, and the message goes on once. -/
def execSeamEpochReset (fe : Nat) (p : Fin 3) (s : State) : Host.Outcome State Fault Refusal :=
  s.act (fun d => d.onPort p (fun d =>
    let r := d.keepEpoch fe
    if r.1 then (r.2.upPorts.filter (· != p.val)).foldl (fun d q => d.bcnSend (.epoch q fe)) r.2 else r.2))

/-- At the PIPE boundary that issues frame F_e (R337). -/
def Dev.epochBoundary (d : Dev) : Dev :=
  match d.beacon.fe with
  | none => d
  | some fe =>
    if d.pipeFrame != some fe then d
    else
      let d := d.onBeacon (fun b => { b with fe := none })
      let d := (d.seamPipes.filter (fun p => (d.pipeRec p).isSome)).foldl (fun d p => d.quietReinit p) d
      let d := ((d.restartQueues).wr (Reg.BCN_EPOCH.at []) fe).inc (Reg.BCN_SEAM_RESETS.at [])
      d.raise 0x0534 8 0 [fe]

/-! ### Slack (R338) -/

/-- SLACK_MEASURE (R338): each second. -/
def execSlackMeasure (s : State) : Host.Outcome State Fault Refusal :=
  s.act (fun d =>
    let l := (d.plan.pipes.filter (fun r => !r.members.isEmpty && !r.analysis)).filterMap (fun r =>
      (Tab.get none d.slackNow r.pipe).map (fun x => (r.pipe, x)))
    let slack : Tab Int := l.foldl (fun (t : Tab Int) (e : Nat × Int) => Tab.put 0 t e.1 e.2) d.slack
    let d := { d with slackNow := [], slack := slack }
    match l with
    | [] => d.wallSlack
    | (_, x) :: _ =>
      let least := l.foldl (fun m e => if e.2 < m then e.2 else m) x
      let d := (d.wr (Reg.BCN_OWN_MIN_SLACK.at []) (ofSigned 32 least)).wallSlack
      if least < ((1000 * d.rd (Reg.BCN_SLACK_WARN_US.at []) : Nat) : Int) then d.raiseSecond 0x0540 8 0 0 else d)

/-! ### Keeper messages (R313, R319, R323, R435, R437) -/

/-- The owner's values are checked, and armed for the next boundaries where they pass (R323). -/
def Dev.adoptValues (d : Dev) (pairs : List (Nat × Nat)) : Dev :=
  let keep := ownFields.map (fun f => (f, d.rd f))
  let d := d.loadPairs [0, 1, 2] pairs
  let d := keep.foldl (fun d e => d.wrS e.1 e.2) d
  let v := d.checkCommit [0, 1, 2] false
  let d := d.onBeacon (fun b => { b with ownerVals := if v.code = 0 then some pairs else none, valsApplied := false })
  if v.code != 0 then d.reject [0, 1, 2] v
  else [0, 1, 2].foldl (fun d m => d.setBit (Reg.TOP_ARMED.at []) m true) d

/-- KEEPER_MESSAGE_ARRIVAL (R313, R319, R323, R430, R435, R437): the twin's message on port T is adopted. -/
def execKeeperMessageArrival (p : Fin 3) (m : KeeperMsg) (s : State) : Host.Outcome State Fault Refusal :=
  s.act (fun d => d.onPort p (fun d =>
    let follower := d.role = roleSync || d.role = roleStandby
    if p != 0 then d
    else match m with
    | .committed pairs => if follower then d.adoptValues pairs else d
    | .image digest plan proto =>
      let d := d.onBeacon (fun b => { b with ownerImage := some (digest, plan, proto) })
      if d.role = roleSync && !d.sameImage && !d.beacon.mismatchTold then
        (d.onBeacon (fun b => { b with mismatchTold := true })).raise 0x0515 8 0
      else d
    | .link o rate lanes fec dsc scrambled =>
      if follower then
        let d := d.onOut o (fun q => { q with dsc := dsc, scrambled := scrambled })
        let d := ((d.wr (Reg.OUT_LINK_RATE.at [o.val]) rate).wr (Reg.OUT_LINK_LANES.at [o.val]) lanes).set (Reg.OUT_FEC_ACTIVE.at [o.val]) fec
        d.set (Reg.OUT_LINK_UP.at [o.val]) true
      else d
    | .panel o id => if d.selMine o then d else d.panelIdentity o id
    | .tile o t e => if d.selMine o then d else d.tileIdentity o t e
    | .wear o incs => if d.selMine o then d else d.addWear o incs))

end Sys2Proof.Machine
end

