-- ==== Sys2Proof/Machine/Inputs.lean ====
section
/-! DEFINITION. Input streams: frames that complete, input ports, descriptors and host copies, mirrored streams, analysis runs and their results (R19, R219, R324 to R326, R396 to R408). -/

namespace Sys2Proof.Machine

/-! ### The link and the host window (R387, R388, R391, R392, R410) -/

/-- HWIN_FAIL (R391): the request of the host window at a device address fails; a write of it that waits to be sent is discarded. -/
def execHwinFail (addr : BitVec 48) (s : State) : Host.Outcome State Fault Refusal :=
  s.act (fun d =>
    let d := (d.inc (Reg.HST_HWIN_ERR.at [])).raiseSecond 0x0234 8 0 0 (addrArgs addr.toNat)
    if d.hostReady then d
    else (d.onHost (fun h => { h with failing := some addr.toNat })).suFlushAll.onHost (fun h => { h with failing := none }))

/-- HOST_LINK_UP (R387, R388, R391, R392, R410): the link trains at PCI Express `gen`, `width` lanes, and the host sets configuration space (log 112, log 191): requests that waited are sent, and vectors no longer masked
send what is pending. -/
def execHostLinkUp (gen width bar2Log2 : Nat) (cfg : HostCfg) (s : State) : Host.Outcome State Fault Refusal :=
  s.actIf (Instr.wf (.hostLinkUp gen width bar2Log2 cfg)) (fun d =>
    let d := (((d.set (Reg.HST_UP.at []) true).wr (Reg.HST_GEN.at []) gen).wr (Reg.HST_WIDTH.at []) width).raise 0x0236 8 0 [gen, width]
    let d := (d.wr (Reg.HST_BAR2_LOG2.at []) bar2Log2).onHost (fun h => { h with cfg := cfg, bar2Log2 := bar2Log2 })
    (upTo 64 (fun v d => d.unmask v) d).suFlushAll)

/-! ### Frames of a stream (R19, R219, R399) -/

/-- Result writers of an analysis pipeline (R402). -/
def Dev.writersOf (d : Dev) (p : Nat) : List Nat := (d.analysis.filter (fun a => a.pipe = p)).map (fun a => bits a.writer 4 3 * 16 + bits a.writer 0 4)

/-- Launches of stream unit `u` that have not ended: the one it carries out, one it holds, those on their way and those in its queue. -/
def Dev.openLaunches (d : Dev) (u : Nat) : Nat :=
  (if d.suState u = suIdle || d.suState u = suFrozen then 0 else 1) + (if (d.su u).shadow.isSome then 1 else 0) +
  (d.fabric.filter (fun m => decide (m.dst = .su u) && (match m.body with
    | .launch _ _ => true
    | _ => false))).length + (Tab.get [] d.launchQ (queueKey (0x100 + u) 0)).length

/-- A new run of an analysis pipeline begins; one that has not finished is abandoned (R19, R355). Its deadline is the expected completion of the stream's next
frame: one interval after this one (log 47). What its result writers have not ended by now belongs to earlier runs. -/
def Dev.startRun (d : Dev) (r : PipeRec) (f : InFrame) : Dev :=
  let s := r.stream
  let d := if (d.stream s).runs.any (fun x => x.1 = r.pipe) then d.endJob r.pipe true else d
  let d := d.onStream s (fun q => { q with runs := q.runs.filter (fun x => x.1 != r.pipe) })
  if d.parked r.pipe || !d.seqRun then d
  else
    let d := (d.writersOf r.pipe).foldl (fun d u => let n := d.openLaunches u; d.onSu u (fun q => { q with ended := false, stale := n })) d
    let gap := match (d.stream s).done with
      | a :: b :: _ => a.time - b.time
      | _ => 0
    let d := d.newJob r.pipe
    let l := { d.latchNow r (((d.pipe r.pipe).latches.head?.map Latch.frame).getD 0 + 1) with deadline := f.time + gap }
    let d := (d.recordStreams r.pipe).onPipe r.pipe (fun q => { q with todo := [], cur := none })
    (d.addLatch r.pipe l).onStream s (fun q => { q with runs := q.runs ++ [(r.pipe, f.buf)] })

/-- A frame counts: FRAMES advances and the stream's analysis pipelines start on it. -/
def Dev.countFrame (d : Dev) (s buf time : Nat) : Dev :=
  let d := d.inc (Reg.STR_FRAMES.at [s])
  let f : InFrame := ⟨buf, time, d.rd (Reg.STR_FRAMES.at [s])⟩
  let d := d.onStream s (fun q => { q with done := (f :: q.done).take 2 })
  (d.plan.pipes.filter (fun r => r.analysis && r.stream = s && !r.members.isEmpty)).foldl (fun d r => d.startRun r f) d

/-- The last write of a frame in buffer `buf` is accepted: LAST and LAST_TIME. -/
def Dev.lastFrame (d : Dev) (s buf time : Nat) : Dev :=
  ((d.wr (Reg.STR_LAST_TIME_LO.at [s]) time).wr (Reg.STR_LAST_TIME_HI.at [s]) (time / 2 ^ 32)).wr (Reg.STR_LAST.at [s]) buf

/-- A frame of the device's own source completes now; a stream that is sent to the twin counts it MIR_HOLD_US later (R324). -/
def Dev.frameDone (d : Dev) (s buf : Nat) : Dev :=
  let d := d.lastFrame s buf d.time
  if d.bit (Reg.BCN_MIR_TX.at [s]) then
    let d := d.onStream s (fun q => { q with held := q.held ++ [(buf, d.time)] })
    if d.bit (Reg.BCNP_UP.at [0]) then (d.onStream s (fun q => { q with sending := q.sending ++ [buf] })).bcnSend (.mirror s buf) else d
  else d.countFrame s buf d.time

/-- Every buffer is held and a frame is dropped (R399). -/
def Dev.dropFrame (d : Dev) (s : Nat) : Dev := (d.inc (Reg.STR_DROPPED.at [s])).raiseSecond 0x0231 8 0 s [s]

/-- Writes rows (plane, row, bytes) of a frame into a buffer (R398); the bytes count as unattributed (R353). -/
def Dev.writeRows (d : Dev) (s buf : Nat) (rows : List (Nat × Nat × Bytes)) : Dev :=
  let base := d.bufBase s buf
  let fmt := d.rd (Reg.STR_FMT.at [s])
  let h := d.rd (Reg.STR_H.at [s])
  rows.foldl (fun d r =>
    let k := r.1
    let rowsOf := if k = 0 then h else if chroma420 fmt then h / 2 else h
    if planeCount fmt ≤ k || rowsOf ≤ r.2.1 then d
    else
      let pitch := if k = 0 then d.rd (Reg.STR_PITCH0.at [s]) else d.rd (Reg.STR_PITCH1.at [s])
      let data := r.2.2.take (srcRowBytes fmt (d.rd (Reg.STR_W.at [s])) k)
      (d.spendFrame data.length).ddrWrite (d.planeBase s base k + r.2.1 * pitch) data [] 8 0) d

/-! ### Input ports (R406, R407) -/

/-- A component of a port in 10 bits (R406): `bpc` 0, 1 or 2 for 8, 10 or 12 bits; 12 bits are rounded with ties to even, and one
that rounds to 1,024, which 10 bits do not hold, is a free value (log 162). -/
def port10 (bpc c : Nat) : Nat :=
  if bpc = 0 then c * 4 + c / 64
  else if bpc = 1 then c
  else
    let v := (rneInt (c : Int) 4).toNat
    if v < 1024 then v else (Config.portOver c).toNat

/-- The codes of channel `k` in row `y` that the source sends, 2 bytes each. -/
def rowCodes (rows : List (Nat × Nat × Bytes)) (k y : Nat) : Bytes := ((rows.find? (fun r => r.1 = k && r.2.1 = y)).map (fun r => r.2.2)).getD []

/-- Pixel words of row `y` of a captured frame: channels 1 and 2 are replicated to 4:4:4 (R406). -/
def Dev.portRow (d : Dev) (m w y : Nat) (rows : List (Nat × Nat × Bytes)) : Bytes :=
  let enc := d.rd (Reg.IN_ENCODING.at [m])
  let bpc := d.rd (Reg.IN_BPC.at [m])
  let sx := if 2 ≤ enc then 2 else 1
  let sy := if enc = 3 then 2 else 1
  let code (row : Bytes) (x : Nat) : Nat := port10 bpc (leNat ((row.drop (2 * x)).take 2))
  let c0 := rowCodes rows 0 y
  let c1 := rowCodes rows 1 (y / sy)
  let c2 := rowCodes rows 2 (y / sy)
  (List.range w).flatMap (fun x => leBytes 4 (code c0 x * 2 ^ 20 + code c1 (x / sx) * 2 ^ 10 + code c2 (x / sx)))

/-- How many character, FEC or CRC errors the link of port `m` had is a free value (R412, log 161). -/
def Dev.linkErrs (d : Dev) (m : Nat) : Dev := (d.inc (Reg.IN_LINK_ERRS.at [m]) (d.freeVal 32)).useFree

/-- The stream that names input port `m` (R396, R409). -/
def Dev.portStream (d : Dev) (m : Nat) : Option Nat :=
  (List.range 16).find? (fun s => d.rd (Reg.STR_SRC.at [s]) = 2 && d.rd (Reg.STR_PORT.at [s]) = m)

/-- A frame begins in stream `s`: its buffer is chosen, and held while it is written; or the frame is dropped (R399). -/
def Dev.beginCapture (d : Dev) (s : Nat) : Dev :=
  match d.freeBuf s with
  | none => d.dropFrame s
  | some b => (d.wr (Reg.STR_WRITING.at [s]) b).onStream s (fun q => { q with capBuf := b })

/-- The frame being written into stream `s` is over; its buffer is held no longer on its account. -/
def Dev.endCapture (d : Dev) (s : Nat) : Dev :=
  let d := if d.rd (Reg.STR_WRITING.at [s]) = (d.stream s).capBuf then d.wr (Reg.STR_WRITING.at [s]) 15 else d
  d.onStream s (fun q => { q with capBuf := 15 })

/-- The measured picture of port `m` is that of stream `s`. -/
def Dev.portFits (d : Dev) (s m : Nat) : Bool :=
  d.rd (Reg.IN_HACTIVE.at [m]) = d.rd (Reg.STR_W.at [s]) && d.rd (Reg.IN_VACTIVE.at [m]) = d.rd (Reg.STR_H.at [s])

/-- The first line of a frame of input port `m` arrives (R399, R406). -/
def Dev.portBegins (d : Dev) (m : Nat) : Dev :=
  match d.portStream m with
  | none => d
  | some s => if d.rd (Reg.IN_STATE.at [m]) = 3 && d.portFits s m then (d.endCapture s).beginCapture s else d

/-- A frame of input port `m` is over (R399, R406). One that no stream names, that has another geometry, or that comes in state ENCRYPTED or UNSUPPORTED is discarded; one that
began before a commit abandoned it, or that found no buffer, goes nowhere. -/
def Dev.captureFrame (d : Dev) (m : Nat) (rows : List (Nat × Nat × Bytes)) : Dev :=
  let st := d.rd (Reg.IN_STATE.at [m])
  let d := if 3 ≤ st then d.linkErrs m else d
  if st < 3 then d
  else if st != 3 then d.inc (Reg.IN_DISCARDED.at [m])
  else match d.portStream m with
  | none => d.inc (Reg.IN_DISCARDED.at [m])
  | some s =>
    let b := (d.stream s).capBuf
    if !d.portFits s m then
      let d := (d.endCapture s).inc (Reg.IN_DISCARDED.at [m])
      if d.host.badGeom.contains m then d else (d.onHost (fun x => { x with badGeom := x.badGeom ++ [m] })).raise 0x023A 2 m [m]
    else
      let d := d.onHost (fun x => { x with badGeom := x.badGeom.filter (· != m) })
      if b = 15 then d
      else
        let rows' := (List.range (d.rd (Reg.STR_H.at [s]))).map (fun y => (0, y, d.portRow m (d.rd (Reg.STR_W.at [s])) y rows))
        (((d.writeRows s b rows').endCapture s).inc (Reg.IN_FRAMES_RX.at [m])).frameDone s b

/-- A host copy's frame completes in the buffer it writes (R401). -/
def Dev.copiedFrame (d : Dev) (s : Nat) (rows : List (Nat × Nat × Bytes)) : Dev :=
  let q := d.stream s
  if q.desc.isNone || q.aborted || d.rd (Reg.STR_WRITING.at [s]) != q.copyBuf || q.copyBuf = 15 then d
  else ((d.writeRows s q.copyBuf rows).wr (Reg.STR_WRITING.at [s]) 15).frameDone s q.copyBuf

/-- INPUT_FRAME_COMPLETE (R19, R399, R401, R406): the last write of a frame is accepted. `rows` gives (plane, row, bytes) of a host frame, and for an input port
(channel, row, 2-byte codes) as the source sends them; without rows, the first line of a port's frame arrives (log 111). -/
def execInputFrameComplete (src : InputSource) (rows : Option (List (Nat × Nat × Bytes))) (s : State) : Host.Outcome State Fault Refusal :=
  s.act (fun d => match src, rows with
    | .host sx, some l => if d.rd (Reg.STR_SRC.at [sx.val]) = 2 then d else d.copiedFrame sx l
    | .host _, none => d
    | .port m, some l => d.captureFrame m l
    | .port m, none => d.portBegins m)

/-- The signal of port `m` is lost: a frame in progress is discarded (R406). -/
def Dev.loseFrame (d : Dev) (m : Nat) : Dev :=
  match d.portStream m with
  | none => d
  | some s => if (d.stream s).capBuf = 15 then d else (d.endCapture s).inc (Reg.IN_DISCARDED.at [m])

/-- An input port enters a state (R407); the events carry the port (R410). -/
def Dev.setInState (d : Dev) (m st : Nat) : Dev :=
  let was := d.rd (Reg.IN_STATE.at [m])
  if st = was then d
  else
    let d := if was = 3 then d.loseFrame m else d
    let d := (d.wr (Reg.IN_STATE.at [m]) st).signal (18 + m)
    if st = 1 then (if was = 3 then d.raise 0x0239 2 m [m] else d)
    else if st = 3 then d.raise 0x0238 2 m [m]
    else if st = 4 then d.raise 0x023B 2 m [m]
    else if st = 5 then d.raise 0x023C 2 m [m]
    else d

/-- What the port measures of its source (R412). -/
def Dev.setSignal (d : Dev) (m : Nat) (x : InSignal) : Dev :=
  let l : List (RegDef × Nat) :=
    [(Reg.IN_IFACE, x.iface), (Reg.IN_ENCODING, x.encoding), (Reg.IN_BPC, x.bpc), (Reg.IN_LIMITED, if x.limited then 1 else 0),
     (Reg.IN_COLORIMETRY, x.colorimetry), (Reg.IN_EOTF, x.eotf), (Reg.IN_HACTIVE, x.hactive), (Reg.IN_VACTIVE, x.vactive), (Reg.IN_RATE_MHZ, x.rateMhz),
     (Reg.IN_LINK_RATE, x.linkRate), (Reg.IN_LINK_LANES, x.linkLanes)]
  l.foldl (fun d e => d.wr (e.1.at [m]) e.2) d

/-- A source's timing and options are ones that R405 lists and that the port accepts (R412; an interface that an EN bit shuts out is not accepted, log 185). -/
def Dev.accepts (d : Dev) (m : Nat) (x : InSignal) : Bool :=
  let hdmi := d.bit (Reg.IN_HDMI_EN.at [m])
  let link := match x.iface with
    | 1 => hdmi && 1 ≤ x.linkRate && x.linkRate ≤ d.rd (Reg.IN_MAX_FRL.at [m])
    | 2 => hdmi
    | 3 => d.bit (Reg.IN_DP_EN.at [m]) && x.linkRate ≤ d.rd (Reg.IN_MAX_DP.at [m]) && [1, 2, 4].contains x.linkLanes
    | _ => false
  link && x.encoding ≤ 3 && x.bpc ≤ 2 && x.hactive ≤ 3840 && x.vactive ≤ 2160 && x.rateMhz ≤ 120000

/-- IN_STATE_CHANGE (R405 to R407): the state an enabled port finds its source in; a source it would lock to is UNSUPPORTED where its timing or options are not listed or not accepted.
A port that is not enabled stays DISABLED, and an enabled one is not; while EDID_DONE holds HPD low there is no link. -/
def execInStateChange (m : Fin 4) (sig : InSignal) (s : State) : Host.Outcome State Fault Refusal :=
  s.act (fun d =>
    let en := d.bit (Reg.IN_EN.at [m.val])
    if (sig.state.val = 0) == en || (d.host.hpdLow.contains m.val && 1 < sig.state.val) then d
    else
      let d := if sig.state.val = 3 then d else d.onHost (fun x => { x with badGeom := x.badGeom.filter (· != m.val) })
      ((d.linkErrs m).setSignal m sig).setInState m (if sig.state.val = 3 && !d.accepts m sig then 5 else sig.state.val))

/-- A commit of EN enables a port, or disables it (R407). -/
def Dev.enablePort (d : Dev) (m : Nat) : Dev :=
  let d := d.onHost (fun x => { x with hpdLow := x.hpdLow.filter (· != m) })
  d.setInState m (if d.bit (Reg.IN_EN.at [m]) then 1 else 0)

/-- EDID_DONE (R408): HPD is deasserted for 200 ms; the link is lost meanwhile. -/
def execEdidDone (m : Fin 4) (s : State) : Host.Outcome State Fault Refusal :=
  s.actHost (fun d =>
    if !d.bit (Reg.IN_EN.at [m.val]) then d
    else (d.onHost (fun x => { x with hpdLow := if x.hpdLow.contains m.val then x.hpdLow else x.hpdLow ++ [m.val] })).setInState m 1)

/-- EDID_HPD_RESTORE (R408). -/
def execEdidHpdRestore (m : Fin 4) (s : State) : Host.Outcome State Fault Refusal :=
  s.act (fun d => d.onHost (fun x => { x with hpdLow := x.hpdLow.filter (· != m.val) }))

/-! ### Descriptors (R400, R401) -/

/-- The entry of the next descriptor of a stream: its address and its index. -/
def Dev.descEntry (d : Dev) (s : Nat) : Nat × Nat := (d.ringAddr (2 + s) (d.rd (ringDidx (2 + s))), d.rd (ringDidx (2 + s)))

/-- STATUS and DONE_TIME of the descriptor of an entry, and DIDX, which moves on from that entry (log 184); a RESULT other than OK is reported. -/
def Dev.finishDesc (d : Dev) (s : Nat) (entry : Nat × Nat) (result buf : Nat) (irq : Bool) : Dev :=
  let d := (d.hostWrite (entry.1 + 0x30) (leBytes 4 (1 + 2 * result + 65536 * buf))).hostWrite (entry.1 + 0x38) (leBytes 8 d.time)
  let d := if d.rd (ringDidx (2 + s)) = entry.2 then d.ringAdvance (2 + s) 1 (if irq then 1 else 0) else d
  if result = 0 then d else d.raiseSecond 0x0232 8 0 s [s, result]

/-- A descriptor's addresses and pitches break R401. -/
def Dev.badDesc (d : Dev) (s : Nat) (desc : Bytes) : Bool :=
  let f (o n : Nat) : Nat := leNat ((desc.drop o).take n)
  let fmt := d.rd (Reg.STR_FMT.at [s])
  let w := d.rd (Reg.STR_W.at [s])
  (List.range (planeCount fmt)).any (fun k =>
    f (8 + 8 * k) 8 % 64 != 0 || f (if k = 0 then 0x20 else 0x24) 4 % 64 != 0 || f (if k = 0 then 0x20 else 0x24) 4 < srcRowBytes fmt w k)

/-- A stream takes its frames from its descriptor ring (R401). -/
def Dev.fetches (d : Dev) (s : Nat) : Bool :=
  let src := d.rd (Reg.STR_SRC.at [s])
  d.bit (ringEn (2 + s)) && (src = 1 || (src = 3 && d.bit (Reg.BCN_FALLBACK.at [s]) && (d.stream s).fallback))

/-- DESC_FETCH (R399, R401): the next descriptor, whose 64 bytes are `desc`, is fetched; the copy starts, or it ends with GEOMETRY or DROPPED. -/
def execDescFetch (sx : Fin 16) (desc : Bytes) (s : State) : Host.Outcome State Fault Refusal :=
  s.act (fun d =>
    let q := 2 + sx.val
    if !d.fetches sx || (d.stream sx).desc.isSome || d.rd (ringHidx q) = d.rd (ringDidx q) || desc.length != 64 then d
    else
      let irq := (leNat (desc.take 4)).testBit 0
      let at_ := d.descEntry sx
      if d.badDesc sx desc then d.finishDesc sx at_ 3 0 irq
      else match d.freeBuf sx with
        | none => (d.dropFrame sx).finishDesc sx at_ 1 0 irq
        | some b => (d.wr (Reg.STR_WRITING.at [sx.val]) b).onStream sx (fun x =>
            { x with desc := some desc, aborted := false, copyBuf := b, descAt := at_.1, descIdx := at_.2 }))

/-- DESC_COPY_DONE (R391, R396, R401): the copy of a frame that has completed, one that a commit abandoned, or one that failed. -/
def execDescCopyDone (sx : Fin 16) (ok : Bool) (s : State) : Host.Outcome State Fault Refusal :=
  s.act (fun d =>
    let x := d.stream sx
    match x.desc with
    | none => d
    | some desc =>
      let irq := (leNat (desc.take 4)).testBit 0
      let writing := d.rd (Reg.STR_WRITING.at [sx.val]) = x.copyBuf
      let d' := d.onStream sx (fun q => { q with desc := none, aborted := false, copyBuf := 15 })
      let at_ := (x.descAt, x.descIdx)
      if x.aborted then d'.finishDesc sx at_ 4 x.copyBuf irq
      else if ok then (if writing then d else d'.finishDesc sx at_ 0 x.copyBuf irq)
      else (if writing then d'.wr (Reg.STR_WRITING.at [sx.val]) 15 else d').finishDesc sx at_ 2 x.copyBuf irq)

/-! ### Mirrored streams (R324, R326) -/

/-- MIRROR_FRAME_ARRIVAL (R324, R326, R399): a mirrored frame completes in the buffer of its stream; `completion` is the sender's completion time C. Without rows, its first row arrives
and its buffer is chosen (log 111); one that a commit abandoned, or that found no buffer, goes nowhere. -/
def execMirrorFrameArrival (sx : Fin 16) (completion : Nat) (rows : Option (List (Nat × Nat × Bytes))) (s : State) : Host.Outcome State Fault Refusal :=
  s.act (fun d => d.onPort 0 (fun d =>
    if d.rd (Reg.STR_SRC.at [sx.val]) != 3 || !d.bit (Reg.BCN_MIR_RX.at [sx.val]) then d
    else match rows with
    | none => (d.endCapture sx).beginCapture sx
    | some rows =>
      let b := (d.stream sx).capBuf
      if b = 15 then d
      else
        let d := ((d.writeRows sx b rows).endCapture sx).lastFrame sx b completion
        let d := if (d.stream sx).fallback then (d.onStream sx (fun q => { q with fallback := false })).raise 0x0551 8 0 [sx] else d
        if d.time ≤ completion + 1000 * d.rd (Reg.BCN_MIR_HOLD_US.at [sx.val]) then d.onStream sx (fun q => { q with held := q.held ++ [(b, completion)] })
        else ((d.countFrame sx b completion).inc (Reg.BCN_MIR_LATE.at [sx.val])).raiseSecond 0x0550 8 0 sx [sx]))

/-- MIRROR_HOLD_EXPIRY (R324): at C + MIR_HOLD_US the frame counts. -/
def execMirrorHoldExpiry (sx : Fin 16) (s : State) : Host.Outcome State Fault Refusal :=
  s.act (fun d =>
    match (d.stream sx).held with
    | [] => d
    | (b, c) :: rest => (d.onStream sx (fun q => { q with held := rest })).countFrame sx b c)

/-- Bytes of one frame of stream `s` that port T sends. -/
def Dev.sentBytes (d : Dev) (s : Nat) : Nat :=
  let fmt := d.rd (Reg.STR_FMT.at [s])
  let h := d.rd (Reg.STR_H.at [s])
  ((List.range (planeCount fmt)).map (fun k => srcRowBytes fmt (d.rd (Reg.STR_W.at [s])) k * (if k = 0 then h else if chroma420 fmt then h / 2 else h))).foldl (· + ·) 0

/-- MIRROR_SEND_DONE (R353, R399): the frame has been read for port T. -/
def execMirrorSendDone (sx : Fin 16) (s : State) : Host.Outcome State Fault Refusal :=
  s.act (fun d =>
    let d := if (d.stream sx).sending.isEmpty then d else d.spendFrame (d.sentBytes sx)
    d.onStream sx (fun q => { q with sending := q.sending.drop 1 }))

/-! ### Results (R402, R403) -/

/-- A result of a run, before the ring takes it: descriptor, entry number, the entry's bytes, and whether it is poisoned. -/
structure ResultRec where
  desc : AnalysisRec
  index : Nat
  entry : Bytes
  poison : Bool
  deriving DecidableEq, Repr

/-- Entries of a descriptor that emit a record: word 15 is not 0. The result engine's reads are Keeper's (R190). -/
def Dev.readResults (d : Dev) (a : AnalysisRec) : List ResultRec × Dev :=
  (List.range a.records).foldl (fun (acc : List ResultRec × Dev) r =>
    let at_ := a.stage + 64 * r
    let c := (acc.2.askReads keeperMaster acc.2.nodl false at_ 64).ddrCheck at_ 64 8 0
    let e := c.2.bytes at_ 64
    if leNat ((e.drop 60).take 4) = 0 then (acc.1, c.2) else (acc.1 ++ [⟨a, r, e, !c.1.isEmpty⟩], c.2)) ([], d)

/-- The 64 bytes of a result record (R403). -/
def resultBytes (r : ResultRec) (stream seq : Nat) (src : InFrame) (last gap : Bool) : Bytes :=
  leBytes 2 r.desc.kind ++ leBytes 1 r.desc.pipe ++ leBytes 1 stream ++ leBytes 4 seq ++ leBytes 8 src.time ++ leBytes 4 src.count ++ leBytes 2 r.index ++
  leBytes 2 ((if last then 1 else 0) + (if gap then 2 else 0) + (if r.poison then 4 else 0)) ++
  r.entry.take (4 * min r.desc.values 10) ++ List.replicate (40 - 4 * min r.desc.values 10) 0

/-- The records of a run go to the ring, or none of them does. -/
def Dev.emitRun (d : Dev) (rs : List ResultRec) (stream : Nat) (src : InFrame) : Dev :=
  let n := rs.length
  if n = 0 then d
  else if d.ringFree 1 < n then
    ((d.inc (Reg.HST_RES_DROPPED.at []) n).onHost (fun h => { h with resGap := true })).raiseSecond 0x0235 8 0 0 [n]
  else
    let d := (List.zip (List.range n) rs).foldl (fun d e =>
      let seq := d.rd (Reg.HST_RES_SEQ.at [])
      let b := resultBytes e.2 stream seq src (e.1 + 1 = n) (e.1 = 0 && d.host.resGap)
      (d.hostWrite (d.ringAddr 1 (d.rd (ringDidx 1) + e.1)) b).inc (Reg.HST_RES_SEQ.at [])) d
    (d.onHost (fun h => { h with resGap := false })).ringAdvance 1 n n

/-- RESULT_EMIT (R19, R355, R375, R402, R403): the drain of a result writer's END is over, and the runs of its pipelines end. -/
def execResultEmit (u : Fin 128) (s : State) : Host.Outcome State Fault Refusal :=
  s.act (fun d =>
    if !(d.su u).ended then d
    else
      let d := d.onSu u (fun q => { q with ended := false })
      let mine := d.analysis.filter (fun a => bits a.writer 4 3 * 16 + bits a.writer 0 4 = u.val)
      (d.plan.pipes.filter (fun r => r.analysis && mine.any (fun a => a.pipe = r.pipe) && (d.stream r.stream).runs.any (fun x => x.1 = r.pipe))).foldl (fun d r =>
        let src := ((d.pipe r.pipe).latches.head?.map Latch.src).getD ⟨0, 0, 0⟩
        let d := d.onStream r.stream (fun q => { q with runs := q.runs.filter (fun x => x.1 != r.pipe) })
        let got := (mine.filter (fun a => a.pipe = r.pipe)).foldl (fun (acc : List ResultRec × Dev) a =>
          let x := acc.2.readResults a
          (acc.1 ++ x.1, x.2)) ([], d)
        let d := if d.parked r.pipe then got.2 else got.2.emitRun got.1 r.stream src
        d.endJob r.pipe false) d)

end Sys2Proof.Machine
end

