-- ==== Sys2Proof/Machine/Outputs.lean ====
section
/-! DEFINITION. Output timing generators and links: start, genlock, training (R246 to R257, R263 to R266, R327 to R329, R435). -/

namespace Sys2Proof.Machine

/-! ### The generator (R246, R248) -/

/-- Lines of the blanking between the active lines of two frames. -/
def Dev.blanking (d : Dev) (o : Nat) : Nat := d.rd (Reg.OUT_VTOTAL.at [o]) - d.vactive o

/-- A raster that starts or stops has no frame in progress: its layers hold no lines, and its pipelines no latch (R246, R282; log 46). -/
def Dev.quietRaster (d : Dev) (o : Nat) : Dev :=
  let d := (d.rasterLayers o).foldl (fun d j => ((d.withdraw (guardMaster j)).lbRestart j 0).onLayer j (fun q => { q with
    guardFor := none, guardNext := 0, glines := [], off := none, takes := [], slots := [] })) d
  (d.plan.pipes.filter (fun r => !r.analysis && d.pipeRaster r = o)).foldl (fun d r =>
    d.onPipe r.pipe (fun q => { q with latches := [], todo := [], cur := none, stripe := 0, fresh := [] })) d

/-- The generator of output `o` starts at the start of line VACTIVE, with frame number 0; in split mode the right half waits for line 0 (R259). -/
def Dev.startGenerator (d : Dev) (o : Nat) : Dev :=
  let d := d.quietRaster o
  let d := (d.rasterOuts o).foldl (fun d p =>
    if d.bit (Reg.OUT_ENABLE.at [p]) && p != o then d.onOut p (fun q => { q with waitHalf := true })
    else if d.bit (Reg.OUT_ENABLE.at [p]) then
      (((d.set (Reg.OUT_RUNNING.at [p]) true).wr (Reg.OUT_FRAME.at [p]) 0).wr (Reg.OUT_LINE.at [p]) (d.vactive o)).onOut p (fun q => { q with wraps := 0 })
    else d) d
  d.onOut o (fun q => { q with
    inBlank := some 0, blank := d.blanking o, announced := d.blanking o, at_ := d.time, decFrame := 1, decided := 0,
    blankHt := d.rd (Reg.OUT_HTOTAL.at [o]), blankKhz := d.rd (Reg.OUT_PCLK_KHZ.at [o]),
    waitLock := false, jump := none, jumpSeen := 0, slew := 0 })

/-- The generator of output `o` stops, and the link is powered down. -/
def Dev.stopGenerator (d : Dev) (o : Nat) : Dev :=
  let d := if d.rasterBase o = o then d.quietRaster o else d
  let d := ((d.set (Reg.OUT_RUNNING.at [o]) false).set (Reg.OUT_LINK_UP.at [o]) false).set (Reg.OUT_SR_ACTIVE.at [o]) false
  d.onOut o (fun q => { q with
    inBlank := none, waitLock := false, waitHalf := false, jump := none, jumpSeen := 0, slew := 0, training := false,
    late := [], resend := false })

/-! ### Genlock (R251 to R257) -/

/-- GL_STATE values (R274). -/
def glFree : Nat := 0
def glAcquire : Nat := 1
def glJump : Nat := 2
def glSlew : Nat := 3
def glLocked : Nat := 4
def glHoldover : Nat := 5

def Dev.glState (d : Dev) (o : Nat) : Nat := d.rd (Reg.OUT_GL_STATE.at [o])
def Dev.setGl (d : Dev) (o v : Nat) : Dev := d.wr (Reg.OUT_GL_STATE.at [o]) v

/-- The output of a sending device whose reference is port T takes no edges (R328). -/
def Dev.holdsOwn (d : Dev) (o : Nat) : Bool :=
  d.sendsTokens && d.rd (Reg.OUT_MODE.at [o]) = 2 && decide (refPort (d.rd (Reg.OUT_REF_SRC.at [o])) = some 0)

/-- Whether output `o` is locked to a reference: in GENLOCK mode, or as a device that follows its twin (R319, R328). -/
def Dev.referenced (d : Dev) (o : Nat) : Bool :=
  d.bit (Reg.OUT_ENABLE.at [o]) && (d.rd (Reg.OUT_MODE.at [o]) = 2 || (d.tokenPort o).isSome) && !(d.split && o = 1)

/-- REF_MULT in effect: 1 for tokens (R251). -/
def Dev.refMult (d : Dev) (o : Nat) : Nat := if (d.tokenPort o).isSome then 1 else d.rd (Reg.OUT_REF_MULT.at [o])

/-- A reference period within 500 ppm of REF_MULT × VTOTAL × HTOTAL ÷ PCLK (R256). -/
def Dev.periodFits (d : Dev) (o periodNs : Nat) : Bool :=
  let want : Int := d.refMult o * d.rd (Reg.OUT_VTOTAL.at [o]) * d.rd (Reg.OUT_HTOTAL.at [o]) * 1000000
  decide (2000 * ((periodNs * d.rd (Reg.OUT_PCLK_KHZ.at [o]) : Nat) - want).natAbs ≤ want.natAbs)

/-- T_out in 1/16 pixel. -/
def Dev.frame16 (d : Dev) (o : Nat) : Nat := 16 * d.rd (Reg.OUT_VTOTAL.at [o]) * d.rd (Reg.OUT_HTOTAL.at [o])

/-- e of R252 from the time between the edge and the next boundary: the edge is delayed by REF_OFFSET pixels. -/
def Dev.phaseError (d : Dev) (o phase : Nat) : Nat :=
  (((phase : Int) - 16 * toSigned 32 (d.rd (Reg.OUT_REF_OFFSET.at [o]))) % ((max (d.frame16 o) 1 : Nat) : Int)).toNat

/-- e′ of R252. -/
def Dev.signedError (d : Dev) (o e : Nat) : Int := if 2 * e ≤ d.frame16 o then e else (e : Int) - d.frame16 o

/-- A slew of `amount` (positive: lines are shortened) starts at the next line start. -/
def Dev.slewBy (d : Dev) (o : Nat) (amount : Int) (state : Nat) : Dev := (d.onOut o (fun q => { q with slew := amount })).setGl o state

/-- The correction for a measured e (R253). -/
def Dev.correct (d : Dev) (o e : Nat) : Dev :=
  let t := d.frame16 o
  let h := max (16 * d.rd (Reg.OUT_HTOTAL.at [o])) 1
  let j := d.rd (Reg.OUT_JUMP_LINES.at [o]) * h
  if e < j then d.slewBy o e glSlew
  else if t - e < j then d.slewBy o (-((t - e : Nat) : Int)) glSlew
  else if !d.bit (Reg.OUT_JUMP_EN.at [o]) then d.slewBy o (d.signedError o e) glSlew
  else
    let jump (lines rest : Int) (long : Bool) : Dev := (d.onOut o (fun q => { q with jump := some ⟨lines, rest, long⟩, jumpSeen := 0, slew := 0 })).setGl o glJump
    if 2 * e ≤ t && e / h + d.rd (Reg.OUT_VB_MIN.at [o]) ≤ d.blanking o then jump (-((e / h : Nat) : Int)) ((e % h : Nat) : Int) false
    else jump (((t - e) / h : Nat) : Int) (-(((t - e) % h : Nat) : Int)) true

/-- Genlock begins to acquire its reference (R255). -/
def Dev.acquire (d : Dev) (o : Nat) : Dev :=
  ((d.setGl o glAcquire).set (Reg.OUT_FREQ_LOCK.at [o]) false).onOut o (fun q => { q with edges := 0, rangeTold := false })

/-- An edge in ACQUIRE whose period fits, before FREQ_LOCK: it is set within 4 periods, at an edge the manual does not state. -/
def Dev.acquireEdge (d : Dev) (o : Nat) : Dev :=
  let n := (d.out o).edges + 1
  let now := 4 ≤ n || d.freeVal 1 = 1
  let d := d.useFree
  if now then (d.set (Reg.OUT_FREQ_LOCK.at [o]) true).onOut o (fun q => { q with edges := 0 })
  else d.onOut o (fun q => { q with edges := n })

/-- An edge at the generator, its phase error measured (R253, R255, R256). -/
def Dev.edgeAt (d : Dev) (o e periodNs : Nat) : Dev :=
  let s := d.signedError o e
  let d := ((d.set (Reg.OUT_REF_PRESENT.at [o]) true).wr (Reg.OUT_GL_REF_PERIOD.at [o]) periodNs).wr (Reg.OUT_GL_PHASE.at [o]) (ofSigned 32 s)
  let d := if d.glState o = glFree then d.acquire o else d
  let st := d.glState o
  if st = glAcquire then
    if !d.periodFits o periodNs then
      let d := d.set (Reg.OUT_FREQ_LOCK.at [o]) false
      if (d.out o).rangeTold then d else (d.onOut o (fun q => { q with rangeTold := true, edges := 0 })).raise 0x0315 1 o
    else
      let d := d.onOut o (fun q => { q with rangeTold := false })
      if !d.bit (Reg.OUT_FREQ_LOCK.at [o]) then d.acquireEdge o else d.correct o e
  else if st = glSlew then
    if (d.out o).slew != 0 then d
    else if s.natAbs < 16 then (d.setGl o glLocked).raise 0x0310 1 o
    else d.correct o e
  else if st = glLocked then
    if 16 * d.rd (Reg.OUT_UNLOCK_PX.at [o]) ≤ s.natAbs then (d.raise 0x0313 1 o).correct o e
    else if s.natAbs < 16 then d
    else d.slewBy o s glLocked
  else if st = glHoldover then
    let n := if d.periodFits o periodNs then (d.out o).edges + 1 else 0
    if 4 ≤ n then d.acquire o else d.onOut o (fun q => { q with edges := n })
  else d

/-- The edge of a token is taken, and the time base compared with the master's (R329, R331): that of the primary port, or of TOK_ALT where the primary's has not come; none, there
is no new edge. Two edges from TOK_ALT switch where they are those of two frames in a row; after the switch the primary's tokens are counted from one. -/
def Dev.takeEdge (d : Dev) (o p : Nat) : Option Dev :=
  let alt := if d.follows then none else refPort (d.rd (Reg.BCN_TOK_ALT.at []))
  let last := Tab.get 0 d.beacon.lastEdge o
  let fresh := d.beacon.edges.filter (fun e => e.2.1 + 1 != last && (decide (e.1 = p) || decide (alt = some e.1)))
  let onAlt := d.beacon.useAlt.contains o
  let pick := if onAlt then fresh.filter (fun e => decide (alt = some e.1)) else fresh
  match pick.getLast? with
  | none => none
  | some (_, f, edge, master) =>
    let d := d.followTime master edge
    let d := d.onBeacon (fun b => { b with lastEdge := Tab.put 0 b.lastEdge o (f + 1) })
    if onAlt then some d
    else if fresh.any (fun e => e.1 = p && e.2.1 = f) then some (d.onBeacon (fun b => { b with altRun := Tab.put 0 b.altRun o 0 }))
    else
      let n := if f = last % 2 ^ 32 then Tab.get 0 d.beacon.altRun o + 1 else 1
      let d := d.onBeacon (fun b => { b with altRun := Tab.put 0 b.altRun o n })
      some (if 2 ≤ n then (d.onBeacon (fun b => { b with
        useAlt := b.useAlt ++ [o], tokRun := Tab.put (0, 0) b.tokRun p ((Tab.get (0, 0) b.tokRun p).1, 0) })).raise 0x0520 3 p else d)

/-- GL_REF_LOST (R255, R322, R328). -/
def execGlRefLost (o : Fin 2) (s : State) : Host.Outcome State Fault Refusal :=
  s.act (fun d =>
    let st := d.glState o
    if st = glFree || st = glHoldover then d
    else
      let d := ((d.setGl o glHoldover).set (Reg.OUT_REF_PRESENT.at [o.val]) false).onOut o (fun q => { q with edges := 0 })
      if d.holdsOwn o then d else (d.raise 0x0314 1 o).handoverCause 2)

/-! ### Links (R266, R273, R435) -/

/-- Keeper trains the link; a standby makes no transactions with the sink (R319). -/
def Dev.train (d : Dev) (o : Nat) : Dev :=
  if d.bit (Reg.OUT_HPD.at [o]) && d.role != roleStandby then
    (d.set (Reg.OUT_LINK_UP.at [o]) false).onOut o (fun q => { q with training := true, retry := false })
  else d

/-- HPD_ASSERT (R266). -/
def execHpdAssert (o : Fin 2) (s : State) : Host.Outcome State Fault Refusal :=
  s.act (fun d =>
    if d.bit (Reg.OUT_HPD.at [o.val]) then d
    else ((d.set (Reg.OUT_HPD.at [o.val]) true).raise 0x0331 1 o).train o)

/-- HPD_DEASSERT (R266). -/
def execHpdDeassert (o : Fin 2) (s : State) : Host.Outcome State Fault Refusal :=
  s.act (fun d =>
    if !d.bit (Reg.OUT_HPD.at [o.val]) then d
    else
      let d := ((d.set (Reg.OUT_HPD.at [o.val]) false).set (Reg.OUT_LINK_UP.at [o.val]) false).raise 0x0330 1 o
      d.onOut o (fun q => { q with training := false, retry := false }))

/-- The link is scrambled: TMDS above 340 MHz (R263); the other interfaces always are (log 158). -/
def Dev.scrambles (d : Dev) (o : Nat) : Bool :=
  let b := d.rasterBase o
  d.rd (Reg.OUT_IFACE.at [o]) != 2 || 340000 * (if d.rd (Reg.OUT_ENCODING.at [b]) = 3 then 16 else 8) <
    d.rd (Reg.OUT_PCLK_KHZ.at [b]) * (if d.bit (Reg.OUT_BPC10.at [b]) then 10 else 8)

/-- The link is up, and an owner tells its twin (R319); panel identity is read at each LINK_TRAINED (R435). -/
def Dev.linkUp (d : Dev) (o rate lanes : Nat) (fec : Bool) (displayId : Option Bytes) : Dev :=
  let d := d.onOut o (fun q => { q with dsc := d.bit (Reg.OUT_DSC_EN.at [o]), scrambled := d.scrambles o })
  let d := ((d.wr (Reg.OUT_LINK_RATE.at [o]) rate).wr (Reg.OUT_LINK_LANES.at [o]) lanes).set (Reg.OUT_FEC_ACTIVE.at [o]) fec
  let d := ((d.set (Reg.OUT_LINK_UP.at [o]) true).onOut o (fun q => { q with training := false, retry := false })).raise 0x0332 1 o [rate, lanes]
  let d := if d.role = roleOwner && d.partner 0 then d.tellTwin [d.linkMsg (finTwo o)] else d
  if d.selMine o then
    let id := displayId.map (fun b => (crc32 b).toNat)
    ((d.panelIdentity o id).tellTwin [.panel (finTwo o) id]).readTiles o
  else d

/-- Usable payload of a DisplayPort, eDP or FRL combination, in units that compare (R264). -/
def linkPayload (iface rate lanes : Nat) : Nat :=
  if iface = 1 then (frlRate rate).1 * (frlRate rate).2 else lanes * laneRate rate * (if 4 ≤ rate && rate ≤ 6 then 9671 else 8000)

/-- Rate and lanes that a fallback may use (R266): a combination of the interface with a lower payload than the committed one. TMDS has none. -/
def Dev.fallbackLink (d : Dev) (o rate lanes : Nat) : Bool :=
  let iface := d.rd (Reg.OUT_IFACE.at [o])
  iface != 2 && linkCombo iface rate lanes && (iface != 1 || lanes = (frlRate rate).1) &&
    linkPayload iface rate lanes < linkPayload iface (d.rd (Reg.OUT_RATE.at [o])) (d.rd (Reg.OUT_LANES.at [o]))

/-- The committed rate and lanes of a link (R263, R274): those of HDMI FRL follow from RATE, and TMDS ignores both. -/
def Dev.committedLink (d : Dev) (o rate lanes : Nat) : Bool :=
  match d.rd (Reg.OUT_IFACE.at [o]) with
  | 1 => rate = d.rd (Reg.OUT_RATE.at [o]) && lanes = (frlRate rate).1
  | 2 => true
  | _ => rate = d.rd (Reg.OUT_RATE.at [o]) && lanes = d.rd (Reg.OUT_LANES.at [o])

/-- LINK_TRAINED (R263, R264, R266, R273, R322, R435): training ends. -/
def execLinkTrained (o : Fin 2) (r : LinkResult) (displayId : Option Bytes) (s : State) : Host.Outcome State Fault Refusal :=
  s.act (fun d =>
    if !(d.out o).training then d
    else match r with
    | .trained rate lanes fec => if d.committedLink o rate lanes then d.linkUp o rate lanes fec displayId else d
    | .fallback rate lanes fec =>
      if d.bit (Reg.OUT_FALLBACK_EN.at [o.val]) && d.fallbackLink o rate lanes && d.linkFits o rate lanes then (d.raise 0x0333 1 o).linkUp o rate lanes fec displayId else d
    | .failed =>
      let d := d.onOut o (fun q => { q with training := false, retry := true })
      ((d.inc (Reg.OUT_LINK_FAILS.at [o.val])).raise 0x0334 1 o).handoverCause 0)

/-- LINK_RETRY (R266): once per second while HPD is asserted. -/
def execLinkRetry (o : Fin 2) (s : State) : Host.Outcome State Fault Refusal :=
  s.act (fun d => if (d.out o).retry then d.train o else d)

end Sys2Proof.Machine
end

