-- ==== Sys2Proof/Machine/Boundary.lean ====
section
/-! DEFINITION. Frame boundaries and idle boundaries: what ends, what is committed, what starts (R25, R155, R181, R193, R222, R233, R235, R238, R241, R246 to R259, R267, R280, R289, R290, R293, R300, R303, R323, R328, R337, R345, R350, R372, R396), and the reference edges that start a generator (R246, R251 to R256). -/

namespace Sys2Proof.Machine

/-- A list of fields has the same values in force in two states of the device. -/
def Dev.sameFields (d c : Dev) (l : List Fld) : Bool := l.all (fun f => d.rd f = c.rd f)

/-! ### OUT domains -/

/-- Fields of the raster whose change makes Keeper train the link again (R247). -/
def linkRegs : List RegDef :=
  [Reg.OUT_PCLK_KHZ, Reg.OUT_IFACE, Reg.OUT_RATE, Reg.OUT_LANES, Reg.OUT_DSC_EN, Reg.OUT_SLICES, Reg.OUT_BLOCK_PRED, Reg.OUT_NATIVE, Reg.OUT_BPP16,
   Reg.OUT_SLICE_H]

/-- Fields of a signature region (R303). -/
def regionRegs : List RegDef :=
  [Reg.WL_EN, Reg.WL_WL_EN, Reg.WL_ACT_GUARD, Reg.WL_ACT_IND, Reg.WL_SRC, Reg.WL_GLAYER, Reg.WL_WL_FRAMES, Reg.WL_X, Reg.WL_Y, Reg.WL_W, Reg.WL_H]

/-- The generator starts, stops or changes its timing mode (R246, R255, R256, R259: a right half waits for line 0, and its own MODE is ignored); `was` is the device before the commit. -/
def Dev.modeEffect (d was : Dev) (o : Nat) : Dev :=
  let on := d.bit (Reg.OUT_ENABLE.at [o])
  let wasOn := was.bit (Reg.OUT_ENABLE.at [o])
  let lock := d.rd (Reg.OUT_MODE.at [o]) = 2
  let wasLock := was.rd (Reg.OUT_MODE.at [o]) = 2
  let d := if lock != wasLock && !(d.split && o = 1) then d.raise 0x0301 1 o else d
  if d.split && o = 1 then
    if on && !wasOn then d.onOut 1 (fun q => { q with waitHalf := true })
    else if !on && wasOn then d.stopGenerator 1
    else d
  else if on && !wasOn then
    if lock then (d.acquire o).onOut o (fun q => { q with waitLock := true }) else d.startGenerator o
  else if !on && wasOn then
    let d := ((d.stopGenerator o).setGl o glFree).set (Reg.OUT_FREQ_LOCK.at [o]) false
    if d.split then (d.set (Reg.OUT_RUNNING.at [1]) false).onOut 1 (fun q => { q with waitHalf := d.bit (Reg.OUT_ENABLE.at [1]) }) else d
  else if on && lock && !wasLock then d.acquire o
  else if on && !lock && wasLock then
    let d := if (d.out o).waitLock then d.startGenerator o else d
    d.runFree o
  else d

/-- The link is trained again (R247, R266). -/
def Dev.linkEffect (d was : Dev) (o : Nat) : Dev :=
  let b := d.rasterBase o
  let changed := !d.sameFields was (linkRegs.map (fun r => r.at [o])) || d.rd (Reg.OUT_PCLK_KHZ.at [b]) != was.rd (Reg.OUT_PCLK_KHZ.at [b])
  if d.bit (Reg.OUT_ENABLE.at [o]) && (changed || !was.bit (Reg.OUT_ENABLE.at [o])) then d.train o else d

/-- Self-refresh that is no longer allowed ends (R267). -/
def Dev.refreshEffect (d : Dev) (o : Nat) : Dev :=
  if d.bit (Reg.OUT_SR_ACTIVE.at [o]) && !d.bit (Reg.OUT_SR_EN.at [o]) then
    ((d.set (Reg.OUT_SR_ACTIVE.at [o]) false).onOut o (fun q => { q with same := 0, late := [] })).raise 0x0341 1 o
  else d

/-- Regions whose fields change lose COUNT and FROZEN (R303). -/
def Dev.regionEffect (d was : Dev) (o : Nat) : Dev :=
  upTo 16 (fun r d =>
    if d.sameFields was (regionRegs.map (fun f => f.at [o, r])) then d
    else (d.wr (Reg.WL_COUNT.at [o, r]) 0).set (Reg.WL_FROZEN.at [o, r]) false) d

/-- The flip that the fields of layer `j` describe (R289). -/
def Dev.flipOf (d : Dev) (j : Nat) : Flip :=
  let v (r : RegDef) : Nat := d.rd (r.at [j])
  { addr := v Reg.LAY_ADDR_LO + v Reg.LAY_ADDR_HI * 2 ^ 32
    pitch := v Reg.LAY_PITCH
    fenceAddr := v Reg.LAY_FENCE_ADDR_LO + v Reg.LAY_FENCE_ADDR_HI * 2 ^ 32
    fenceEn := d.bit (Reg.LAY_FENCE_EN.at [j])
    fenceVal := v Reg.LAY_FENCE_VAL_LO + v Reg.LAY_FENCE_VAL_HI * 2 ^ 32
    seq := v Reg.LAY_FLIP_SEQ }

/-- Pending flips are created, replaced or discarded (R289), and a layer that is no longer enhanced frees its line slots (R282). -/
def Dev.layerEffect (d was : Dev) (j : Nat) : Dev :=
  let kind := d.rd (Reg.LAY_KIND.at [j])
  let d := if kind = 2 then d else (d.withdraw (guardMaster j)).onLayer j (fun q => { q with slots := [], glines := [], guardFor := none })
  let d := d.withdraw (fenceMaster j)
  if kind = 0 then (d.onLayer j (fun q => { q with pend := none, fence := 0 })).set (Reg.LAY_PENDING.at [j]) false
  else if kind = 1 && d.rd (Reg.LAY_FLIP_SEQ.at [j]) != was.rd (Reg.LAY_FLIP_SEQ.at [j]) then
    let d := if (d.layer j).pend.isSome then d.inc (Reg.LAY_REPLACED.at [j]) else d
    let f := d.flipOf j
    ((d.onLayer j (fun q => { q with pend := some f, fence := 0 })).set (Reg.LAY_PENDING.at [j]) true).wr (Reg.LAY_PEND_SEQ.at [j]) f.seq
  else d

/-- What the commit of OUTo does beside its values; OUT0's pixel clock is that of both halves (R247, R258). -/
def Dev.outEffects (d was : Dev) (o : Nat) : Dev :=
  let d := (d.modeEffect was o).linkEffect was o
  let d := if o = 0 && d.split then d.linkEffect was 1 else d
  let d := (d.refreshEffect o).regionEffect was o
  let d := (upTo 8 (fun i d => d.layerEffect was (8 * o + i)) d).wearCheck o
  if o = 1 then
    let d := if d.rd (Reg.AUXP_MODE.at []) != was.rd (Reg.AUXP_MODE.at []) then d.raise 0x0301 1 2 else d
    d.auxpBoundary
  else d

/-! ### The PIPE domain -/

/-- RWS fields of a stream (R411). -/
def streamRegs : List RegDef :=
  [Reg.STR_SRC, Reg.STR_PORT, Reg.STR_FMT, Reg.STR_NBUF, Reg.STR_W, Reg.STR_H, Reg.STR_IFB_LO, Reg.STR_IFB_HI, Reg.STR_STRIDE, Reg.STR_PITCH0, Reg.STR_PITCH1]

/-- Every buffer of a stream is released and a copy or capture in progress is abandoned (R396). -/
def Dev.resetStream (d : Dev) (s : Nat) : Dev :=
  let d := d.wr (Reg.STR_WRITING.at [s]) 15
  let d := { d with streamLatch := d.streamLatch.filter (fun e => e.1 % 16 != s) }
  d.onStream s (fun q => { q with sending := [], held := [], runs := q.runs.map (fun r => (r.1, 255)), aborted := q.desc.isSome, capBuf := 15 })

/-- Fields of the receive bindings of a Beacon port that its announcements carry (R333). -/
def bindingFields (p : Nat) : List Fld :=
  (if p = 0 then [0, 1, 2] else [p]).flatMap (fun e => (List.range 16).flatMap (fun q => [Reg.BCNQ_RX_EN.at [e, q], Reg.BCNQ_STAGE_SLOTS.at [e, q], Reg.BCNQ_ALT_T.at [e, q]]))

/-- What the commit of PIPE does beside its values (R316, R333, R343, R350, R396, R407). -/
def Dev.pipeEffects (d was : Dev) : Dev :=
  let d := upTo 16 (fun s d => if d.sameFields was (streamRegs.map (fun r => r.at [s])) then d else d.resetStream s) d
  let d := upTo 4 (fun m d => if d.bit (Reg.IN_EN.at [m]) = was.bit (Reg.IN_EN.at [m]) then d else d.enablePort m) d
  let d := was.capChanged d
  let d := if d.sameFields was ((List.range 16).map (fun p => Reg.PWR_PHASE_OP.at [p])) then d else d.onPower (fun p => { p with due := true })
  let d := if d.bit (Reg.BCN_PAIR_EN.at []) = was.bit (Reg.BCN_PAIR_EN.at []) then d else d.pairRole
  let d := upTo 16 (fun q d => if (d.tx 0 q).relays.isEmpty then d else d.pumpRelays q (d.tx 0 q).relays) d
  d.upPorts.foldl (fun d p => if d.sameFields was (bindingFields p) then d else d.announce p) d

/-- The PIPE pairs of the last-good record, with the first image after reset (R243). -/
def Dev.recordedPairs (d : Dev) : Dev :=
  match d.boot.pairs with
  | none => d
  | some (dig, pairs) =>
    let d := { d with boot := { d.boot with pairs := none } }
    if dig != d.cut.digest then d.raise 0x0908 8 0
    else
      let was := d
      let d := pairs.foldl (fun d e =>
        (fieldsAt e.1).foldl (fun d r =>
          let f := r.1.at r.2
          let v := bits e.2 (r.1.lowBit r.2) r.1.width
          if r.1.acc = .rws && domainOf f.key = 2 && !inClusters e.1 then (if d.armed 2 then d.wr f v else d.wrB f v) else d) d) d
      let d := d.pipeEffects was
      { d with enhDue := d.enhDue || d.enhPeriod != was.enhPeriod }.set (Reg.TOP_LG_PIPE_RESTORED.at []) true

/-! ### Commits (R235, R238) -/

/-- The length of the blanking that starts at the next boundary is announced (R248, R253). -/
def Dev.announceBlank (d : Dev) (o : Nat) : Dev :=
  let n := d.blanking o
  let q := d.out o
  match q.jump with
  | none => d.onOut o (fun q => { q with announced := n })
  | some j =>
    if q.jumpSeen = 0 then d.onOut o (fun q => { q with announced := ((n : Int) + j.lines).toNat, jumpSeen := 1 })
    else
      let d := d.onOut o (fun q => { q with announced := n, jumpSeen := 2 })
      if q.jumpSeen = 1 then (d.inc (Reg.OUT_JUMPS.at [o])).raise (if j.long then 0x0311 else 0x0312) 1 o [j.lines.natAbs] else d

/-- Line slots whose tag names a frame before the coming one are freed (R282). -/
def Dev.freeStale (d : Dev) (o : Nat) : Dev :=
  let coming := d.comingFrame o
  (d.rasterLayers o).foldl (fun d j => d.onLayer j (fun q => { q with slots := q.slots.filter (fun e =>
    let back := (coming + 256 - (e.2 - 1) % 256) % 256
    decide (back = 0) || decide (128 ≤ back)) })) d

/-- What a boundary of the raster of output `o` does there after the commits: Lantern, tables of a new image, START, announcement, flips. -/
def Dev.rasterBoundary (d : Dev) (o : Nat) : Dev :=
  let d := (d.rasterOuts o).foldl (fun d p =>
    let d := (d.lanBoundary p).adoptTables p
    if (d.out p).startAsked then (d.set (Reg.CMP_STARTED.at [p]) true).onOut p (fun q => { q with startAsked := false }) else d) d
  if d.outRuns o then (d.announceBlank o |>.freeStale o).startFences o else d

/-- Generators that a commit has started: that start is the first boundary of their raster, with frame number 0 (R246). -/
def Dev.firstBoundaries (d was : Dev) : Dev :=
  upTo 2 (fun o d => if d.outRuns o && !was.outRuns o && d.rasterBase o = o then (d.rasterBoundary o).nextBuffer o 0 false else d) d

/-- Domains that a boundary of the raster of output `o` paces. -/
def Dev.pacedBy (d : Dev) (o : Nat) : List Nat :=
  if d.split then [0, 1, 2]
  else [o] ++ (if d.bit (Reg.OUT_ENABLE.at [1 - o]) then [] else [1 - o]) ++ (if d.pipePacer = some o then [2] else [])

/-- TOP_FRAME of a domain. -/
def frameFld (m : Nat) : Fld := if m = 0 then Reg.TOP_FRAME_OUT0.at [] else if m = 1 then Reg.TOP_FRAME_OUT1.at [] else Reg.TOP_FRAME_PIPE.at []

/-- Armed domains among `ms` are applied; a held PIPE commit waits (R238). A new last-good record is due, and an owner tells its twin (R241, R323). -/
def Dev.applyDomains (d : Dev) (ms : List Nat) (frame : Nat) : Dev :=
  let go := ms.filter (fun m => d.armed m && !(m = 2 && d.pipeHeld))
  if go.isEmpty then d
  else
    let was := d
    let d := go.foldl (fun d m => ((d.loadDomain m).setBit (Reg.TOP_ARMED.at []) m false).wr (frameFld m) frame) d
    let d := { d with lateTold := d.lateTold.filter (fun m => !go.contains m), enhDue := d.enhDue || d.enhPeriod != was.enhPeriod }
    let d := (go.foldl (fun d m => if m = 2 then d.pipeEffects was else d.outEffects was m) d).firstBoundaries was
    let d := if d.hasOwnerVals then d.onBeacon (fun b => { b with valsApplied := true }) else d
    let d := if d.role = roleOwner && d.partner 0 then d.tellOwner else d
    d.requestLastGood

/-! ### What paces PIPE -/

/-- At b0 the image in WAIT_BOUNDARY is cut over to; after a loss its plan is chosen again (R222, R233, R372). -/
def Dev.installNow (d : Dev) : Dev :=
  let c := d.inst
  let plan (i : Nat) : Plan := c.rep.plans.getD i d.plan
  if d.lostCores.isEmpty && d.lostBes.isEmpty then d.beginCutover { c with ks := d.lostIn (plan c.plan) }
  else
    match d.choosePlan c.rep.phases c.rep.plans ((d.readLe (c.addr + 0x0C) 4).testBit 0) with
    | .error _ => (d.refuseImage { code := 0x09 }).resolveLosses
    | .ok (i, degraded) => d.beginCutover { c with plan := i, degraded := degraded, ks := d.lostIn (plan i) }

/-- Outputs of a device that sends tokens, with port T as their reference, hold over (R328). -/
def Dev.holdSenders (d : Dev) : Dev :=
  upTo 2 (fun o d => if d.holdsOwn o && d.glState o != glFree then d.setGl o glHoldover else d) d

/-- Before the commits of a boundary that paces PIPE: b1 and b0 of a cut-over, losses, re-initialisations and banks. -/
def Dev.pipeStart (d : Dev) (frame : Nat) : Dev :=
  let d := if d.enhDue then { d with enhDue := false }.enhWindows else d
  let d := { d with pipeFrame := some frame, pipeCount := d.pipeCount + 1, lateTold := d.lateTold.filter (· != 3) }.scInvalidate.returnBes
  let d := if d.cut.kind != 0 && d.cut.step = 3 then d.recordedPairs.finishCutover else d
  let d := if d.imgState = imgWait && d.cut.kind = 0 then d.installNow else d.resolveLosses
  d.startReinits.syncBanks

/-- After them: operating points, seam epochs, the tokens of a new owner (R328, R337, R345). -/
def Dev.pipeEnd (d : Dev) : Dev :=
  let d := d.powerBoundary.epochBoundary
  let d := if d.role = roleOwner then d.onBeacon (fun b => { b with tokenOn := true }) else d
  d.holdSenders

/-- The part of a boundary that concerns commits. -/
def Dev.boundaryAt (d : Dev) (ms : List Nat) (frame : Nat) : Dev :=
  let pipe := ms.contains 2
  let d := if pipe then d.pipeStart frame else d
  let d := d.applyDomains ms frame
  if pipe then d.pipeEnd else d

/-! ### A frame boundary of an output -/

/-- What follows the number of a boundary of output `o`: commits, Lantern, tables of a new image, START, announcement, flips. -/
def Dev.boundaryTail (d : Dev) (o frame : Nat) : Dev :=
  (d.boundaryAt (d.pacedBy o) frame).rasterBoundary o

/-- The boundary that ends the active lines of a frame (R25). -/
def Dev.frameBoundary (d : Dev) (o : Nat) : Dev :=
  let frame := d.comingFrame o
  let d := d.endFrame o frame (d.time - (d.out o).at_)
  let d := (d.rasterOuts o).foldl (fun d p =>
    if d.outRuns p then ((d.wr (Reg.OUT_FRAME.at [p]) frame).wr (Reg.OUT_LINE.at [p]) (d.vactive o)).onOut p (fun q => { q with wraps := frame / 2 ^ 32 }) else d) d
  let d := d.onOut o (fun q => { q with
    inBlank := some 0, blank := q.announced, at_ := d.time, blankHt := d.rd (Reg.OUT_HTOTAL.at [o]), blankKhz := d.rd (Reg.OUT_PCLK_KHZ.at [o]),
    decFrame := max q.decFrame (frame + 1), decided := if q.decFrame < frame + 1 then 0 else q.decided })
  let d := d.boundaryTail o (frame % 2 ^ 32)
  let d := d.nextBuffer o frame true
  if d.outRuns o then d else d.onOut o (fun q => { q with wb := none })

/-- FRAME_BOUNDARY (R25): output `o` issues its next frame boundary, at the end of its last active line. In split mode the boundaries are OUT0's (R258). -/
def execFrameBoundary (o : Fin 2) (s : State) : Host.Outcome State Fault Refusal :=
  s.act (fun d =>
    if !d.outRuns o || (d.split && o = 1) || (d.out o).inBlank.isSome || d.rd (Reg.OUT_LINE.at [o.val]) + 1 != d.vactive o then d
    else d.frameBoundary o)

/-- Domains that the idle boundary paces (R235): all when no output is enabled, else that of a disabled output whose other output does not run. -/
def Dev.idleDomains (d : Dev) : List Nat :=
  if d.pipePacer.isNone then [0, 1, 2]
  else if d.split then []
  else (List.range 2).filter (fun o => !d.bit (Reg.OUT_ENABLE.at [o]) && !d.outRuns (1 - o))

/-- IDLE_BOUNDARY (R235): its number is one above that of the last boundary that paced PIPE. -/
def execIdleBoundary (s : State) : Host.Outcome State Fault Refusal :=
  s.act (fun d =>
    if d.idleDomains.isEmpty then d
    else
      d.boundaryAt d.idleDomains (match d.pipeFrame with
        | none => 0
        | some f => (f + 1) % 2 ^ 32))

/-! ### Reference edges (R246, R251 to R256, R328, R329) -/

/-- An edge that reaches the generator of an output, or the one it waits for to start (R246). -/
def Dev.edgeOn (d : Dev) (o phase periodNs : Nat) : Dev :=
  if (d.out o).waitLock && d.glState o = glAcquire && d.bit (Reg.OUT_FREQ_LOCK.at [o]) && d.periodFits o periodNs then
    (((d.startGenerator o).edgeAt o 0 periodNs).boundaryTail o 0).nextBuffer o 0 false
  else d.edgeAt o (d.phaseError o phase) periodNs

/-- REFERENCE_EDGE (R251 to R256, R328, R329): `phase` is the time from the edge to the generator's next boundary in 1/16 pixel, `periodNs` the measured period. -/
def execReferenceEdge (o : Fin 2) (phase : Nat) (periodNs : Nat) (s : State) : Host.Outcome State Fault Refusal :=
  s.act (fun d =>
    if !d.referenced o || d.holdsOwn o then d
    else match d.tokenPort o with
    | none => d.edgeOn o phase periodNs
    | some p => match d.takeEdge o p with
      | none => d
      | some d => d.edgeOn o phase periodNs)

end Sys2Proof.Machine
end

