-- ==== Sys2Proof/Machine/ReadBack.lean ====
section
/-! DEFINITION. What a host read of BAR0 answers (R8, R10, R31, R421), field by field, and the reads that have an effect (R65, R66, R194, R301, R444, R480). -/

namespace Sys2Proof.Machine

/-! ### Read-only fields that report state held elsewhere -/

/-- MC_DBG_DATA (R108). -/
def Dev.coreDebug (d : Dev) (c : Nat) : Nat :=
  let k := d.task c (d.rd (Reg.MC_DBG_TASK.at (cix c)))
  let i := d.rd (Reg.MC_DBG_INDEX.at (cix c))
  match d.rd (Reg.MC_DBG_SPACE.at (cix c)) with
  | 0 => (k.av i).toNat
  | 1 => (k.gv i).toNat
  | 2 => (Tab.get (0 : Word) k.s i).toNat
  | 3 => bits (k.pv i).toNat 0 32
  | 4 => bits (k.pv i).toNat 32 32
  | 5 => (k.lcv i).count
  | 6 => (k.lcv i).start + (k.lcv i).stop * 65536
  | _ => bits (Tab.get (0 : IWord) (d.core c).prog (i / 4)).toNat (32 * (i % 4)) 32

/-- SU_DBG_DATA (R194). -/
def Dev.unitDebug (d : Dev) (u : Nat) : Nat :=
  let q := d.su u
  let i := d.rd (Reg.SU_DBG_INDEX.at (six u))
  let x (j : Nat) : Ptr := Tab.get {} q.x j
  match d.rd (Reg.SU_DBG_SPACE.at (six u)) with
  | 0 => bits (x i).base 0 32
  | 1 => bits (x i).base 32 16
  | 2 => ofSigned 32 (Tab.get 0 (x (i / 4)).str (i % 4))
  | 3 => (Tab.get (0 : Word) q.n i).toNat
  | 4 => (Tab.get (⟨0, 0, 0⟩ : LoopReg) q.lc i).count
  | 5 => q.fw + q.fh * 65536
  | 6 => q.fpitch.toNat
  | _ => q.ppitch.toNat

/-- Core `c` is frozen, as FROZEN_CORE shows it. -/
def Dev.coreFrozen (d : Dev) (c : Nat) : Bool := d.mcState c = mcFrozen

/-- A unit is frozen or stopped (R383). -/
def Dev.anyFrozen (d : Dev) : Bool :=
  (List.range 72).any d.coreFrozen || (List.range 128).any (fun u => d.suState u = suFrozen) ||
  (List.range 4).any (fun e => (d.be e).stopped && !(d.be e).retired) || d.bit (Reg.TOP_FROZEN_BAR2.at [])

def Dev.anyParked (d : Dev) : Bool := d.rd (Reg.TOP_PARKED_LO.at []) != 0 || d.rd (Reg.TOP_PARKED_HI.at []) != 0

def Dev.spareInUse (d : Dev) : Bool := (List.range 8).any (fun n => d.rd (Reg.CL_SPARE_FOR.at [n]) != 15)

/-- Keeper has restored the retired set at this boot (R376, R421). -/
def Dev.healthRestored (d : Dev) : Bool :=
  [1, 2, 3].contains (d.rd (Reg.SEC_BOOT_STATE.at [])) || (d.rd (Reg.SEC_BOOT_STATE.at []) = 5 && d.rd (Reg.SEC_HALT_CODE.at []) = 2)

/-- The zone that ZSEL selects: output and zone. -/
def Dev.zoneSel (d : Dev) : Nat × Nat := (d.rd (Reg.WEAR_ZSEL_OUT.at []), d.rd (Reg.WEAR_ZSEL_ZONE.at []))

/-- RAMP_LIMIT of a core (R351): 16 where its array has issued nothing, else from 4 to 16 by cycles the model does not count (log 49). -/
def Dev.rampLimit (d : Dev) (c : Nat) : Nat :=
  if (d.core c).mac = 0 && (d.core c).acc.isEmpty then 16 else 4 + Config.rampStep c d.time % 13

def one (b : Bool) : Nat := if b then 1 else 0

/-- A field that the model cannot compute, `field` its number and `i` its index: its reset value 0 until the unit is up, then a free value (log 161). -/
def Dev.unseen (d : Dev) (up : Bool) (field i : Nat) : Nat := if up then Config.unseen field i d.time d.free else 0

/-- Value of a field that reports other state, with the index of its row. -/
def Dev.derived (d : Dev) (x : Derived) (idx : List Nat) : Nat :=
  let i0 := idx.getD 0 0
  let i1 := idx.getD 1 0
  let i2 := idx.getD 2 0
  let c := 9 * i0 + i1
  let u := 16 * i0 + i1
  match x with
  | .anyFrozen => one d.anyFrozen
  | .anyParked => one d.anyParked
  | .anyRetired => one (!d.retired.isEmpty)
  | .bcnPartner => one (d.beacon.present.contains i0)
  | .bcnShown => one d.shown
  | .capActive => one ((List.range d.phases.length).any (fun p => d.rd (Reg.PWR_PHASE_LIMIT.at [p]) < 16))
  | .clRetired => maskOf 9 (fun k => d.retired.contains (9 * i0 + k))
  | .degraded => one (d.planNo != 0)
  | .faultNAsserted => one (d.healthRestored && d.faultN)
  | .frozenBe => maskOf 4 (fun e => (d.be e).stopped && !(d.be e).retired)
  | .frozenCore0 => maskOf 32 d.coreFrozen
  | .frozenCore1 => maskOf 32 (fun k => d.coreFrozen (32 + k))
  | .frozenCore2 => maskOf 8 (fun k => d.coreFrozen (64 + k))
  | .frozenSu => maskOf 32 (fun k => d.suState (32 * i0 + k) = suFrozen)
  | .gpLevel => d.guardLevel i0
  | .lanApplyPending => one (!d.lantern.applyFor.isEmpty)
  | .lbCrit => one (d.lbCritical (8 * i0 + i1))
  | .lbLevel => d.lbLevel (8 * i0 + i1)
  | .mcCap => d.capLimit c
  | .mcRamp => d.rampLimit c
  | .mcLimit => min (d.capLimit c) (d.rampLimit c)
  | .mcCurveData => (Tab.get (0 : Word) (d.core c).curve (d.rd (Reg.MC_CURVE_ADDR.at (cix c)))).toNat
  | .mcDbg => d.coreDebug c
  | .mcMacLo => (d.core c).mac % 2 ^ 32
  | .mcReady => maskOf 8 (fun t => d.tstate c t = tReady)
  | .retiredBe => maskOf 4 (fun e => (d.be e).retired)
  | .spPgBusy => one ((List.range 48).any (fun b => Tab.get 0 (d.core c).pgWait b = 1))
  | .spCollide => d.unseen (d.mcState c != mcOff) 0 c
  | .spPortWait => d.unseen (d.mcState c != mcOff) 1 c
  | .ddrUtil => d.unseen (d.bitAt (Reg.DDR_CH_READY.at []) i0) 2 i0
  | .mcgWait => d.unseen (d.bit (Reg.CL_MCG_VALID.at [i0, i1])) 3 (7 * i0 + i1)
  | .hostBme => one d.host.cfg.bme
  | .hostL1 => d.unseen (d.bit (Reg.HST_UP.at []) && d.host.cfg.l1En) 5 0
  | .spareInUse => one d.spareInUse
  | .suBytesLo => (d.su u).bytes % 2 ^ 32
  | .suDbg => d.unitDebug u
  | .suLoops => maskOf 4 (fun j => (d.su u).nest.contains j)
  | .suPending => one (d.su u).shadow.isSome
  | .suProg => bits (Tab.get (0 : IWord) (d.su u).prog i2).toNat (32 * idx.getD 3 0) 32
  | .suTags => d.tagsHeld u
  | .suTokens => ((d.refill u).su u).bucket / 64000
  | .taskLoops => maskOf 4 (fun j => (d.task c i2).nest.contains j)
  | .taskPending => one (d.task c i2).pending.isSome
  | .tbLo => d.time % 2 ^ 32
  | .thmSensorFail => one (!d.power.badSensors.isEmpty)
  | .thmThrottling => one (d.rd (Reg.THM_LIMIT.at []) < 16)
  | .thmWarn => one (((4 * d.rd (Reg.THM_WARN_C.at []) : Nat) : Int) ≤ d.thmMax)
  | .topInstallPending => one (d.rd (Reg.TOP_IMG_STATE.at []) = 2 || d.rd (Reg.TOP_IMG_STATE.at []) = 3)
  | .topSplit => one d.split
  | .twinPresent => one (d.beacon.present.contains 0)
  | .wcArmQueued => one (d.wc i0 i1).queuedArm.isSome
  | .wcLeases => (d.wc i0 i1).leases.length
  | .wcReissue => (d.wc i0 i1).reissue.length
  | .zoneGain => Tab.get 4096 d.wear.gains ((d.zoneSel.1 * 2 + d.rd (Reg.WEAR_GAIN_COPY.at [d.zoneSel.1])) * 4096 + d.zoneSel.2)
  | .zoneLtLo => Tab.get 0 d.wear.ledger (zoneKey d.zoneSel.1 d.zoneSel.2) % 2 ^ 32
  | .zoneWearPm => shownPm (d.wearPm d.zoneSel.1 d.zoneSel.2)
  | .wearMaxPm => shownPm (d.wearTop i0).1
  | .wearMaxZone => (d.wearTop i0).2

/-! ### Reads (R8, R10, R31, R421) -/

/-- What a field reads as (R8): an RWS field reads as last written, a WO field as 0. OUT1's copy of SPLIT reads the live value (R274), and RECOV_BUF reads 0
outside RECOVERY (R432). -/
def Dev.readField (d : Dev) (r : RegDef) (idx : List Nat) : Nat :=
  let f := r.at idx
  match r.src with
  | .fixed => f.reset
  | .derived x => trunc f.width (d.derived x idx)
  | .stored =>
    if r.acc = .wo then 0
    else if f.key = (Reg.OUT_SPLIT.at [1]).key then one d.split
    else if r.base = Reg.SEC_RECOV_BUF.base && d.rd (Reg.SEC_BOOT_STATE.at []) != 4 then 0
    else d.rdS f

/-- TOP, KPR, SEC and HST are reached in every boot state (R421). -/
def earlyBlock (off : Nat) : Bool := off < 0x300000 || (0x400000 ≤ off && off < 0x800000)

/-- Before RUNNING, host accesses reach only those blocks (R421). -/
def Dev.hostReaches (d : Dev) (off : Nat) : Bool := earlyBlock off || d.hostOpen

/-- What a host read of a BAR0 offset answers, its effects apart. -/
def Dev.readWord (d : Dev) (off : Nat) : Nat :=
  if d.hostReaches off then (fieldsAt off).foldl (fun (n : Nat) r => n + d.readField r.1 r.2 * 2 ^ r.1.lowBit r.2) 0 else 0

/-! ### Reads with an effect -/

/-- The value a read answers is kept as the model's record of it. -/
def Dev.answer (d : Dev) (v : Nat) : Dev := { d with host := { d.host with lastRead := v } }

/-- TB_LO_READ (R480). -/
def execTbLoRead (s : State) : Host.Outcome State Fault Refusal :=
  s.act (fun d => (d.wr (Reg.TOP_TB_HI.at []) (d.time / 2 ^ 32)).answer (d.time % 2 ^ 32))

/-- MAC_LO_READ (R65, R66). -/
def execMacLoRead (c : Fin 72) (s : State) : Host.Outcome State Fault Refusal :=
  s.readHost (fun d => (d.wr (Reg.MC_MAC_HI.at (cix c)) ((d.core c).mac / 2 ^ 32)).answer ((d.core c).mac % 2 ^ 32))

/-- BYTES_LO_READ (R194). -/
def execBytesLoRead (u : Fin 128) (s : State) : Host.Outcome State Fault Refusal :=
  s.readHost (fun d => (d.wr (Reg.SU_BYTES_HI.at (six u)) ((d.su u).bytes / 2 ^ 32)).answer ((d.su u).bytes % 2 ^ 32))

/-- CURVE_DATA_READ (R64, R65): CURVE_ADDR moves on by 1 and wraps after 1,023. An entry with a single-bit error is corrected; one with a double-bit error faults ECC_DED at the
core's present task, and the read answers a free value (log 145). -/
def execCurveDataRead (c : Fin 72) (s : State) : Host.Outcome State Fault Refusal :=
  s.readHost (fun d =>
    let a := d.rd (Reg.MC_CURVE_ADDR.at (cix c))
    let v := d.derived .mcCurveData (cix c)
    let m := Tab.get 0 (d.core c).ecc (0x20000 + a)
    let d := d.inc (Reg.MC_CURVE_ADDR.at (cix c))
    if m = 2 then
      let t := d.rd (Reg.MC_TASK.at (cix c))
      ((d.padOk.freezeDed c t (d.rd (Reg.TASK_PC.at (cix c [t])))).answer (d.freeVal 32)).useFree
    else
      let d := if m = 1 then d.set (Reg.MC_ECC_CORR.at (cix c)) true else d
      d.answer v)

/-- SIG_READ (R301, R310). -/
def execSigRead (o : Fin 2) (r : Fin 16) (s : State) : Host.Outcome State Fault Refusal :=
  s.readHost (fun d =>
    let q := d.out o
    let d := (d.wr (Reg.WL_SIG_FRAME.at [o.val, r.val]) (Tab.get 0 q.sigFrame r)).onOut o (fun q =>
      { q with sigHeld := r.val :: q.sigHeld.filter (fun i => i != r.val) })
    d.answer (d.rd (Reg.WL_SIG.at [o.val, r.val])))

/-- ZONE_LT_LO_READ (R444). -/
def execZoneLtLoRead (s : State) : Host.Outcome State Fault Refusal :=
  s.readHost (fun d =>
    let e := Tab.get 0 d.wear.ledger (zoneKey d.zoneSel.1 d.zoneSel.2)
    (d.wr (Reg.WEAR_ZONE_LT_HI.at []) (e / 2 ^ 32)).answer (e % 2 ^ 32))

end Sys2Proof.Machine
end

