-- ==== Sys2Proof/Machine/Repair.lean ====
section
/-! DEFINITION. Mapping out of failing memory rows (R161 to R163, R192, R379 to R381). -/

namespace Sys2Proof.Machine

/-- Operating hours (R163). -/
def Dev.hours (d : Dev) : Nat := (d.hoursBase + d.time / 1000000000) / 3600

/-- The criterion of R379 for a row. -/
def CorrRow.due (r : CorrRow) : Bool := r.ue || (if r.cls = 3 then 16 else 4) ≤ r.count

/-- Bits of LOCATION below the spare number, of a class. -/
def spareBit (cls : Nat) : Nat := if cls = 0 then 20 else if cls = 1 then 17 else 15

/-- Bits of LOCATION that name the bank a row's spares belong to. -/
def bankOfLoc (cls loc : Nat) : Nat := if cls = 0 then bits loc 0 13 else if cls = 1 then bits loc 0 7 else bits loc 0 4

/-- A spare of the row's bank that no entry of the repair table uses. -/
def Dev.freeSpare (d : Dev) (cls loc : Nat) : Option Nat :=
  (List.range 4).find? (fun i => !d.repair.any (fun e => e.cls = cls && bankOfLoc cls e.loc = bankOfLoc cls loc && bits e.loc (spareBit cls) 2 = i))

/-- Adds an entry of field origin. -/
def Dev.addRepair (d : Dev) (cls loc : Nat) : Dev := { d with repair := d.repair ++ [⟨cls, true, loc, d.hours⟩], healthDirty := true }

/-- Copies a row of SECDED words: single-bit errors are corrected, a word with a double-bit error becomes zero (R161). -/
def Dev.copyRow (d : Dev) (base : Nat) : Dev :=
  if d.ecc.isEmpty then d
  else upTo 64 (fun i d =>
    let w := base / 8 + i
    match Tab.get 0 d.ecc w with
    | 0 => d
    | m =>
      let d := if m = 2 then d.setBytes (w * 8) (List.replicate 8 0) else d
      { d with ecc := Tab.put 0 d.ecc w 0 }) d

/-- The marks of logical row `row` of a bank stay with the physical row that held it, and those of spare `i` end: the copy writes valid check bits (R161). -/
def Dev.leaveRow (d : Dev) (c b row i : Nat) : Dev :=
  let old := d.physRow c b row
  upTo 64 (fun w (d : Dev) =>
    let m := Tab.get 0 d.ecc ((spAddr c (b * 65536 + row * 512)) / 8 + w)
    d.onCore c (fun k => { k with ecc := Tab.put 0 (Tab.put 0 k.ecc (rowKey b (128 + i) + w) 0) (rowKey b old + w) m })) d

/-- What happens to a row no spare can take (R162, R381). -/
def Dev.sparesOut (d : Dev) (cls loc : Nat) : Dev :=
  match cls with
  | 0 => (d.raise 0x0722 8 0 [loc, cls]).retireCore (bits loc 0 7)
  | 1 => d.raise 0x0726 8 0 [loc, cls]
  | _ => d.raise 0x0728 8 0 [loc, cls]

/-- A row is mapped out to spare `i` of its bank (R161, R379). -/
def Dev.mapRow (d : Dev) (cls loc i : Nat) : Dev :=
  let full := loc + i * 2 ^ spareBit cls
  let d := match cls with
    | 0 =>
      let c := bits loc 0 7
      let b := bits loc 7 6
      let row := bits loc 13 7
      let d := (d.leaveRow c b row i).copyRow (spAddr c (b * 65536 + row * 512))
      let d := upTo 4 (fun k (d : Dev) =>
        if d.bit (Reg.SP_REMAP_VALID.at (cix c [b, k])) && d.rd (Reg.SP_REMAP_ROW.at (cix c [b, k])) = row then
          d.set (Reg.SP_REMAP_VALID.at (cix c [b, k])) false
        else d) d
      (d.set (Reg.SP_REMAP_VALID.at (cix c [b, i])) true).wr (Reg.SP_REMAP_ROW.at (cix c [b, i])) row
    | 1 =>
      let n := bits loc 0 3
      let way := bits loc 3 4
      [0, 1].foldl (fun (d : Dev) (k : Nat) =>
        { d with cache := Tab.modify [] d.cache (n * 2048 + 2 * bits loc 7 10 + k) (fun l => l.filter (fun q => q.way != way)) }) d
    | _ => d.copyRow (lanternBase + bits loc 0 4 * 0x100000 + bits loc 4 11 * 512)
  (d.addRepair cls full).raise (if cls = 0 then 0x0721 else if cls = 1 then 0x0725 else 0x0727) 8 0 [full, cls]

/-- Neither output scans an active line: the time at which rows of the Lantern store are copied (R379). -/
def Dev.bothBlank (d : Dev) : Bool :=
  (List.range 2).all (fun o => !d.bit (Reg.OUT_RUNNING.at [o]) || (d.out (if d.split then 0 else o)).inBlank.isSome)

/-- ROW_MAP_OUT (R161 to R163, R192, R379 to R381): Keeper maps out a row that has met its criterion, or marks an LPDDR6 row for repair. `location`
is the row's LOCATION without the spare. -/
def execRowMapOut (cls : Fin 4) (location : BitVec 27) (s : State) : Host.Outcome State Fault Refusal :=
  s.act (fun d =>
    let loc := if cls = 3 then bits location.toNat 0 26 else bits location.toNat 0 (spareBit cls)
    match d.corrRows.find? (fun r => r.cls = cls.val && r.loc = loc) with
    | none => d
    | some r =>
      if !r.due || d.time ≥ r.first + 86400000000000 || (cls = 2 && !d.bothBlank) then d
      else
        let d := { d with corrRows := d.corrRows.filter (fun q => !(q.cls = cls.val && q.loc = loc)) }
        if 65536 ≤ d.repair.length then
          let d := d.raise 0x0740 8 0
          if cls = 3 then d else d.sparesOut cls loc
        else if cls = 3 then
          if d.repair.any (fun e => e.cls = 3 && bits e.loc 0 26 = loc && bits e.loc 26 1 = 0) then d
          else (d.addRepair 3 loc).raise 0x0732 8 0 [loc, 3]
        else
          match d.freeSpare cls loc with
          | some i => d.mapRow cls loc i
          | none => d.sparesOut cls loc)

end Sys2Proof.Machine
end

