-- ==== Sys2Proof/Machine/Mailbox.lean ====
section
/-! DEFINITION. The Keeper mailbox (R384, R385, R425, R426): a command makes STATE BUSY, and its answer stands ready until MAILBOX_COMPLETE (log 50). -/

namespace Sys2Proof.Machine

/-- KPR ERR codes (R384, R425, R426). -/
def errOpcode : Nat := 1
def errArgument : Nat := 2
def errFlash : Nat := 3
def errRefused : Nat := 4
def errIdentity : Nat := 5

def kprBusy : Nat := 1

/-- A command is written to KPR_CMD (R384): ignored with BUSY_WRITE while one is being carried out. -/
def Dev.mailStart (d : Dev) (tag : Nat) (m : Dev → Mail × Dev) : Dev :=
  if d.rd (Reg.KPR_STATE.at []) = kprBusy then d.set (Reg.KPR_BUSY_WRITE.at []) true
  else
    let r := m d
    ({ r.2 with mail := r.1 }.wr (Reg.KPR_STATE.at []) kprBusy).wr (Reg.KPR_TAG.at []) tag

def Dev.arg (d : Dev) (i : Nat) : Nat := d.rd ([Reg.KPR_ARG0, Reg.KPR_ARG1, Reg.KPR_ARG2].getD i Reg.KPR_ARG0 |>.at [])

/-- A command that answers `resp` when its arguments are in range. -/
def answerIf (ok : Bool) (resp : Bytes) : Mail := if ok then { resp := resp } else { err := errArgument }

/-- An opcode that no command has (R384). -/
def Dev.mailUnknown (d : Dev) (tag : Nat) : Dev := d.mailStart tag (fun d => ({ err := errOpcode }, d))

/-! ### R385 -/

/-- Entries of the repair table (R163). -/
def repairSize : Nat := 65536

/-- The 8 bytes of a repair table entry (R163); an entry not in use is zero. -/
def RepairEntry.toBytes (e : RepairEntry) : Bytes :=
  leBytes 4 (1 + e.cls * 2 + (if e.field then 16 else 0) + e.loc * 32) ++ leBytes 4 e.stamp

/-- REPAIR_COUNT. -/
def execRepairCount (tag : BitVec 16) (s : State) : Host.Outcome State Fault Refusal :=
  s.act (fun d => d.mailStart tag.toNat (fun d =>
    ({ resp := leBytes 4 d.repair.length ++ leBytes 4 (repairSize - d.repair.length) }, d)))

/-- REPAIR_READ. -/
def execRepairRead (tag : BitVec 16) (s : State) : Host.Outcome State Fault Refusal :=
  s.act (fun d => d.mailStart tag.toNat (fun d =>
    let n := d.arg 1
    let entry (i : Nat) : Bytes := (d.repair[i]?.map RepairEntry.toBytes).getD (leBytes 8 0)
    (answerIf (1 ≤ n && n ≤ 256 && d.arg 0 + n ≤ repairSize) ((List.range (min n 256)).flatMap (fun i => entry (d.arg 0 + i))), d)))

/-- LOG_READ: the records among `count` SEQ numbers from the first on; one no longer held is skipped. `flashOk`: whether the flash log can be read (R384). -/
def execLogRead (tag : BitVec 16) (flashOk : Bool) (s : State) : Host.Outcome State Fault Refusal :=
  s.act (fun d => d.mailStart tag.toNat (fun d =>
    let n := d.arg 1
    let log := if d.arg 2 = 0 then d.events.ram else d.flash.log
    let found := (List.range (min n 64)).filterMap (fun i => log.find? (fun r => r.seq = (d.arg 0 + i) % 2 ^ 32))
    let ok := 1 ≤ n && n ≤ 64 && d.arg 2 ≤ 1
    (if ok && d.arg 2 = 1 && !flashOk then { err := errFlash } else answerIf ok (found.flatMap EventRec.toBytes), d)))

/-- HEALTH_READ. -/
def execHealthRead (tag : BitVec 16) (s : State) : Host.Outcome State Fault Refusal :=
  s.act (fun d => d.mailStart tag.toNat (fun d =>
    ({ resp := leBytes 12 (maskOf 72 d.retired.contains) ++ leBytes 4 (maskOf 4 (fun e => d.retired.contains (0x180 + e))) ++
        (List.range 8).flatMap (fun n => leBytes 1 (d.rd (Reg.CL_SPARE_FOR.at [n]))) ++ leBytes 4 d.planNo }, d)))

/-- SLACK_READ (R222): the slack its declared times give at the issue limit of its phase, and the measured one; a pipeline outside the plan in force has no slack the manual states, and both values are free. -/
def execSlackRead (tag : BitVec 16) (s : State) : Host.Outcome State Fault Refusal :=
  s.act (fun d => d.mailStart tag.toNat (fun d =>
    let n := d.arg 1
    let one64 (i : Nat) : Bytes :=
      let p := d.arg 0 + i
      match d.plan.pipes.find? (fun r => r.pipe = p && timedPipe r) with
      | some r => leBytes 8 (ofSigned 64 (d.pipeSlack d.plan r (d.pipeLimit p) d.planClock)) ++ leBytes 8 (ofSigned 64 (Tab.get 0 d.slack p))
      | none => leBytes 8 (Config.freeBits (d.free + 2 * i)) ++ leBytes 8 (Config.freeBits (d.free + 2 * i + 1))
    (answerIf (1 ≤ n && n ≤ 64 && d.arg 0 + n ≤ 64) ((List.range (min n 64)).flatMap one64), d.useFree 128)))

/-! ### R425 -/

def slice (bs : Bytes) (off n : Nat) : Bytes := (bs.drop off).take n

/-- OWNER_SEQ: that of the owner record; an unowned device has 0 (R423). -/
def Dev.ownerSeq (d : Dev) : Nat := (d.flash.owner.map OwnerRec.seq).getD 0

def refusedMail : Mail := { err := errRefused, event := some 0x0811 }

/-- An OWNER_SET request is in order: magic, sequence, and signatures under the current operator keys while owned. -/
def Dev.ownerSetOk (d : Dev) (r : Bytes) : Bool :=
  let msg := slice r 0 0x1C0
  leNat (slice r 0 4) = 0x4F574E52 && leNat (slice r 4 4) = (d.ownerSeq + 1) % 2 ^ 32 &&
  match d.flash.owner with
  | none => true
  | some o => Config.rsaVerify o.rsa msg (slice r 0x1C0 384) && Config.slhVerify o.slh msg (slice r 0x340 slhSigLen)

/-- The owner record that an OWNER_SET request writes. -/
def Dev.ownerFrom (d : Dev) (r : Bytes) : OwnerRec :=
  let policy := leNat (slice r 8 4)
  { rsa := slice r 0x10 384, slh := slice r 0x190 48, seq := leNat (slice r 4 4), opsig := policy.testBit 0, store := policy.testBit 1,
    lkey := if policy.testBit 2 then none else d.lanternKey }

/-- OWNER_SET: `request` holds the bytes read from the host window at ARG1:ARG0. -/
def execOwnerSet (tag : BitVec 16) (request : Bytes) (s : State) : Host.Outcome State Fault Refusal :=
  s.actIf (Instr.wf (.ownerSet tag request)) (fun d => d.mailStart tag.toNat (fun d =>
    (if d.ownerSetOk request then { owner := some (d.ownerFrom request), event := some 0x0810 } else refusedMail, d)))

/-- LKEY_SET. An unowned device has no owner record to hold the key, and keeps it until its next reset (log 51). -/
def execLkeySet (tag : BitVec 16) (request : Bytes) (s : State) : Host.Outcome State Fault Refusal :=
  s.actIf (Instr.wf (.lkeySet tag request)) (fun d => d.mailStart tag.toNat (fun d =>
    let key := slice request 0 48
    let good := match d.lanternKey with
      | none => true
      | some k => slice request 48 48 = Config.hmacSha384 k (key ++ leBytes 4 (d.rd (Reg.LAN_OPEN_COUNT.at [])))
    (if !good then refusedMail
     else match d.flash.owner with
       | some o => { owner := some { o with lkey := some key }, event := some 0x0813, closeWin := true }
       | none => { lkey := some key, event := some 0x0813, closeWin := true }, d)))

/-- CERT_READ. -/
def execCertRead (tag : BitVec 16) (s : State) : Host.Outcome State Fault Refusal :=
  s.act (fun d => d.mailStart tag.toNat (fun d =>
    let c := Config.certificate (d.arg 0)
    (if Config.identityBad then { err := errIdentity }
     else answerIf (d.arg 0 ≤ 3 && d.arg 1 ≤ c.length) (leBytes 4 c.length ++ slice c (d.arg 1) 2044), d)))

/-! ### R426 -/

/-- Bytes 0x0000 to 0x00DF of the attestation report. Before a package runs its BODY_DIGEST is a free value (log 187). -/
def Dev.attestBody (d : Dev) (nonce : Bytes) : Bytes :=
  let digest := (slice d.boot.running 0x20 48 ++ (List.range 48).map (fun i => BitVec.ofNat 8 (Config.freeBits (d.free + i)))).take 48
  let keys := match d.flash.owner with
    | none => List.replicate 48 0
    | some o => Config.sha384 (o.rsa ++ o.slh)
  leBytes 4 0x41545354 ++ leBytes 2 1 ++ leBytes 2 0 ++ nonce ++
  leBytes 4 (d.rd (Reg.SEC_SERIAL_LO.at [])) ++ leBytes 4 (d.rd (Reg.SEC_SERIAL_HI.at [])) ++ leBytes 8 d.time ++
  leBytes 4 (d.rd (Reg.SEC_FW_VERSION.at [])) ++ leBytes 2 (d.rd (Reg.SEC_FW_SVN.at [])) ++ leBytes 2 (d.rd (Reg.SEC_FUSED_SVN.at [])) ++
  digest ++ (List.range 12).flatMap (fun i => leBytes 4 (d.rd (Reg.TOP_IMG_DIGEST.at [i]))) ++ keys ++
  leBytes 4 (d.rd (Reg.SEC_OPSIG_REQ.at []) + 2 * d.rd (Reg.SEC_TRYING.at []) + 4 * d.rd (Reg.SEC_FELL_BACK.at []) +
    8 * d.rd (Reg.TOP_IMG_DEGRADED.at []) + 16 * d.planNo) ++ leBytes 12 0

/-- ATTEST: `nonce` is the request; the report goes to the request address + 64. -/
def execAttest (tag : BitVec 16) (nonce : Bytes) (s : State) : Host.Outcome State Fault Refusal :=
  s.actIf (Instr.wf (.attest tag nonce)) (fun d => d.mailStart tag.toNat (fun d =>
    let b := d.attestBody nonce
    (if Config.identityBad then { err := errIdentity }
     else { hostOut := [(d.arg 0 + d.arg 1 * 2 ^ 32 + 64, b ++ (Config.identityRsa b).toList ++ (Config.identitySlh b).toList)] }, d.useFree 48)))

/-! ### Completion -/

/-- A slot or copy that fails erase or read-back enters the bad-slot list (R417). -/
def Dev.slotBad (d : Dev) (slot : Nat) : Dev :=
  let bad := d.boot.bad ++ [slot]
  ({ d with boot := { d.boot with bad := bad }, healthDirty := true }.wr (Reg.SEC_LG_SLOTS_BAD.at []) (bad.filter (· < 64)).length).raise 0x0750 8 0

/-- Copy `k` of the owner record is rewritten, or proves bad; a bad copy is skipped (R417). -/
def Dev.writeOwnerCopy (d : Dev) (k : Nat) (o : OwnerRec) (ok : Bool) : Dev :=
  if d.boot.bad.contains (66 + k) then d
  else if ok then { d with flash := { d.flash with owners := Tab.put none d.flash.owners k (some o) } }
  else { d with flash := { d.flash with owners := Tab.put none d.flash.owners k none } }.slotBad (66 + k)

/-- Both copies of the owner record are rewritten, one after the other: first the one after that with the highest OWNER_SEQ (R417, R425). `ok0` and `ok1` say whether copy 0 and copy 1 erase and
read back. -/
def Dev.writeOwner (d : Dev) (o : OwnerRec) (ok0 ok1 : Bool) : Dev :=
  let k := nextCopy OwnerRec.seq d.flash.owners
  let ok (k : Nat) : Bool := if k = 0 then ok0 else ok1
  (d.writeOwnerCopy k o (ok k)).writeOwnerCopy (1 - k) o (ok (1 - k))

/-- The owner record and the Lantern key as the SEC registers show them (R423). -/
def Dev.showOwner (d : Dev) : Dev :=
  let o := d.flash.owner
  let d := (d.set (Reg.SEC_OWNED.at []) o.isSome).set (Reg.SEC_LKEY_SET.at []) d.lanternKey.isSome
  let d := (d.set (Reg.SEC_OPSIG_REQ.at []) ((o.map OwnerRec.opsig).getD false)).set (Reg.SEC_STORE_IMG.at []) ((o.map OwnerRec.store).getD false)
  d.wr (Reg.SEC_OWNER_SEQ.at []) d.ownerSeq

/-- The effects of a command besides its response. -/
def Dev.mailEffects (d : Dev) (m : Mail) (ok0 ok1 : Bool) : Dev :=
  let d := match m.owner with
    | none => d
    | some o => ({ d with boot := { d.boot with lkey := none } }.writeOwner o ok0 ok1).showOwner
  let d := match m.lkey with
    | none => d
    | some k => { d with boot := { d.boot with lkey := some k } }.showOwner
  let d := if m.closeWin && d.lanState = lanOpen then d.closeWindow else d
  let d := m.hostOut.foldl (fun d w => d.hostWrite w.1 w.2) d
  match m.event with
  | none => d
  | some e => d.raise e 8 0

/-- MAILBOX_COMPLETE (R385, R417, R425): the response stands in RESP, and STATE becomes DONE or ERROR. `ok0` and `ok1` say whether the copies of the owner record erase and read back where
the command rewrites them. -/
def execMailboxComplete (ok0 ok1 : Bool) (s : State) : Host.Outcome State Fault Refusal :=
  s.act (fun d =>
    if d.rd (Reg.KPR_STATE.at []) != kprBusy then d
    else
      let m := d.mail
      let d := { d with mail := {} }.mailEffects m ok0 ok1
      let d := upTo ((m.resp.length + 3) / 4) (fun i d => d.wr (Reg.KPR_RESP.at [i]) (leNat (slice m.resp (4 * i) 4))) d
      let d := ((d.wr (Reg.KPR_RLEN.at []) m.resp.length).wr (Reg.KPR_ERR.at []) m.err).wr (Reg.KPR_STATE.at []) (if m.err = 0 then 2 else 3)
      d.signal 22)

end Sys2Proof.Machine
end

