-- ==== Sys2Proof/Machine/Records.lean ====
section
/-! DEFINITION. The layout of a last-good record and of the wear ledger in it, and the newest valid record of the flash (R242, R243, R441, R442). -/

namespace Sys2Proof.Machine

/-- Bytes of the wear ledger (R441). -/
def ledgerLen : Nat := 40992

def ledgerMagic : Nat := 0x57454C47

def zeroBytes (n : Nat) : Bytes := List.replicate n 0

/-! ### Encoding -/

/-- A tile record (R441). -/
def TileRec.bytes (t : TileRec) : Bytes :=
  leBytes 8 t.serial ++ leBytes 4 t.l50 ++ leBytes 4 t.geom ++ leBytes 1 t.addr ++ leBytes 1 t.state ++ zeroBytes 14

/-- The LEDGER field: zone entries and tile records are in order of output, then zone or tile. -/
def GoodRec.ledgerBytes (r : GoodRec) : Bytes :=
  leBytes 4 ledgerMagic ++ leBytes 2 1 ++ zeroBytes 2 ++ r.panels.flatMap (leBytes 4) ++ zeroBytes 16 ++
  (List.range (2 * zoneCount)).flatMap (fun z => leBytes 8 (Tab.get 0 r.ledger z % 2 ^ 48)) ++
  r.tiles.flatMap TileRec.bytes

/-- A record without its CRC (R242). -/
def GoodRec.body (r : GoodRec) : Bytes :=
  let ledger := if r.hasLedger then r.ledgerBytes else []
  leBytes 4 0x4C475244 ++ leBytes 2 1 ++ leBytes 2 r.pairs.length ++ leBytes 8 r.seq ++ leBytes 8 r.hours ++ r.digest ++
  leBytes 1 r.plan ++ r.modes.flatMap (leBytes 1) ++ leBytes 4 ledger.length ++ zeroBytes 16 ++
  r.pairs.flatMap (fun e => leBytes 4 e.1 ++ leBytes 4 e.2) ++ ledger

/-- The bytes of a record. -/
def GoodRec.bytes (r : GoodRec) : Bytes := r.body ++ leBytes 4 (crc32 r.body).toNat

/-! ### Decoding -/

/-- The tile record at an offset. -/
def tileAt (b : Bytes) (off : Nat) : TileRec :=
  { serial := leAt b off 8, l50 := leAt b (off + 8) 4, geom := leAt b (off + 12) 4, addr := leAt b (off + 16) 1, state := leAt b (off + 17) 1 }

/-- Zone entries of a LEDGER field that differ from zero. -/
def zonesOf (b : Bytes) : Tab Nat :=
  (List.range (2 * zoneCount)).foldl (fun t z => Tab.put 0 t z (leAt b (0x20 + 8 * z) 6)) []

/-- The record that a slot holds: none where MAGIC, VERSION, REG_COUNT, the length or the CRC is wrong (R242). -/
def goodOf (b : Bytes) : Option GoodRec :=
  let n := leAt b 0x06 2
  let len := leAt b 0x4C 4
  let stop := 0x60 + 8 * n + len
  if leAt b 0 4 = 0x4C475244 && leAt b 4 2 = 1 && n ≤ 4096 && stop + 4 ≤ b.length && (crc32 (b.take stop)).toNat = leAt b stop 4 then
    let w := (b.drop (0x60 + 8 * n)).take len
    let ok := len = ledgerLen && leAt w 0 4 = ledgerMagic
    some {
      seq := leAt b 0x08 8, hours := leAt b 0x10 8, digest := (b.drop 0x18).take 48, plan := leAt b 0x48 1
      modes := (List.range 3).map (fun i => leAt b (0x49 + i) 1)
      pairs := (List.range n).map (fun i => (leAt b (0x60 + 8 * i) 4, leAt b (0x64 + 8 * i) 4))
      ledger := if ok then zonesOf w else []
      panels := if ok then [leAt w 8 4, leAt w 12 4] else []
      tiles := if ok then (List.range 128).map (fun t => tileAt w (0x9020 + 32 * t)) else []
      hasLedger := ok }
  else none

/-- The valid record with the highest SEQ, with its slot (R243, R417). -/
def Flash.newestIn (f : Flash) : Option (Nat × GoodRec) :=
  f.records.foldl (fun best e => match goodOf e.2, best with
    | some r, some x => if x.2.seq < r.seq then some (e.1, r) else some x
    | some r, none => some (e.1, r)
    | none, b => b) none

/-- The valid record with the highest SEQ (R243). -/
def Flash.newest (f : Flash) : Option GoodRec := f.newestIn.map Prod.snd

/-- The copy of the health region with the highest SEQ, with its number; a part that has written none has nothing mapped out (R417; log 18). -/
def Flash.healthIn (f : Flash) : Option (Nat × HealthRec) := newestCopy HealthRec.seq f.health

def Flash.health? (f : Flash) : HealthRec := (f.healthIn.map Prod.snd).getD {}

end Sys2Proof.Machine
end

