-- ==== Sys2Proof/Machine/Persist.lean ====
section
/-! DEFINITION. What Keeper writes to flash: last-good records, the health region and the event log (R241, R242, R366, R417, R428, R441). -/

namespace Sys2Proof.Machine

/-! ### Last-good records (R241, R242, R441) -/

/-- Register pairs of a record: the live value of every host-writable RWS register, and the background colours (R242). -/
def Dev.recordPairs (d : Dev) : List (Nat × Nat) := d.regPairs (Reg.CMP_BGCOLOUR :: hostRws)

/-- The records of the 128 tiles (R441). -/
def Dev.tileRecords (d : Dev) : List TileRec :=
  (List.range 128).map (fun i =>
    let v (r : RegDef) : Nat := d.rd (r.at [i / 64, i % 64])
    { serial := v Reg.WEAR_TILE_SERIAL_LO + v Reg.WEAR_TILE_SERIAL_HI * 2 ^ 32
      l50 := v Reg.WEAR_TILE_L50_HOURS
      geom := v Reg.WEAR_TILE_ZX0 + v Reg.WEAR_TILE_ZY0 * 2 ^ 8 + v Reg.WEAR_TILE_ZW * 2 ^ 16 + v Reg.WEAR_TILE_ZH * 2 ^ 24
      addr := v Reg.WEAR_TILE_ADDR
      state := v Reg.WEAR_TILE_STATE })

/-- The record of the state in force, with the next SEQ. -/
def Dev.goodRecord (d : Dev) : GoodRec :=
  { seq := (match d.flash.newest with
      | none => 1
      | some r => r.seq + 1)
    hours := d.hoursBase + d.time / 1000000000
    digest := (List.range 12).flatMap (fun i => leBytes 4 (d.rd (Reg.TOP_IMG_DIGEST.at [i])))
    plan := d.planNo
    modes := [d.rd (Reg.OUT_MODE.at [0]), d.rd (Reg.OUT_MODE.at [1]), d.rd (Reg.AUXP_MODE.at [])]
    pairs := d.recordPairs
    ledger := d.wear.ledger
    panels := (List.range 2).map (fun o => d.rd (Reg.WEAR_PANEL_ID.at [o]))
    tiles := d.tileRecords }

/-- The slot after the one that holds the newest record; 0 where there is none (R417). -/
def Flash.nextSlot (f : Flash) : Nat := (f.newestIn.map (fun x => (x.1 + 1) % 64)).getD 0

/-- The slot to write, bad slots skipped (R417). -/
def Dev.goodSlot (d : Dev) : Option Nat :=
  ((List.range 64).map (fun i => (d.flash.nextSlot + i) % 64)).find? (fun s => !d.boot.bad.contains s)

/-- The record is written, or its slot proves bad. -/
def Dev.writeGood (d : Dev) (ok : Bool) : Dev :=
  match d.goodSlot with
  | none => d.raise 0x090A 8 0
  | some slot =>
    if ok then
      let r := d.goodRecord
      let d := { d with flash := { d.flash with records := Tab.put [] d.flash.records slot r.bytes } }
      ((d.wr (Reg.TOP_LG_SEQ_LO.at []) r.seq).wr (Reg.TOP_LG_SEQ_HI.at []) (r.seq / 2 ^ 32)).set (Reg.TOP_LG_WRITE_PENDING.at []) false
    else ({ d with flash := { d.flash with records := Tab.erase d.flash.records slot } }.slotBad slot).raise 0x090A 8 0

/-- Keeper is staging a package: flash operations go one at a time (R428). -/
def Dev.staging (d : Dev) : Bool := d.rd (Reg.SEC_FW_STATE.at []) = 1 || d.rd (Reg.SEC_FW_STATE.at []) = 2

/-- LAST_GOOD_WRITE (R241, R417): a 10 s point; `flashOk` says whether the slot erases and reads back. -/
def execLastGoodWrite (flashOk : Bool) (s : State) : Host.Outcome State Fault Refusal :=
  s.act (fun d => if d.bit (Reg.TOP_LG_WRITE_PENDING.at []) && !d.staging && d.hostOpen then d.writeGood flashOk else d)

/-! ### Health region and event log -/

/-- The copy of the health region to write: the one that does not hold the highest SEQ, or the one left when that is bad (R417). -/
def Dev.healthCopy (d : Dev) : Option Nat :=
  let k := nextCopy HealthRec.seq d.flash.health
  [k, 1 - k].find? (fun k => !d.boot.bad.contains (64 + k))

/-- What the health region is to hold. -/
def Dev.healthRecord (d : Dev) : HealthRec :=
  { seq := d.flash.health?.seq + 1, repair := d.repair, retired := d.retired, ageComp := d.rd (Reg.PWR_AGE_COMP_MV.at [])
    opMax := d.rd (Reg.PWR_OP_MAX.at []), bad := d.boot.bad }

/-- HEALTH_PERSIST (R417): the health region follows a change within 1 s. Whether the copy erases and reads back is a free value (log 169). With no good copy left nothing is written. -/
def execHealthPersist (s : State) : Host.Outcome State Fault Refusal :=
  s.act (fun d =>
    if !d.healthDirty then d
    else match d.healthCopy with
      | none => d
      | some k =>
        let ok := d.freeVal 1 = 1
        let d := d.useFree
        if ok then { d with healthDirty := false, flash := { d.flash with health := Tab.put none d.flash.health k (some d.healthRecord) } }
        else { d with flash := { d.flash with health := Tab.put none d.flash.health k none } }.slotBad (64 + k))

/-- A batch of at most 256 records goes to the ring of 16,384; those beyond it are counted (R366). -/
def Dev.persistLog (d : Dev) : Dev :=
  let log := d.flash.log ++ d.events.unsaved.take 256
  let d := d.inc (Reg.TOP_EVT_PERSIST_DROPPED.at []) (d.events.unsaved.length - 256)
  { d with events := { d.events with unsaved := [] }, flash := { d.flash with log := log.drop (log.length - 16384) } }

/-- EVENT_LOG_PERSIST (R366): once per second. -/
def execEventLogPersist (s : State) : Host.Outcome State Fault Refusal := s.act Dev.persistLog

end Sys2Proof.Machine
end

