-- ==== Sys2Proof/Machine/Boot.lean ====
section
/-! DEFINITION. Resets, the ROM, and the boot to RUNNING (R192, R243, R315, R358, R365, R376, R413 to R423, R442, R454, R456, R457). -/

namespace Sys2Proof.Machine

def bootRom : Nat := 0
def bootInit : Nat := 1
def bootRestore : Nat := 2
def bootRunning : Nat := 3
def bootRecovery : Nat := 4
def bootHalted : Nat := 5

def Dev.bootState (d : Dev) : Nat := d.rd (Reg.SEC_BOOT_STATE.at [])
def Dev.setBoot (d : Dev) (v : Nat) : Dev := d.wr (Reg.SEC_BOOT_STATE.at []) v

/-! ### Resets (R413, R414) -/

/-- What outlives a reset: the flash, the fuses, levels at pins, the test access port, memory of the host; and THM_STATUS.TRIP_STICKY unless `power`. -/
def Dev.cleared (d : Dev) (power : Bool) : Dev :=
  { free := d.free, hostMem := d.hostMem, flash := d.flash, selB := d.selB, jtag := d.jtag, boot := { testEn := d.boot.testEn }
    regs := d.regs.filter (fun e => e.1 = (Reg.SEC_FUSED_SVN.at []).key || (!power && e.1 = (Reg.THM_TRIP_STICKY.at []).key)) }

/-- The reset ends: straps are latched, the flash is detected, and GPIO0 selects RECOVERY (R421, R457). The first sample of GPIO_IN is that of the straps (log 13). -/
def Dev.released (d : Dev) (straps : Nat) : Dev :=
  let d := ((d.wr (Reg.TOP_GPIO_STRAP.at []) straps).wr (Reg.TOP_GPIO_IN.at []) straps).wr (Reg.SEC_FLASH_MIB.at []) Config.flashMib
  if straps.testBit 0 then d.setBoot bootRecovery else d

/-- A power-on reset releases THERMTRIP_N and clears TRIP_STICKY. -/
def Dev.powerReset (d : Dev) (straps : Nat) : Dev := { d.cleared true with jtag := {} }.released straps

/-- A system or warm reset (R414); the straps of one the device causes itself are a free value. -/
def Dev.systemReset (d : Dev) (straps : Nat) : Dev := (d.cleared false).released straps

def Dev.warmReset (d : Dev) : Dev := d.useFree.systemReset (d.freeVal 16)

/-- POWER_ON_RESET (R414). -/
def execPowerOnReset (straps : BitVec 16) (s : State) : Host.Outcome State Fault Refusal := s.actAlways (fun d => d.powerReset straps.toNat)

/-- SYSTEM_RESET (R414): SYS_RESET_N was low for at least 10 µs and is high again. -/
def execSystemReset (straps : BitVec 16) (s : State) : Host.Outcome State Fault Refusal := s.actAlways (fun d => { d.systemReset straps.toNat with jtag := { d.jtag with low := false } })

/-- SUPPLY_UNDERVOLTAGE (R454): a power-on reset. The trip latch is on VDD_IO18, and the loss of another rail does not release it (R465; log 190). -/
def execSupplyUndervoltage (rail : WatchedRail) (straps : BitVec 16) (s : State) : Host.Outcome State Fault Refusal :=
  s.actAlways (fun d => (d.powerReset straps.toNat).onPower (fun p => { p with tripped := rail != .io18 && d.power.tripped }))

/-- WATCHDOG_EXPIRY (R414, R415): a warm reset that writes nothing. -/
def execWatchdogExpiry (s : State) : Host.Outcome State Fault Refusal := s.act Dev.warmReset

/-- TEST_EN_CHANGE (R456): while the input is high the device is held in reset; a trip outlives it. -/
def execTestEnChange (level : Bool) (s : State) : Host.Outcome State Fault Refusal :=
  s.actAlways (fun d =>
    if level = d.boot.testEn then d
    else
      let trip := d.power.tripped
      let c := d.cleared false
      let c := { c with boot := { c.boot with testEn := level }, power := { c.power with tripped := trip } }
      if level then c else c.useFree.released (c.freeVal 16))

/-- LOSS_OF_HEALTH (R315, R316): heartbeats stop and TWIN_OWN goes low until reset. -/
def execLossOfHealth (s : State) : Host.Outcome State Fault Refusal := s.act (fun d => d.onBeacon (fun b => { b with sick := true }))

/-- THERMAL_TRIP (R358): THERMTRIP_N is asserted, the clocks stop, the device loses its health. -/
def execThermalTrip (s : State) : Host.Outcome State Fault Refusal :=
  s.actAlways (fun d =>
    ((d.set (Reg.THM_TRIP_STICKY.at []) true).onPower (fun p => { p with tripped := true })).onBeacon (fun b => { b with sick := true }))

/-! ### Packages (R418, R419) -/

def pkgLen (p : Bytes) : Nat := leNat (slice p 0x10 4)

/-- First failing check of R419, in the order of its table: 0, the package is accepted. -/
def packageCode (p : Bytes) (fusedSvn : Nat) : Nat :=
  let zero (off n : Nat) : Bool := leNat (slice p off n) = 0
  let keyOk (alg off n : Nat) : Bool :=
    let h := Config.sha384 (slice p off n)
    h = Config.romKeyHash alg 0 || h = Config.romKeyHash alg 1
  let msg := slice p 0 0x200
  firstCode [
    (1, leNat (slice p 0 4) != 0x46574450 || leNat (slice p 4 2) != 1 || !zero 0x0E 2 || !zero 0x14 12 || !zero 0x42E0 32 || 6291456 < 0x4300 + pkgLen p),
    (4, !keyOk 0 0x50 384 || !keyOk 1 0x1D0 48),
    (2, !Config.rsaVerify (slice p 0x50 384) msg (slice p 0x200 384)),
    (3, !Config.slhVerify (slice p 0x1D0 48) msg (slice p 0x380 slhSigLen)),
    (5, slice p 0x20 48 != Config.sha384 (slice p 0x4300 (pkgLen p))),
    (6, leNat (slice p 0x0C 2) < fusedSvn)]

/-- The bytes of a firmware slot. -/
def Dev.slotBytes (d : Dev) (slot : Nat) : Bytes := (Tab.get none d.flash.slots slot).getD (Config.firmware slot)

/-! ### ROM (R420, R421) -/

/-- The ROM chooses the slot to boot first (R420). -/
def Dev.chooseSlot (d : Dev) : Dev :=
  let b := d.flash.boot
  let put (f : Flash) (slot : Nat) (fell : Bool) : Dev := { d with flash := f, boot := { d.boot with slot := slot, fell := fell } }
  if !b.trying then put d.flash b.active false
  else if b.count < 2 then put (d.flash.putBoot b.active true (b.count + 1)) (1 - b.active) false
  else put (d.flash.putBoot b.active false b.count) b.active true

/-- The health region is loaded: repair table, retired units, AGE_COMP and OP_MAX, and bad slots (R163, R352, R376, R417). -/
def Dev.loadHealth (d : Dev) : Dev :=
  let f := d.flash.health?
  let d := { d with repair := f.repair, retired := f.retired, boot := { d.boot with bad := f.bad } }
  let d := (f.repair.filter (fun e => e.cls = 0)).foldl (fun (d : Dev) (e : RepairEntry) =>
    let ix := cix (bits e.loc 0 7) [bits e.loc 7 6, bits e.loc 20 2]
    (d.set (Reg.SP_REMAP_VALID.at ix) true).wr (Reg.SP_REMAP_ROW.at ix) (bits e.loc 13 7)) d
  let d := f.retired.foldl (fun (d : Dev) (u : Nat) =>
    if u < 72 then d.wr (Reg.MC_STATE.at (cix u)) mcRetired else d.onBe (u - 0x180) (fun b => { b with retired := true })) d
  ((d.wr (Reg.PWR_AGE_COMP_MV.at []) f.ageComp).wr (Reg.PWR_OP_MAX.at []) f.opMax).wr (Reg.SEC_LG_SLOTS_BAD.at []) (f.bad.filter (· < 64)).length

/-- SEQ goes on from the highest in the persisted log (R365). -/
def Dev.resumeSeq (d : Dev) : Dev :=
  match d.flash.log with
  | [] => d
  | r :: l => d.wr (Reg.TOP_EVT_SEQ.at []) (l.foldl (fun m e => max m e.seq) r.seq + 1)

/-- The ROM hands over to the firmware in a slot. -/
def Dev.handOver (d : Dev) (slot : Nat) : Dev :=
  let p := d.slotBytes slot
  let d := { d with boot := { d.boot with running := p } }
  let d := ((d.wr (Reg.SEC_SLOT.at []) slot).set (Reg.SEC_TRYING.at []) (d.flash.boot.trying && slot != d.flash.boot.active)).set (Reg.SEC_FELL_BACK.at []) d.boot.fell
  let d := ((d.wr (Reg.SEC_FW_VERSION.at []) (leNat (slice p 8 4))).wr (Reg.SEC_FW_SVN.at []) (leNat (slice p 0x0C 2))).wr (Reg.SEC_TWIN_PROTO.at []) (leNat (slice p 6 2))
  let d := d.loadHealth.setBoot bootInit
  let d := if d.boot.fell then d.raise 0x0801 8 0 else d
  if Config.identityBad then d.raise 0x0814 8 0 else d

/-- PACKAGE_CHECKED (R419 to R421): the ROM hands over, tries the other slot, or enters RECOVERY; a flash below 256 Mib halts the device. -/
def execPackageChecked (s : State) : Host.Outcome State Fault Refusal :=
  s.act (fun d =>
    if d.bootState != bootRom then d
    else
      let d := d.wr (Reg.SEC_FLASH_MIB.at []) Config.flashMib
      if Config.flashMib < 32 then (d.setBoot bootHalted).wr (Reg.SEC_HALT_CODE.at []) 1
      else
        let d := if d.boot.second then d else d.chooseSlot
        let slot := d.boot.slot
        if packageCode (d.slotBytes slot) (d.rd (Reg.SEC_FUSED_SVN.at [])) = 0 then d.handOver slot
        else if d.boot.second then d.setBoot bootRecovery
        else { d with boot := { d.boot with slot := 1 - slot, second := true } })

/-! ### INIT (R187, R192, R421) -/

/-- Post-package repair of the rows that wait for it (R192). -/
def Dev.postPackage (d : Dev) : Dev :=
  (List.range d.repair.length).foldl (fun (d : Dev) (i : Nat) =>
    match d.repair[i]? with
    | none => d
    | some e =>
      if e.cls != 3 || bits e.loc 26 1 = 1 then d
      else if Config.pprFound e.loc then
        let d := { d with repair := d.repair.set i { e with loc := e.loc + 2 ^ 26 }, healthDirty := true }
        d.raise 0x0733 8 0 [e.loc, 3]
      else d.raise 0x0734 8 0 [e.loc, 3]) d

/-! ### RESTORE (R243, R442) -/

/-- The ledger and the tile records of the restored record; without them the ledger starts at zero (R442). -/
def Dev.loadLedger (d : Dev) (r : GoodRec) : Dev :=
  if !r.hasLedger then d.raise 0x0363 8 0
  else
  let d := d.onWear (fun w => { w with ledger := r.ledger })
  let d := (List.zip (List.range 2) r.panels).foldl (fun (d : Dev) (e : Nat × Nat) =>
    (d.wr (Reg.WEAR_PANEL_ID.at [e.1]) e.2).set (Reg.WEAR_LEDGER_VALID.at [e.1]) true) d
  (List.zip (List.range 128) r.tiles).foldl (fun (d : Dev) (e : Nat × TileRec) =>
    let ix := [e.1 / 64, e.1 % 64]
    let d := (d.wr (Reg.WEAR_TILE_SERIAL_LO.at ix) e.2.serial).wr (Reg.WEAR_TILE_SERIAL_HI.at ix) (e.2.serial / 2 ^ 32)
    (d.wr (Reg.WEAR_TILE_L50_HOURS.at ix) e.2.l50).wr (Reg.WEAR_TILE_STATE.at ix) e.2.state) d

/-- Step 1 of R243: the recorded OUT pairs and timing modes are applied as one commit, or reset values stay. -/
def Dev.restoreOuts (d : Dev) (r : GoodRec) : Dev :=
  let mode (i : Nat) : Nat := r.modes.getD i 0
  let d := d.loadPairs [0, 1] r.pairs
  let d := ((d.wrS (Reg.OUT_MODE.at [0]) (mode 0)).wrS (Reg.OUT_MODE.at [1]) (mode 1)).wrS (Reg.AUXP_MODE.at []) (mode 2)
  let v := d.checkCommit [0, 1] false
  if v.code != 0 then ((d.reloadShadows 0).reloadShadows 1).raise 0x0909 8 0
  else
    let d := (List.range 2).foldl (fun (d : Dev) (o : Nat) =>
      match r.pairs.find? (fun e => e.1 = Reg.CMP_BGCOLOUR.addr [o]) with
      | some e => d.wr (Reg.CMP_BGCOLOUR.at [o]) e.2
      | none => d) d
    let d := (d.setBit (Reg.TOP_ARMED.at []) 0 true).setBit (Reg.TOP_ARMED.at []) 1 true
    (d.applyDomains [0, 1] 0).set (Reg.TOP_LG_OUT_RESTORED.at []) true

/-- Pages of LPDDR6 at which an image of `len` bytes may start. -/
def Dev.imagePages (d : Dev) (len : Nat) : Nat := (d.rd (Reg.DDR_CAP_GIB.at []) * 2 ^ 30 - len) / 4096 + 1

/-- Step 2: the image slot's image is copied to LPDDR6, at an address that is a free value, and installed. -/
def Dev.restoreImage (d : Dev) (r : GoodRec) : Dev :=
  match d.flash.image with
  | none => d
  | some img =>
    if leNat r.digest = 0 || slice img 0x30 48 != r.digest then d
    else
      let a := d.freeVal 32 % d.imagePages img.length * 4096
      { d.useFree.setBytes a img with inst := { kind := 3, addr := a, len := img.length } }.setImgState imgChecking

/-- The last-good record is applied: outputs may start, and the recorded image is on its way to its installation (R421). -/
def Dev.restoreRecord (d : Dev) (r : GoodRec) : Dev :=
  let d := ({ d with hoursBase := r.hours }.loadLedger r).restoreOuts r
  { d with boot := { d.boot with pairs := some (r.digest, r.pairs), lgSeq := some r.seq } }.restoreImage r

/-- RESTORE begins (R358, R365, R421, R423): the owner record, TRIP_STICKY, the SEQ of events, and the last-good record, where there is one. -/
def Dev.beginRestore (d : Dev) : Dev :=
  let d := ((d.setBoot bootRestore).resumeSeq).showOwner
  let d := if d.flash.owner.isSome then d else d.raise 0x0812 8 0
  let d := if d.bit (Reg.THM_TRIP_STICKY.at []) then d.raise 0x0614 8 0 else d
  match d.flash.newest with
  | some r => d.restoreRecord r
  | none => (d.set (Reg.TOP_LG_NO_RECORD.at []) true).raise 0x0363 8 0

/-- DDR_TRAINING_DONE (R421): `ready` has a bit for each channel that trained, after at most three attempts. -/
def execDdrTrainingDone (ready : BitVec 12) (rate capGib colBits : Nat) (s : State) : Host.Outcome State Fault Refusal :=
  s.actIf (Instr.wf (.ddrTrainingDone ready rate capGib colBits)) (fun d =>
    if d.bootState != bootInit then d
    else
      let d := d.postPackage.wr (Reg.DDR_CH_READY.at []) ready.toNat
      if ready.toNat != 0xFFF then ((d.setBoot bootHalted).wr (Reg.SEC_HALT_CODE.at []) 2).raise 0x0735 8 0 [0xFFF - ready.toNat]
      else (((d.wr (Reg.DDR_DATARATE.at []) rate).wr (Reg.DDR_CAP_GIB.at []) capGib).wr (Reg.DDR_COLBITS.at []) colBits).beginRestore)

/-- RESTORE_DONE (R243, R316, R421): the record has been applied, which is reported, or there is none; the device is RUNNING. -/
def execRestoreDone (s : State) : Host.Outcome State Fault Refusal :=
  s.act (fun d =>
    if d.bootState != bootRestore then d
    else
      let d := match d.boot.lgSeq with
        | some n => ((d.wr (Reg.TOP_LG_SEQ_LO.at []) n).wr (Reg.TOP_LG_SEQ_HI.at []) (n / 2 ^ 32)).raise 0x0907 8 0
        | none => d
      let d := (d.setBoot bootRunning).wr (Reg.SEC_BOOT_MS.at []) (min (d.time / 1000000) 65535)
      d.pairRole)

end Sys2Proof.Machine
end

