-- ==== Sys2Proof/Machine/Channel.lean ====
section
/-! DEFINITION. The command slots of the LPDDR6 channels (R26, R185, R186, R189). -/

namespace Sys2Proof.Machine

/-- Order of R185 between two entries for a channel whose last served master is `last`. -/
def DdrEntry.before (now last : Nat) (a b : DdrEntry) : Bool :=
  let da := toSigned 32 (a.deadline + 2 ^ 32 - now % 2 ^ 32)
  let db := toSigned 32 (b.deadline + 2 ^ 32 - now % 2 ^ 32)
  let ra := (a.master + 512 - last - 1) % 512
  let rb := (b.master + 512 - last - 1) % 512
  if a.critical != b.critical then a.critical
  else if da ≠ db then decide (da < db)
  else decide (ra < rb)

/-- The entry that comes first. -/
def firstEntry (now last : Nat) : List DdrEntry → Option DdrEntry
  | [] => none
  | e :: l => some (l.foldl (fun b q => if q.before now last b then q else b) e)

/-- A read is served: the requester's oldest unserved request of that granule takes its data now. -/
def Dev.serveRead (d : Dev) (e : DdrEntry) : Dev :=
  let u := e.master - 0x100
  let rec go : List SuItem → Option (List SuItem × Req)
    | [] => none
    | .rel r :: l => (go l).map (fun p => (.rel r :: p.1, p.2))
    | .xfer t :: l =>
      match t.flying.findIdx? (fun q => !q.served && q.addr / 256 = e.granule) with
      | some i =>
        let q := t.flying.getD i { addr := 0, len := 0, wp := none }
        some (.xfer { t with flying := t.flying.set i { q with served := true, data := some (d.bytes q.addr q.len), line := some (d.scLine e.granule) } } :: l, q)
      | none => (go l).map (fun p => (.xfer t :: p.1, p.2))
  if e.master < 0x100 || 0x180 ≤ e.master then d
  else match go (d.su u).work with
  | none => d
  | some (w, _) => d.onSu u (fun s => { s with work := w })

/-- Whether a read that is queued or waits for a place is deadline-critical now: a line buffer's are while its level is below its low watermark (R26, R261). -/
def Dev.criticalNow (d : Dev) (e : DdrEntry) : Bool :=
  if 0x1B0 ≤ e.master && e.master < 0x1C0 then d.lbCritical (e.master - 0x1B0) else e.critical

/-- Reads and writes that wait for a place take the places that are free, first those that come first in the order of R185. -/
def Ddr.letIn (now : Nat) (q : Ddr) : Ddr :=
  let q := match firstEntry now q.lastMaster q.waitReads with
    | some e => if q.reads.length < 64 then { q with reads := q.reads ++ [e], waitReads := q.waitReads.erase e } else q
    | none => q
  match firstEntry now q.lastMaster q.waitWrites with
  | some e => if q.writes.length < 64 then { q with writes := q.writes ++ [e], waitWrites := q.waitWrites.erase e } else q
  | none => q

/-- Entry `e` takes the slot: its bank's row is open, its master was served last, and what waited for the place goes on; a write that has to read its granule first keeps its place (R191). -/
def Dev.takeSlot (d : Dev) (ch : Nat) (write : Bool) (e : DdrEntry) : Dev :=
  let br := d.ddrBankRow e.granule
  let d := d.onChan ch (fun c =>
    { c with reads := if write then c.reads else c.reads.erase e,
             writes := if write then (if e.again then c.writes.map (fun w => if w = e then { e with again := false } else w) else c.writes.erase e) else c.writes,
             lastMaster := e.master, openRow := Tab.put 0 c.openRow br.1 (br.2 + 1) })
  let n := (d.chan ch).writes.length
  let d := d.onChan ch (fun c => { c with draining := c.draining && d.rd (Reg.DDR_WQ_LOW.at []) < n }.letIn d.time)
  (if write then d else d.serveRead e).suFlushAll

/-- DDR_COMMAND_SLOT (R186): one command slot of a channel. When refreshes are due is not stated: a free value decides (log 26). -/
def execDdrCommandSlot (ch : Fin 12) (s : State) : Host.Outcome State Fault Refusal :=
  s.act (fun d =>
    let atLimit := d.freeVal 2 = 3
    let due := 2 ≤ d.freeVal 2
    let d := d.useFree
    let d := d.onChan ch (fun c => { c with reads := c.reads.map (fun e => { e with critical := d.criticalNow e }), waitReads := c.waitReads.map (fun e => { e with critical := d.criticalNow e }) })
    let q := d.chan ch
    let d := if d.rd (Reg.DDR_WQ_HIGH.at []) ≤ q.writes.length && !q.writes.isEmpty then
      d.onChan ch (fun c => { c with draining := true }) else d
    let first := firstEntry d.time q.lastMaster
    if atLimit then d
    else
      match first (q.reads.filter DdrEntry.critical) with
      | some e => (if due then d.inc (Reg.DDR_REF_POSTPONED.at []) else d).takeSlot ch false e
      | none =>
        match (if (d.chan ch).draining then first q.writes else none) with
        | some e => d.takeSlot ch true e
        | none =>
          match first (q.reads ++ q.writes) with
          | some e =>
            let open_ (x : DdrEntry) : Bool :=
              let br := d.ddrBankRow x.granule
              Tab.get 0 q.openRow br.1 = br.2 + 1
            let late := decide ((d.rd (Reg.DDR_HIT_SLACK.at []) : Int) < toSigned 32 (e.deadline + 2 ^ 32 - d.time % 2 ^ 32))
            let hit := first ((q.reads ++ q.writes).filter open_)
            match (if late && !open_ e then hit else none) with
            | some h => (d.inc (Reg.DDR_HIT_PROMOTED.at [])).takeSlot ch (!q.reads.contains h) h
            | none => d.takeSlot ch (!q.reads.contains e) e
          | none =>
            if due then d
            else
              let a := (q.scrubAt * 12 + ch.val) * 256
              let d := d.onChan ch (fun c =>
                { c with scrubAt := (c.scrubAt + 1) % max 1 (d.rd (Reg.DDR_CAP_GIB.at []) * 2 ^ 30 / 3072) })
              (d.ddrCheck a 256 8 0).2)

end Sys2Proof.Machine
end

