-- ==== Sys2Proof/Machine/Firmware.lean ====
section
/-! DEFINITION. Firmware commands and recovery (R415, R422, R428, R429). -/

namespace Sys2Proof.Machine

def fwVerifying : Nat := 1
def fwWriting : Nat := 2
def fwStaged : Nat := 3
def fwRefused : Nat := 4

/-! ### STAGE (R428) -/

/-- FW_ADDR. -/
def Dev.fwAddr (d : Dev) : Nat := d.rd (Reg.SEC_FW_ADDR_LO.at []) + d.rd (Reg.SEC_FW_ADDR_HI.at []) * 2 ^ 32

/-- STAGE: Keeper begins to check a package; ignored while it stages one. -/
def execStage (s : State) : Host.Outcome State Fault Refusal :=
  s.act (fun d =>
    if d.staging then d
    else ({ d with boot := { d.boot with staged := none } }.wr (Reg.SEC_FW_STATE.at []) fwVerifying).wr (Reg.SEC_FW_ERR.at []) 0)

/-- Bytes of a firmware slot (R416). -/
def pkgSlotSize : Nat := 6291456

/-- FW_STAGE_DONE: the package is refused with the first failing code, or stands in the slot not running, which is on trial against the running one (log 186). `flashOk` says whether the write
reads back; a slot whose write failed holds a free value (log 163). -/
def execFwStageDone (flashOk : Bool) (s : State) : Host.Outcome State Fault Refusal :=
  s.act (fun d =>
    if !d.staging then d
    else
      let n := d.rd (Reg.SEC_FW_LEN.at [])
      let p := d.bytes d.fwAddr n
      let d := ((d.askReads keeperMaster d.nodl false d.fwAddr n).ddrCheck d.fwAddr n 8 0).2
      let c := packageCode p (d.rd (Reg.SEC_FUSED_SVN.at []))
      let code := if c != 0 then c else if flashOk then 0 else 7
      let d := if code = 7 then { d with flash := { d.flash with slots := Tab.insert d.flash.slots (1 - d.rd (Reg.SEC_SLOT.at [])) (some ((Config.tornSlot d.free).take pkgSlotSize)) } }.useFree else d
      if code != 0 then ((d.wr (Reg.SEC_FW_STATE.at []) fwRefused).wr (Reg.SEC_FW_ERR.at []) code).raise 0x0803 8 0 [code]
      else
        let slot := 1 - d.rd (Reg.SEC_SLOT.at [])
        let d := { d with
          flash := { d.flash with slots := Tab.insert d.flash.slots slot (some (p.take pkgSlotSize)) }.putBoot (1 - slot) true 0
          boot := { d.boot with staged := some p } }
        ((d.wr (Reg.SEC_FW_STATE.at []) fwStaged).wr (Reg.SEC_STAGED_VERSION.at []) (leNat (slice p 8 4))).raise 0x0802 8 0)

/-! ### ACTIVATE, CONFIRM, COMMIT_SVN, ABORT, RESET (R415, R429) -/

/-- What Keeper writes before a warm reset that a command causes (R415): whether the slot of a pending last-good record erases and reads back is a free value (R417, log 169). -/
def Dev.beforeReset (d : Dev) : Dev :=
  let d := if d.bit (Reg.TOP_LG_WRITE_PENDING.at []) then d.useFree.writeGood (d.freeVal 1 = 1) else d
  d.persistLog

/-- ACTIVATE: a warm reset into the staged slot, or a refusal with FW_ERR. -/
def execActivate (force : Bool) (s : State) : Host.Outcome State Fault Refusal :=
  s.act (fun d =>
    let code := firstCode [
      (8, d.role = roleOwner && d.twinIsReady && !force),
      (9, d.imgState = imgWait || d.imgState = imgCutover),
      (10, d.boot.staged.isNone)]
    if code != 0 then d.wr (Reg.SEC_FW_ERR.at []) code
    else (d.raise 0x0804 8 0).beforeReset.warmReset)

/-- CONFIRM: the slot on trial becomes ACTIVE. -/
def execConfirm (s : State) : Host.Outcome State Fault Refusal := s.act Dev.confirmSlot

/-- TRIAL_CONFIRM_TIMEOUT: RUNNING for 600 s with PAIR_EN = 0. -/
def execTrialConfirmTimeout (s : State) : Host.Outcome State Fault Refusal :=
  s.act (fun d => if d.hostOpen && !d.bit (Reg.BCN_PAIR_EN.at []) then d.confirmSlot else d)

/-- COMMIT_SVN: FUSED_SVN rises to the running SVN; refused with ROLE on trial. -/
def execCommitSvn (s : State) : Host.Outcome State Fault Refusal :=
  s.act (fun d =>
    if d.bit (Reg.SEC_TRYING.at []) then d.wr (Reg.SEC_FW_ERR.at []) 8
    else (d.wr (Reg.SEC_FUSED_SVN.at []) (max (d.rd (Reg.SEC_FUSED_SVN.at [])) (d.rd (Reg.SEC_FW_SVN.at [])))).raise 0x0805 8 0)

/-- ABORT: a staged package is cleared. -/
def execAbort (s : State) : Host.Outcome State Fault Refusal :=
  s.act (fun d =>
    if d.boot.staged.isNone then d
    else
      let d := { d with boot := { d.boot with staged := none }, flash := d.flash.putBoot d.flash.boot.active false 0 }
      (d.wr (Reg.SEC_FW_STATE.at []) 0).wr (Reg.SEC_STAGED_VERSION.at []) 0)

/-- RESET: a warm reset. -/
def execFwReset (s : State) : Host.Outcome State Fault Refusal := s.act (fun d => d.beforeReset.warmReset)

/-! ### Recovery (R422) -/

/-- RECOV_BUF. -/
def Dev.recovBuf (d : Dev) : Bytes := (List.range 1024).flatMap (fun i => leBytes 4 (d.rd (Reg.SEC_RECOV_BUF.at [i])))

/-- Bytes of a string replaced from an offset on; what lies between its end and the offset reads as erased flash. -/
def overlay (b : Bytes) (off : Nat) (x : Bytes) : Bytes :=
  (b ++ List.replicate (off - b.length) 0xFF#8).take off ++ x ++ b.drop (off + x.length)

/-- RECOV_PROGRAM: the buffer goes into slot A at RECOV_OFF; ignored outside RECOVERY and while a write is in progress. A place outside the slot ends in ERROR. -/
def execRecovProgram (s : State) : Host.Outcome State Fault Refusal :=
  s.act (fun d =>
    let off := d.rd (Reg.SEC_RECOV_OFF.at [])
    if d.bootState != bootRecovery || d.boot.prog.isSome then d
    else if pkgSlotSize < off + 4096 then d.wr (Reg.SEC_RECOV_STATUS.at []) 3
    else { d with boot := { d.boot with prog := some (off, d.recovBuf) } }.wr (Reg.SEC_RECOV_STATUS.at []) 1)

/-- A write of the recovery buffer ends, in time: when, and whether it reads back, are free values (log 188). -/
def Dev.recovTick (d : Dev) : Dev :=
  match d.boot.prog with
  | none => d
  | some (off, b) =>
    let r := d.freeVal 2
    let d := d.useFree
    if r < 2 then d
    else
      let d := { d with
        boot := { d.boot with prog := none }
        flash := { d.flash with slots := Tab.insert d.flash.slots 0 (some (if r = 2 then overlay (d.slotBytes 0) off b else (Config.tornSlot d.free).take pkgSlotSize)) } }
      d.useFree.wr (Reg.SEC_RECOV_STATUS.at []) r

/-- A package that passes its checks goes from VERIFYING to WRITING, in time: when is a free value (R432, log 188). -/
def Dev.stageTick (d : Dev) : Dev :=
  if d.rd (Reg.SEC_FW_STATE.at []) != fwVerifying then d
  else
    let now := d.freeVal 1 = 1
    let d := d.useFree
    if now && packageCode (d.bytes d.fwAddr (d.rd (Reg.SEC_FW_LEN.at []))) (d.rd (Reg.SEC_FUSED_SVN.at [])) = 0 then d.wr (Reg.SEC_FW_STATE.at []) fwWriting else d

/-- What the flash does while time passes. -/
def Dev.flashTick (d : Dev) : Dev := d.recovTick.stageTick

/-- RECOV_REBOOT: a system reset with ACTIVE = 0; ignored outside RECOVERY. -/
def execRecovReboot (s : State) : Host.Outcome State Fault Refusal :=
  s.act (fun d =>
    if d.bootState != bootRecovery then d
    else { d with flash := d.flash.putBoot 0 false 0 }.warmReset)

end Sys2Proof.Machine
end

