-- ==== Sys2Proof/Machine/HostRegs.lean ====
section
/-! DEFINITION. Host writes of BAR0 registers (R8 to R10, R31, R236, R238, R240, R297, R390, R421), and the writes with a row of their own that act on one block. -/

namespace Sys2Proof.Machine

/-! ### One field -/

/-- The bits of a written word that fall into a field. -/
def fieldOf (r : RegDef) (idx : List Nat) (v : Nat) : Nat := bits v (r.lowBit idx) r.width

/-- A write that the armed domain `m` discards (R238): LATE, and event 0x0902 once per commit. -/
def Dev.lateWrite (d : Dev) (m off : Nat) : Dev :=
  let d := d.setBit (Reg.TOP_LATE.at []) m true
  if d.lateTold.contains m then d else { d with lateTold := d.lateTold ++ [m] }.raise 0x0902 8 0 [m, off]

/-- A host write to an image-owned field (R236): ignored, and event 0x0903 once per frame. -/
def Dev.imageOwnedWrite (d : Dev) (off : Nat) : Dev :=
  let d := d.set (Reg.TOP_IMG_OWNED.at []) true
  if d.lateTold.contains 3 then d else { d with lateTold := d.lateTold ++ [3] }.raise 0x0903 8 0 [off]

/-- The field is written by a command of its own, or not at all: such rows, RO fields, OUT1's copy of SPLIT, AUTH11, the word of a ring's EN (R393), and RECOV_BUF
outside RECOVERY (R432). -/
def Dev.notHere (d : Dev) (r : RegDef) (idx : List Nat) : Bool :=
  r.own || r.acc = .ro || (r.at idx).key = (Reg.OUT_SPLIT.at [1]).key || (r.at idx).key = (Reg.LAN_AUTH.at [11]).key ||
  [Reg.EVT_LOG2.base, Reg.RES_LOG2.base, Reg.DSC_LOG2.base].contains r.base ||
  (r.base = Reg.SEC_RECOV_BUF.base && d.rd (Reg.SEC_BOOT_STATE.at []) != 4)

/-- Ring whose base or write-back address a row holds: those are ignored while its EN = 1 (R393). -/
def ringOf (r : RegDef) (idx : List Nat) : Option Nat :=
  if [Reg.EVT_BASE_LO.base, Reg.EVT_BASE_HI.base, Reg.EVT_WB_LO.base, Reg.EVT_WB_HI.base].contains r.base then some 0
  else if [Reg.RES_BASE_LO.base, Reg.RES_BASE_HI.base, Reg.RES_WB_LO.base, Reg.RES_WB_HI.base].contains r.base then some 1
  else if [Reg.DSC_BASE_LO.base, Reg.DSC_BASE_HI.base, Reg.DSC_WB_LO.base, Reg.DSC_WB_HI.base].contains r.base then some (2 + idx.getD 0 0)
  else none

/-- A field that acts at once takes its value; a vector whose mask bit is cleared sends what is pending (R392). -/
def Dev.writeNow (d : Dev) (r : RegDef) (idx : List Nat) (v : Nat) : Dev :=
  match ringOf r idx with
  | some q => if d.bit (ringEn q) then d else d.wr (r.at idx) v
  | none =>
    let d := d.wr (r.at idx) v
    if r.base = Reg.HST_MSIX_MASK.base then d.unmask (idx.getD 0 0) else d

/-- One field of a written word, by its access code (R8). -/
def Dev.writeField (d : Dev) (off : Nat) (r : RegDef) (idx : List Nat) (v : Nat) : Dev :=
  let f := r.at idx
  let x := fieldOf r idx v
  if d.notHere r idx then d
  else match r.acc with
    | .ro => d
    | .w1c => d.wr f (d.rd f - (d.rd f &&& x))
    | .rws =>
      let m := domainOf f.key
      if d.armed m then d.lateWrite m off else d.wrS f x
    | .wo => d.writeNow r idx x
    | .rw => d.writeNow r idx x
    | .rwl => d.writeNow r idx x

/-- Every field of a word. -/
def Dev.writeFields (d : Dev) (off v : Nat) : Dev := (fieldsAt off).foldl (fun d r => d.writeField off r.1 r.2 v) d

/-- An image-owned field lies at the offset. -/
def imageOwned (off : Nat) : Bool := inClusters off && (fieldsAt off).any (fun r => r.1.acc = .rws)

/-- Offsets of AUTH0 to AUTH11 (R309). -/
def isAuth (off : Nat) : Bool := 0x02500020 ≤ off && off < 0x02500050

/-- A write into the LAN block (R297): AUTH is ignored in LOCKOUT; every other field is ignored while the window is not OPEN. -/
def Dev.writeLantern (d : Dev) (off v : Nat) : Dev :=
  if isAuth off then (if d.lanState = lanLockout then d.lanIgnored else d.writeFields off v)
  else if (fieldsAt off).any (fun r => !r.1.own) then d.ifOpen (fun d => d.writeFields off v)
  else d

/-- The opcodes of the mailbox, each a command of its own (R385, R425). -/
def mailOpcodes : List Nat := [0x10, 0x11, 0x20, 0x30, 0x40, 0x60, 0x61, 0x50, 0x51]

/-- A host write of a word, its rows of their own apart. A word to KPR_CMD with an opcode no command has starts a command that ends with ERR 0x01 (R384). -/
def Dev.writeWord (d : Dev) (off v : Nat) : Dev :=
  if !d.hostReaches off then d
  else if off = Reg.KPR_OPCODE.base then (if mailOpcodes.contains (v % 65536) then d else d.mailUnknown (v / 65536))
  else if 0x02500000 ≤ off && off < 0x02600000 then d.writeLantern off v
  else
    let d := if imageOwned off then d.imageOwnedWrite off else d
    if imageOwned off then (fieldsAt off).foldl (fun d r => if r.1.acc = .rws then d else d.writeField off r.1 r.2 v) d else d.writeFields off v

/-- REGISTER_WRITE (R8): fields that have a command of their own are left to it; an offset with no register is ignored (R31). -/
def execRegisterWrite (off : BitVec 26) (v : Word) (s : State) : Host.Outcome State Fault Refusal :=
  s.act (fun d => d.writeWord off.toNat v.toNat)

/-! ### Writes that act on one block -/

/-- START (R280): STARTED is set from the next frame boundary of the output. -/
def execStart (o : Fin 2) (s : State) : Host.Outcome State Fault Refusal :=
  s.actHost (fun d => d.onOut o (fun q => { q with startAsked := true }))

/-- FORCE_BG (R240): read by the composer at each active line start. -/
def execForceBg (o : Fin 2) (on : Bool) (s : State) : Host.Outcome State Fault Refusal :=
  s.actHost (fun d => d.set (Reg.OUT_FORCE_BG.at [o.val]) on)

/-- FORCE_GUARD (R240): read at each line deadline. -/
def execForceGuard (mask : BitVec 16) (s : State) : Host.Outcome State Fault Refusal :=
  s.actHost (fun d => d.wr (Reg.GP_FORCE_GUARD.at []) mask.toNat)

/-- GFORCED (R304): the host ends the forced guard lines of a region. -/
def execGforced (o : Fin 2) (r : Fin 16) (s : State) : Host.Outcome State Fault Refusal :=
  s.actHost (fun d => d.set (Reg.WL_GFORCED.at [o.val, r.val]) false)

/-- MC_CNT_CLEAR (R65). -/
def execMcCntClear (c : Fin 72) (s : State) : Host.Outcome State Fault Refusal :=
  s.actHost (fun d => ((d.onCore c (fun k => { k with mac := 0 })).wr (Reg.MC_SP_ACCESS.at (cix c)) 0).wr (Reg.MC_BUSY.at (cix c)) 0)

/-- SU_CNT_CLEAR (R194). -/
def execSuCntClear (u : Fin 128) (s : State) : Host.Outcome State Fault Refusal :=
  s.actHost (fun d => ((d.onSu u (fun q => { q with bytes := 0 })).wr (Reg.SU_MVCLAMP_CNT.at (six u)) 0).wr (Reg.SU_LATE_CNT.at (six u)) 0)

/-- CL_CNT_CLEAR (R225). -/
def execClCntClear (n : Fin 8) (s : State) : Host.Outcome State Fault Refusal :=
  s.actHost (fun d =>
    let d := ((d.wr (Reg.CL_SC_HIT.at [n.val]) 0).wr (Reg.CL_SC_MISS.at [n.val]) 0).wr (Reg.CL_RING_BYTES.at [n.val]) 0
    upTo 32 (fun w d => (d.wr (Reg.CL_WC_EXPIRED.at [n.val, w]) 0).wr (Reg.CL_WC_DISCARDED.at [n.val, w]) 0) d)

/-- DDR_CNT_CLEAR (R195). -/
def execDdrCntClear (s : State) : Host.Outcome State Fault Refusal :=
  s.actHost (fun d => (((d.wr (Reg.DDR_ECC_CE_CNT.at []) 0).wr (Reg.DDR_ECC_UE_CNT.at []) 0).wr (Reg.DDR_REF_POSTPONED.at []) 0).wr
    (Reg.DDR_HIT_PROMOTED.at []) 0)

/-- IN_CNT_CLEAR (R412). -/
def execInCntClear (m : Fin 4) (s : State) : Host.Outcome State Fault Refusal :=
  s.actHost (fun d => ((d.wr (Reg.IN_FRAMES_RX.at [m.val]) 0).wr (Reg.IN_DISCARDED.at [m.val]) 0).wr (Reg.IN_LINK_ERRS.at [m.val]) 0)

end Sys2Proof.Machine
end

