-- ==== Sys2Proof/Machine/Jtag.lean ====
section
/-! DEFINITION. The test access port (R460), with the controller, the instructions and the boundary-scan register of IEEE 1149.1 (log 53). -/

namespace Sys2Proof.Machine

/-- The controller's next state. -/
def Tap.next (t : Tap) (tms : Bool) : Tap :=
  match t with
  | .reset => if tms then .reset else .idle
  | .idle => if tms then .selectDr else .idle
  | .selectDr => if tms then .selectIr else .captureDr
  | .captureDr => if tms then .exit1Dr else .shiftDr
  | .shiftDr => if tms then .exit1Dr else .shiftDr
  | .exit1Dr => if tms then .updateDr else .pauseDr
  | .pauseDr => if tms then .exit2Dr else .pauseDr
  | .exit2Dr => if tms then .updateDr else .shiftDr
  | .updateDr => if tms then .selectDr else .idle
  | .selectIr => if tms then .reset else .captureIr
  | .captureIr => if tms then .exit1Ir else .shiftIr
  | .shiftIr => if tms then .exit1Ir else .shiftIr
  | .exit1Ir => if tms then .updateIr else .pauseIr
  | .pauseIr => if tms then .exit2Ir else .pauseIr
  | .exit2Ir => if tms then .updateIr else .shiftIr
  | .updateIr => if tms then .selectDr else .idle

/-- What IDCODE reads. -/
def jtagId : Nat := 0x0DF87A4D

/-- Lists the bits of a number, least significant first. -/
def bitList (n v : Nat) : List Bool := (List.range n).map v.testBit

/-- A shift register moves one place: the bit that leaves, and the register after it. -/
def shiftBit (r : List Bool) (tdi : Bool) : Bool × List Bool := (r.headD false, r.drop 1 ++ [tdi])

/-! ### The boundary-scan register -/

/-- What a boundary-scan cell stands at: the input of a signal, its output, or the enable of its driver. -/
inductive CellKind where
  | inp | out | ctl
  deriving DecidableEq, Repr

/-- The signals of R456 that the register covers, in the order of its table. -/
def signals : List Signal :=
  [.sysResetN, .faultN, .thermtripN, .testEn, .perstN] ++ (List.finRange 2).flatMap (fun o => [.twinOwn o, .twinSel o]) ++
  [.auxpTe, .auxpRstN] ++ (List.finRange 2).map .outHpd ++ (List.finRange 4).flatMap (fun m => [.inHpd m, .inDet5v m]) ++
  (List.finRange 2).flatMap (fun o => [.outDdcScl o, .outDdcSda o]) ++ (List.finRange 4).flatMap (fun m => [.inDdcScl m, .inDdcSda m]) ++
  (List.finRange 2).flatMap (fun n => [.i2cScl n, .i2cSda n]) ++ [.pmbScl, .pmbSda, .pmbAlertN, .qspiClk, .qspiCsN] ++
  (List.finRange 4).map .qspiIo ++ [.qspiRstN] ++ (List.finRange 16).map .gpio

/-- The cells of a signal by its type in R456: an input has one, an output one, an open-drain line of a bus both, a bidirectional signal an enable as well. -/
def cellsOf (s : Signal) : List CellKind :=
  match s with
  | .sysResetN | .testEn | .perstN | .twinSel _ | .auxpTe | .outHpd _ | .inDet5v _ | .pmbAlertN => [.inp]
  | .faultN | .thermtripN | .twinOwn _ | .auxpRstN | .inHpd _ | .qspiClk | .qspiCsN | .qspiRstN => [.out]
  | .outDdcScl _ | .outDdcSda _ | .inDdcScl _ | .inDdcSda _ | .i2cScl _ | .i2cSda _ | .pmbScl | .pmbSda => [.inp, .out]
  | .qspiIo _ | .gpio _ => [.inp, .out, .ctl]

/-- The signal is open drain: a 1 in its output cell leaves it at high impedance. -/
def opensDrain (s : Signal) : Bool :=
  match s with
  | .faultN | .thermtripN | .outDdcScl _ | .outDdcSda _ | .inDdcScl _ | .inDdcSda _ | .i2cScl _ | .i2cSda _ | .pmbScl | .pmbSda => true
  | _ => false

/-- The boundary-scan register, the cell next to TDO first. -/
def scanCells : List (Signal × CellKind) :=
  (((signals.flatMap (fun s => (cellsOf s).map (fun k => (s, k)))).zipIdx).mergeSort (fun a b => decide (Config.scanRank a.2 ≤ Config.scanRank b.2))).map (·.1)

/-- What the register captures: the levels at the balls; of an enable, a free value. -/
def Dev.scanCapture (d : Dev) (high : List Signal) : List Bool :=
  scanCells.map (fun c => if c.2 = .ctl then (Config.freeBits d.free).testBit (signals.idxOf c.1) else high.contains c.1)

/-- The instruction in effect: while SYS_RESET_N is high, every one other than IDCODE acts as BYPASS (R460). -/
def Jtag.effect (j : Jtag) : Fin 6 := if j.low || j.inst = 1 then j.inst else 0

/-- A bit of the register's output stage; one never loaded is 0 (log 53). -/
def Jtag.held (j : Jtag) (s : Signal) (k : CellKind) : Bool := j.latch.getD (scanCells.idxOf (s, k)) false

/-- What a signal's driver does under EXTEST and CLAMP. -/
def Jtag.drives (j : Jtag) (s : Signal) : Option Bool :=
  if !(cellsOf s).contains .out || ((cellsOf s).contains .ctl && !j.held s .ctl) || (opensDrain s && j.held s .out) then none
  else some (j.held s .out)

/-! ### The port -/

/-- What an edge of JTAG_TCK does in the state it finds. -/
def Jtag.work (j : Jtag) (tdi : Bool) (capture : List Bool) : Jtag :=
  match j.st with
  | .captureDr => { j with dr := if j.effect = 1 then bitList 32 jtagId else if j.effect = 2 || j.effect = 3 then capture else [false] }
  | .shiftDr => { j with tdo := (shiftBit j.dr tdi).1, dr := (shiftBit j.dr tdi).2 }
  | .captureIr => { j with ir := [true, false] ++ Config.irRest }
  | .shiftIr => { j with tdo := (shiftBit j.ir tdi).1, ir := (shiftBit j.ir tdi).2 }
  | _ => j

/-- What entering a state does: all ones select BYPASS, and SAMPLE/PRELOAD and EXTEST load the output stage. -/
def Jtag.enter (j : Jtag) (t : Tap) : Jtag :=
  match t with
  | .reset => { j with st := t, inst := 1 }
  | .updateIr => { j with st := t, inst := if j.ir.all id then 0 else Config.irCode j.ir }
  | .updateDr => { j with st := t, latch := if j.effect = 2 || j.effect = 3 then j.dr else j.latch }
  | _ => { j with st := t }

/-- One edge of JTAG_TCK; JTAG_TRST_N low holds the controller in reset. -/
def Jtag.edge (j : Jtag) (tms tdi trstN sysResetN : Bool) (capture : List Bool) : Jtag :=
  let j := { j with low := !sysResetN }
  if trstN then (j.work tdi capture).enter (j.st.next tms) else j.enter .reset

/-- JTAG_TCK (R460): nothing else of the device is reached, and the port's clock is its own. `high` are the signals whose balls are at the high level. -/
def execJtagTck (tms tdi trstN sysResetN : Bool) (high : List Signal) (s : State) : Host.Outcome State Fault Refusal :=
  s.actAlways (fun d => { d with jtag := d.jtag.edge tms tdi trstN sysResetN (d.scanCapture high) }.useFree)

end Sys2Proof.Machine
end

