-- ==== Sys2Proof/Machine/Dispatch.lean ====
section
/-! DEFINITION. The dispatch: one arm per command of the opcode table, one direct call of its meaning. -/

namespace Sys2Proof.Machine

def exec (i : Instr) (s : State) : Host.Outcome State Fault Refusal :=
  match i with
  | .nop c => Sys2Proof.Machine.execNop c s
  | .endTask c => Sys2Proof.Machine.execEnd c s
  | .yieldTask c => Sys2Proof.Machine.execYield c s
  | .loop c => Sys2Proof.Machine.execLoop c s
  | .br c => Sys2Proof.Machine.execBr c s
  | .sop c => Sys2Proof.Machine.execSop c s
  | .arop c => Sys2Proof.Machine.execArop c s
  | .srset c => Sys2Proof.Machine.execSrset c s
  | .ldmask c => Sys2Proof.Machine.execLdmask c s
  | .take c => Sys2Proof.Machine.execTake c s
  | .doneLease c => Sys2Proof.Machine.execDone c s
  | .waittag c => Sys2Proof.Machine.execWaittag c s
  | .settag c => Sys2Proof.Machine.execSettag c s
  | .mma c => Sys2Proof.Machine.execMma c s
  | .mmat c => Sys2Proof.Machine.execMmat c s
  | .dwb c => Sys2Proof.Machine.execDwb c s
  | .drain c => Sys2Proof.Machine.execDrain c s
  | .vadd c => Sys2Proof.Machine.execVadd c s
  | .vpool c => Sys2Proof.Machine.execVpool c s
  | .vcvt c => Sys2Proof.Machine.execVcvt c s
  | .vpad c => Sys2Proof.Machine.execVpad c s
  | .settagRelease c pos => Sys2Proof.Machine.execSettagRelease c pos s
  | .taskLaunch pos => Sys2Proof.Machine.execTaskLaunch pos s
  | .tagUpdate pos => Sys2Proof.Machine.execTagUpdate pos s
  | .writeTransaction pos => Sys2Proof.Machine.execWriteTransaction pos s
  | .creditReturn pos => Sys2Proof.Machine.execCreditReturn pos s
  | .tagVisible c slot => Sys2Proof.Machine.execTagVisible c slot s
  | .takeResponse pos => Sys2Proof.Machine.execTakeResponse pos s
  | .doneResponse pos => Sys2Proof.Machine.execDoneResponse pos s
  | .taskStall c t => Sys2Proof.Machine.execTaskStall c t s
  | .wcTake pos => Sys2Proof.Machine.execWcTake pos s
  | .wcDone pos => Sys2Proof.Machine.execWcDone pos s
  | .wcArm pos => Sys2Proof.Machine.execWcArm pos s
  | .freezeMessage pos => Sys2Proof.Machine.execFreezeMessage pos s
  | .closeMessage pos => Sys2Proof.Machine.execCloseMessage pos s
  | .leaseExpired n w pos => Sys2Proof.Machine.execLeaseExpired n w pos s
  | .leaseUnclosed n w pos => Sys2Proof.Machine.execLeaseUnclosed n w pos s
  | .rotationStep n k => Sys2Proof.Machine.execRotationStep n k s
  | .suNop u => Sys2Proof.Machine.execSuNop u s
  | .suEnd u => Sys2Proof.Machine.execSuEnd u s
  | .suLoop u => Sys2Proof.Machine.execSuLoop u s
  | .pset u => Sys2Proof.Machine.execPset u s
  | .pstr u => Sys2Proof.Machine.execPstr u s
  | .nset u => Sys2Proof.Machine.execNset u s
  | .dladd u => Sys2Proof.Machine.execDladd u s
  | .suSettag u => Sys2Proof.Machine.execSuSettag u s
  | .move u => Sys2Proof.Machine.execMove u s
  | .movet u => Sys2Proof.Machine.execMovet u s
  | .gather u => Sys2Proof.Machine.execGather u s
  | .frame u => Sys2Proof.Machine.execFrame u s
  | .fence u => Sys2Proof.Machine.execFence u s
  | .suLaunch pos => Sys2Proof.Machine.execSuLaunch pos s
  | .suRequest u => Sys2Proof.Machine.execSuRequest u s
  | .suReadReturn u pos ext poisoned => Sys2Proof.Machine.execSuReadReturn u pos ext poisoned s
  | .suDrainDone u => Sys2Proof.Machine.execSuDrainDone u s
  | .creditStall u => Sys2Proof.Machine.execCreditStall u s
  | .reinitHandlesReset p => Sys2Proof.Machine.execReinitHandlesReset p s
  | .ddrCommandSlot ch => Sys2Proof.Machine.execDdrCommandSlot ch s
  | .spScrub c b => Sys2Proof.Machine.execSpScrub c b s
  | .zfillDone c slot => Sys2Proof.Machine.execZfillDone c slot s
  | .pgPowerDown c b => Sys2Proof.Machine.execPgPowerDown c b s
  | .pgTimeout c b => Sys2Proof.Machine.execPgTimeout c b s
  | .bankFillDone c b => Sys2Proof.Machine.execBankFillDone c b s
  | .rowMapOut cls location => Sys2Proof.Machine.execRowMapOut cls location s
  | .chainCommand p => Sys2Proof.Machine.execChainCommand p s
  | .launchDequeue q => Sys2Proof.Machine.execLaunchDequeue q s
  | .sourceLatch p => Sys2Proof.Machine.execSourceLatch p s
  | .beRow e => Sys2Proof.Machine.execBeRow e s
  | .beRowDone e => Sys2Proof.Machine.execBeRowDone e s
  | .guardPathStart j => Sys2Proof.Machine.execGuardPathStart j s
  | .guardLine j => Sys2Proof.Machine.execGuardLine j s
  | .lbRowFetch j => Sys2Proof.Machine.execLbRowFetch j s
  | .frameBoundary o => Sys2Proof.Machine.execFrameBoundary o s
  | .idleBoundary => Sys2Proof.Machine.execIdleBoundary s
  | .lineStart o => Sys2Proof.Machine.execLineStart o s
  | .lineDeadline o => Sys2Proof.Machine.execLineDeadline o s
  | .fenceReadReturn j => Sys2Proof.Machine.execFenceReadReturn j s
  | .fenceTimeout o => Sys2Proof.Machine.execFenceTimeout o s
  | .wbFrameDone o => Sys2Proof.Machine.execWbFrameDone o s
  | .referenceEdge o phase periodNs => Sys2Proof.Machine.execReferenceEdge o phase periodNs s
  | .glRefLost o => Sys2Proof.Machine.execGlRefLost o s
  | .hpdAssert o => Sys2Proof.Machine.execHpdAssert o s
  | .hpdDeassert o => Sys2Proof.Machine.execHpdDeassert o s
  | .linkTrained o r displayId => Sys2Proof.Machine.execLinkTrained o r displayId s
  | .linkRetry o => Sys2Proof.Machine.execLinkRetry o s
  | .auxpPeriod => Sys2Proof.Machine.execAuxpPeriod s
  | .auxpTe => Sys2Proof.Machine.execAuxpTe s
  | .auxpTeTimeout => Sys2Proof.Machine.execAuxpTeTimeout s
  | .lanHeldWrite => Sys2Proof.Machine.execLanHeldWrite s
  | .lanCopyDone hostData => Sys2Proof.Machine.execLanCopyDone hostData s
  | .lanWindowTimeout => Sys2Proof.Machine.execLanWindowTimeout s
  | .lanLockoutEnd => Sys2Proof.Machine.execLanLockoutEnd s
  | .authVerified => Sys2Proof.Machine.execAuthVerified s
  | .inputFrameComplete src rows => Sys2Proof.Machine.execInputFrameComplete src rows s
  | .inStateChange m sig => Sys2Proof.Machine.execInStateChange m sig s
  | .edidHpdRestore m => Sys2Proof.Machine.execEdidHpdRestore m s
  | .descFetch j desc => Sys2Proof.Machine.execDescFetch j desc s
  | .descCopyDone j ok => Sys2Proof.Machine.execDescCopyDone j ok s
  | .hwinFail addr => Sys2Proof.Machine.execHwinFail addr s
  | .coalTimer q => Sys2Proof.Machine.execCoalTimer q s
  | .eventDeliver => Sys2Proof.Machine.execEventDeliver s
  | .resultEmit u => Sys2Proof.Machine.execResultEmit u s
  | .endpointReset cause => Sys2Proof.Machine.execEndpointReset cause s
  | .hostLinkUp gen width bar2Log2 cfg => Sys2Proof.Machine.execHostLinkUp gen width bar2Log2 cfg s
  | .bar2Write off data => Sys2Proof.Machine.execBar2Write off data s
  | .bar2Read off len => Sys2Proof.Machine.execBar2Read off len s
  | .registerWrite off v => Sys2Proof.Machine.execRegisterWrite off v s
  | .tbLoRead => Sys2Proof.Machine.execTbLoRead s
  | .macLoRead c => Sys2Proof.Machine.execMacLoRead c s
  | .bytesLoRead u => Sys2Proof.Machine.execBytesLoRead u s
  | .curveDataRead c => Sys2Proof.Machine.execCurveDataRead c s
  | .sigRead o r => Sys2Proof.Machine.execSigRead o r s
  | .zoneLtLoRead => Sys2Proof.Machine.execZoneLtLoRead s
  | .nonceRead => Sys2Proof.Machine.execNonceRead s
  | .mcCntClear c => Sys2Proof.Machine.execMcCntClear c s
  | .suCntClear u => Sys2Proof.Machine.execSuCntClear u s
  | .clCntClear n => Sys2Proof.Machine.execClCntClear n s
  | .ddrCntClear => Sys2Proof.Machine.execDdrCntClear s
  | .inCntClear m => Sys2Proof.Machine.execInCntClear m s
  | .peakClear => Sys2Proof.Machine.execPeakClear s
  | .armOut0 v => Sys2Proof.Machine.execArmOut0 v s
  | .armOut1 v => Sys2Proof.Machine.execArmOut1 v s
  | .armPipe v => Sys2Proof.Machine.execArmPipe v s
  | .discard v => Sys2Proof.Machine.execDiscard v s
  | .install => Sys2Proof.Machine.execInstall s
  | .validate => Sys2Proof.Machine.execValidate s
  | .cancel => Sys2Proof.Machine.execCancel s
  | .imgChecksDone r => Sys2Proof.Machine.execImgChecksDone r s
  | .cutoverMembersIdle => Sys2Proof.Machine.execCutoverMembersIdle s
  | .cutoverWriteDone => Sys2Proof.Machine.execCutoverWriteDone s
  | .unfreeze u => Sys2Proof.Machine.execUnfreeze u s
  | .start o => Sys2Proof.Machine.execStart o s
  | .forceBg o on => Sys2Proof.Machine.execForceBg o on s
  | .forceGuard mask => Sys2Proof.Machine.execForceGuard mask s
  | .wbOwn o mask => Sys2Proof.Machine.execWbOwn o mask s
  | .gforced o r => Sys2Proof.Machine.execGforced o r s
  | .close => Sys2Proof.Machine.execClose s
  | .apply => Sys2Proof.Machine.execApply s
  | .authWrite v => Sys2Proof.Machine.execAuthWrite v s
  | .wdata v => Sys2Proof.Machine.execWdata v s
  | .cgo => Sys2Proof.Machine.execCgo s
  | .handover => Sys2Proof.Machine.execHandover s
  | .hidxWrite q v => Sys2Proof.Machine.execHidxWrite q v s
  | .ringEnWrite q v => Sys2Proof.Machine.execRingEnWrite q v s
  | .edidDone m => Sys2Proof.Machine.execEdidDone m s
  | .rescan mask => Sys2Proof.Machine.execRescan mask s
  | .resetZones v => Sys2Proof.Machine.execResetZones v s
  | .repairCount tag => Sys2Proof.Machine.execRepairCount tag s
  | .repairRead tag => Sys2Proof.Machine.execRepairRead tag s
  | .logRead tag flashOk => Sys2Proof.Machine.execLogRead tag flashOk s
  | .healthRead tag => Sys2Proof.Machine.execHealthRead tag s
  | .slackRead tag => Sys2Proof.Machine.execSlackRead tag s
  | .ownerSet tag request => Sys2Proof.Machine.execOwnerSet tag request s
  | .lkeySet tag request => Sys2Proof.Machine.execLkeySet tag request s
  | .certRead tag => Sys2Proof.Machine.execCertRead tag s
  | .attest tag nonce => Sys2Proof.Machine.execAttest tag nonce s
  | .mailboxComplete ok0 ok1 => Sys2Proof.Machine.execMailboxComplete ok0 ok1 s
  | .stage => Sys2Proof.Machine.execStage s
  | .fwStageDone flashOk => Sys2Proof.Machine.execFwStageDone flashOk s
  | .activate force => Sys2Proof.Machine.execActivate force s
  | .confirm => Sys2Proof.Machine.execConfirm s
  | .commitSvn => Sys2Proof.Machine.execCommitSvn s
  | .abort => Sys2Proof.Machine.execAbort s
  | .fwReset => Sys2Proof.Machine.execFwReset s
  | .recovProgram => Sys2Proof.Machine.execRecovProgram s
  | .recovReboot => Sys2Proof.Machine.execRecovReboot s
  | .powerOnReset straps => Sys2Proof.Machine.execPowerOnReset straps s
  | .systemReset straps => Sys2Proof.Machine.execSystemReset straps s
  | .supplyUndervoltage rail straps => Sys2Proof.Machine.execSupplyUndervoltage rail straps s
  | .packageChecked => Sys2Proof.Machine.execPackageChecked s
  | .ddrTrainingDone ready rate capGib colBits => Sys2Proof.Machine.execDdrTrainingDone ready rate capGib colBits s
  | .restoreDone => Sys2Proof.Machine.execRestoreDone s
  | .lossOfHealth => Sys2Proof.Machine.execLossOfHealth s
  | .watchdogExpiry => Sys2Proof.Machine.execWatchdogExpiry s
  | .thermalTrip => Sys2Proof.Machine.execThermalTrip s
  | .heartbeatSend => Sys2Proof.Machine.execHeartbeatSend s
  | .heartbeatArrival p h => Sys2Proof.Machine.execHeartbeatArrival p h s
  | .partnerLost p => Sys2Proof.Machine.execPartnerLost p s
  | .twinTakeover => Sys2Proof.Machine.execTwinTakeover s
  | .twinSplit => Sys2Proof.Machine.execTwinSplit s
  | .twinReady => Sys2Proof.Machine.execTwinReady s
  | .startWaitExpiry => Sys2Proof.Machine.execStartWaitExpiry s
  | .twinSelChange sel0 sel1 => Sys2Proof.Machine.execTwinSelChange sel0 sel1 s
  | .bcnDown p => Sys2Proof.Machine.execBcnDown p s
  | .bcnRetrain p => Sys2Proof.Machine.execBcnRetrain p s
  | .bcnUp p lanes hopPs => Sys2Proof.Machine.execBcnUp p lanes hopPs s
  | .hopDelayMeasure p hopPs => Sys2Proof.Machine.execHopDelayMeasure p hopPs s
  | .tokenSend => Sys2Proof.Machine.execTokenSend s
  | .tokenArrival p tok => Sys2Proof.Machine.execTokenArrival p tok s
  | .mirrorFrameArrival j completion rows => Sys2Proof.Machine.execMirrorFrameArrival j completion rows s
  | .mirrorHoldExpiry j => Sys2Proof.Machine.execMirrorHoldExpiry j s
  | .seamSlotArrival p q slot => Sys2Proof.Machine.execSeamSlotArrival p q slot s
  | .slotCredit p q announced => Sys2Proof.Machine.execSlotCredit p q announced s
  | .nbrStall p => Sys2Proof.Machine.execNbrStall p s
  | .seamEpochReset fe p => Sys2Proof.Machine.execSeamEpochReset fe p s
  | .slackMeasure => Sys2Proof.Machine.execSlackMeasure s
  | .controlPeriod => Sys2Proof.Machine.execControlPeriod s
  | .pmbusPoll pout => Sys2Proof.Machine.execPmbusPoll pout s
  | .pmbAlert status => Sys2Proof.Machine.execPmbAlert status s
  | .vsettleDone => Sys2Proof.Machine.execVsettleDone s
  | .ageingEval marginLow => Sys2Proof.Machine.execAgeingEval marginLow s
  | .thmSample quarterC => Sys2Proof.Machine.execThmSample quarterC s
  | .thmStep => Sys2Proof.Machine.execThmStep s
  | .lastGoodWrite flashOk => Sys2Proof.Machine.execLastGoodWrite flashOk s
  | .healthPersist => Sys2Proof.Machine.execHealthPersist s
  | .eventLogPersist => Sys2Proof.Machine.execEventLogPersist s
  | .ledgerFold => Sys2Proof.Machine.execLedgerFold s
  | .wearGainUpdate => Sys2Proof.Machine.execWearGainUpdate s
  | .wearPoll o => Sys2Proof.Machine.execWearPoll o s
  | .tileReadDone o t eeprom => Sys2Proof.Machine.execTileReadDone o t eeprom s
  | .keeperMessageArrival p m => Sys2Proof.Machine.execKeeperMessageArrival p m s
  | .spareEngaged n => Sys2Proof.Machine.execSpareEngaged n s
  | .mirrorSendDone j => Sys2Proof.Machine.execMirrorSendDone j s
  | .trialConfirmTimeout => Sys2Proof.Machine.execTrialConfirmTimeout s
  | .jtagTck tms tdi trstN sysResetN high => Sys2Proof.Machine.execJtagTck tms tdi trstN sysResetN high s
  | .testEnChange level => Sys2Proof.Machine.execTestEnChange level s

end Sys2Proof.Machine
end

