-- ==== Sys2Proof/Machine/Step.lean ====
section
/-! DEFINITION. One step: the command at the front of the queue, or one tick of the time base when none waits. -/

namespace Sys2Proof.Machine

/-- Takes the command at the front of the queue and runs it with the rest; an empty queue lets one nanosecond of the device time base pass, which
AUXP's own scan and Keeper's flash writes follow (log 1, log 35, log 188). -/
def step (s : State) : Host.Outcome State Fault Refusal :=
  match s.pending with
  | [] => s.act (fun d => d.tick.auxpCatchUp.flashTick)
  | c :: rest => exec c { s with pending := rest }

/-- The state with the command that a table word spells put at the front of the queue; no word spells one. -/
def State.withFetchWord (s : State) (nbits w : Nat) : State :=
  match decodeTableWord nbits w with
  | none => s
  | some c => { s with pending := c :: s.pending }

end Sys2Proof.Machine
end

