-- ==== Sys2Proof/Machine/Pins.lean ====
section
/-! DEFINITION. The levels of the pins that the device drives (R315, R358, R382, R408, R456 to R458), as its state gives them: `none`, high impedance; and what the test access port makes of them (R460). -/

namespace Sys2Proof.Machine

/-- An open-drain pin. -/
def openDrain (low : Bool) : Option Bool := if low then some false else none

/-- FAULT_N: not asserted until Keeper has restored the retired set (R382). -/
def Dev.pinFaultN (d : Dev) : Option Bool := openDrain (d.healthRestored && d.faultN)

/-- THERMTRIP_N: held by the trip latch (R358). -/
def Dev.pinThermtripN (d : Dev) : Option Bool := openDrain d.power.tripped

/-- TWIN_OWN0 and TWIN_OWN1 (R315, R316, R421). -/
def Dev.pinTwinOwn (d : Dev) (o : Nat) : Bool := d.twinOwn o

/-- AUXP_RST_N: low until the ENABLE of a commit is applied; a commit that clears ENABLE takes it low again (log 167). -/
def Dev.pinAuxpRstN (d : Dev) : Bool := d.bit (Reg.AUXP_ENABLE.at [])

/-- INm_HPD: high while EN = 1, but for the time after EDID_DONE (R408). -/
def Dev.pinInHpd (d : Dev) (m : Nat) : Bool := d.bit (Reg.IN_EN.at [m]) && !d.host.hpdLow.contains m

/-- QSPI_RST_N: low while the device is held in reset. -/
def Dev.pinQspiRstN (d : Dev) : Bool := !d.boot.testEn

/-- GPIO pin `i`: driven where GPIO_DIR is 1 (R458). -/
def Dev.pinGpio (d : Dev) (i : Nat) : Option Bool :=
  if d.bitAt (Reg.TOP_GPIO_DIR.at []) i then some (d.bitAt (Reg.TOP_GPIO_OUT.at []) i) else none

/-- The level at the ball of a signal that the device's own logic would drive as `own`: HIGHZ releases it, EXTEST and CLAMP drive the boundary-scan register's output stage. -/
def Dev.ball (d : Dev) (s : Signal) (own : Option Bool) : Option Bool :=
  match d.jtag.effect.val with
  | 4 => none
  | 3 | 5 => d.jtag.drives s
  | _ => own

end Sys2Proof.Machine
end

