-- ==== Sys2Proof/Safety.lean ====
section
/-! DEFINITION. The terms in which claims speak of a run: what it is for a command to complete, what a command leaves alone, and when a core or a stream unit is about to issue an instruction. -/

namespace Sys2Proof.Machine

/-- Command `i` completes in `s`: exec answers a next state, the queue of waiting commands is as it was, and the device that results satisfies `P`. -/
def completes (i : Instr) (s : State) (P : Dev → Prop) : Prop := ∃ t, exec i s = .next t ∧ t.pending = s.pending ∧ P t.dev

/-- Every register field but those of the listed keys holds what it held, in force and in shadow. -/
def regsBut (keys : List Nat) (d e : Dev) : Prop := ∀ g : Fld, g.key ∉ keys → e.rd g = d.rd g ∧ e.rdS g = d.rdS g

/-- Every byte of the device address space but those of the listed ranges (first address, length) holds what it held. -/
def bytesBut (ranges : List (Nat × Nat)) (d e : Dev) : Prop := ∀ a, (∀ r ∈ ranges, a < r.1 ∨ r.1 + r.2 ≤ a) → e.byte a = d.byte a

/-- Core `c` is about to issue the legal instruction `w` at index `pc` for its selected task `t`, and its program store is free of ECC errors there. -/
def issuing (d : Dev) (c t pc : Nat) (w : IWord) : Prop :=
  d.held = false ∧ d.running c = some t ∧ d.rd (Reg.TASK_PC.at (cix c [t])) = pc ∧ Tab.get 0 (d.core c).prog pc = w ∧
    d.progEcc c pc = 0 ∧ coreLegal w pc = true

/-- Core `c` is at instruction `w`, at index `pc` of its selected task `t`, and its program store is free of ECC errors there. -/
def atInstruction (d : Dev) (c t pc : Nat) (w : IWord) : Prop :=
  d.held = false ∧ d.running c = some t ∧ d.rd (Reg.TASK_PC.at (cix c [t])) = pc ∧ Tab.get 0 (d.core c).prog pc = w ∧ d.progEcc c pc = 0

/-- The commands of core `c` that issue an instruction, with their opcodes (R68). -/
def coreCommands (c : Fin 72) : List (Nat × Instr) :=
  [(0x00, .nop c), (0x01, .endTask c), (0x02, .yieldTask c), (0x04, .loop c), (0x05, .br c), (0x08, .sop c), (0x09, .arop c), (0x0A, .srset c),
   (0x0B, .ldmask c), (0x0C, .take c), (0x0D, .doneLease c), (0x0E, .waittag c), (0x0F, .settag c), (0x10, .mma c), (0x11, .mmat c), (0x12, .dwb c),
   (0x20, .drain c), (0x21, .vadd c), (0x22, .vpool c), (0x23, .vcvt c), (0x24, .vpad c)]

/-- Command `i` raises fault `code` for task `t` at index `pc` of core `c` without an effect of its own (R102 to R104, R486): no task waits any more, each work counter
of the cluster is told at once unless a DONE issued before waits for its writes, and the answer to such a DONE will be discarded. -/
def freezes (i : Instr) (s : State) (c t pc code : Nat) : Prop :=
  completes i s (fun e =>
    e.rd (Reg.MC_STATE.at (cix c)) = 3 ∧ (∀ u < 8, e.rd (Reg.TASK_TSTATE.at (cix c [u])) = 6) ∧
    e.rd (Reg.MC_FAULT_CODE.at (cix c)) = code ∧ e.rd (Reg.MC_FAULT_TASK.at (cix c)) = t ∧ e.rd (Reg.MC_FAULT_PC.at (cix c)) = pc % 4096 ∧
    (e.core c).releases = [] ∧ (∀ q ∈ (e.core c).doneQ, q.void = true) ∧ (∀ u < 8, e.task c u = { s.dev.task c u with wait := .none }) ∧
    (e.core c).acc = (s.dev.core c).acc ∧ e.mem = s.dev.mem ∧ (∀ j, j ≠ c → e.core j = s.dev.core j) ∧
    (∀ n < 32, (∀ q ∈ (e.core c).doneQ, q.wc ≠ n) → (⟨.core c, .wc (c / 9) n, .freeze⟩ : Msg) ∈ e.fabric) ∧
    ∃ r ∈ e.events.store, r.code = 0x0100 + code ∧ r.froze = true ∧ r.sev = 3 ∧ r.kind = 0 ∧ r.index = c)

/-- Every instruction that issues takes the other tasks of its core out of the state of having yielded (R95). -/
def othersYieldOver (c t : Nat) (d e : Dev) : Prop := ∀ u < 8, u ≠ t → e.task c u = { d.task c u with yielded := false }

/-- Of the cores only core `c` changes. -/
def onlyCore (c : Nat) (d e : Dev) : Prop := ∀ j, j ≠ c → e.core j = d.core j

/-- Where control goes after the instruction at index `pc` of a task with registers `k` (R90): the registers and active loops, and the next index. -/
def passed (k : Task) (pc : Nat) : Task × Nat :=
  let r := serveLoops k pc k.nest
  ({ r.1 with nest := r.2.1 }, r.2.2)

/-- Fields a core writes when it selects a task (R65, R98, R108). -/
def selectKeys (c : Nat) : List Nat :=
  [(Reg.MC_STATE.at (cix c)).key, (Reg.MC_TASK.at (cix c)).key, (Reg.MC_SWITCHES.at (cix c)).key] ++
    (List.range 8).flatMap (fun t => [(Reg.TASK_TSTATE.at (cix c [t])).key, (Reg.TASK_SELECTED.at (cix c [t])).key])

/-- Issuing leaves these alone: every register but those of `keys`, PC and ISSUED, every other core and what every other part of the device
holds but messages, of which those in flight are now `f`; ISSUED of task `t` counts one. -/
def issueFrame (c t : Nat) (keys : List Nat) (f : List Msg) (d e : Dev) : Prop :=
  e.rd (Reg.TASK_ISSUED.at (cix c [t])) = (d.rd (Reg.TASK_ISSUED.at (cix c [t])) + 1) % 2 ^ 32 ∧
  regsBut ((Reg.TASK_PC.at (cix c [t])).key :: (Reg.TASK_ISSUED.at (cix c [t])).key :: keys) d e ∧
  e = { d with regs := e.regs, live := e.live, cores := e.cores, padDed := e.padDed, fabric := f } ∧
  onlyCore c d e ∧ othersYieldOver c t d e

/-- Of core `c` only the task contexts change. -/
def onlyTasks (c : Nat) (d e : Dev) : Prop := e.core c = { d.core c with tasks := (e.core c).tasks }

/-- Command `i` issues an instruction of core `c`, task `t`, that leaves the task with registers `k` and passes control past index `at_`:
the loops that end there are served, PC moves on, ISSUED counts, and all else is left alone. -/
def issuesTo (i : Instr) (s : State) (c t at_ : Nat) (k : Task) : Prop :=
  (passed k at_).2 < 4096 → completes i s (fun e =>
    e.task c t = (passed k at_).1 ∧ e.rd (Reg.TASK_PC.at (cix c [t])) = (passed k at_).2 ∧
    issueFrame c t [] s.dev.fabric s.dev e ∧ onlyTasks c s.dev e)

/-- Command `i` issues an instruction of core `c`, task `t`, index `pc`, after which the task waits: state `ts`, wait `w`, messages in flight `f`. WAITCYC, the
cycles of the wait, is a free value (log 22). -/
def waitsAfter (i : Instr) (s : State) (c t pc : Nat) (k : Task) (ts : Nat) (w : Wait) (f : List Msg) : Prop :=
  (passed k pc).2 < 4096 → completes i s (fun e =>
    e.task c t = { (passed k pc).1 with wait := w, stalled := false } ∧ e.rd (Reg.TASK_PC.at (cix c [t])) = (passed k pc).2 ∧
    e.rd (Reg.TASK_TSTATE.at (cix c [t])) = ts ∧ e.rd (Reg.TASK_ISSUED.at (cix c [t])) = (s.dev.rd (Reg.TASK_ISSUED.at (cix c [t])) + 1) % 2 ^ 32 ∧
    regsBut ((Reg.TASK_PC.at (cix c [t])).key :: (Reg.TASK_ISSUED.at (cix c [t])).key :: (Reg.TASK_WAITCYC.at (cix c [t])).key :: selectKeys c) s.dev e ∧
    e = { s.dev with regs := e.regs, live := e.live, cores := e.cores, padDed := e.padDed, fabric := f, free := s.dev.free + 1 } ∧
    onlyCore c s.dev e ∧ othersYieldOver c t s.dev e)

/-- Of the power controller's state only the accounts of model energy change (R353). -/
def onlyEnergy (d e : Dev) : Prop :=
  e.power = { d.power with pollFj := e.power.pollFj, unattrFj := e.power.unattrFj, jobFj := e.power.jobFj, coreFj := e.power.coreFj, otherFj := e.power.otherFj }

/-- What a vector instruction to the own scratchpad leaves alone: every byte but those of `ranges`, every register but PC, ISSUED, the flags and the access counter,
every other core, the accumulators' core memories, and every other part of the device but the accounts of model energy. -/
def vecFrame (c t pc : Nat) (ranges : List (Nat × Nat)) (d e : Dev) : Prop :=
  bytesBut ranges d e ∧ e.task c t = (passed (d.task c t) pc).1 ∧ e.rd (Reg.TASK_PC.at (cix c [t])) = (passed (d.task c t) pc).2 ∧
  regsBut ([Reg.TASK_PC.at (cix c [t]), Reg.TASK_ISSUED.at (cix c [t]), Reg.MC_ACC_SAT.at (cix c), Reg.MC_OUT_SAT.at (cix c), Reg.MC_NAN_INT.at (cix c),
    Reg.MC_E5M2_FLUSH.at (cix c), Reg.MC_SP_ACCESS.at (cix c), Reg.SP_AOW_SAT.at (cix c), Reg.SP_AOW_NAN.at (cix c)].map Fld.key) d e ∧
  e = { d with regs := e.regs, live := e.live, cores := e.cores, mem := e.mem, padDed := e.padDed, free := e.free, power := e.power } ∧ onlyEnergy d e ∧
  onlyCore c d e ∧ onlyTasks c d e ∧ othersYieldOver c t d e

/-- The one event raised is the newest record of the event store, with this code, SOURCE and arguments, the time and the sequence number (R362 to R364). -/
def raised (code kind index : Nat) (args : List Nat) (d e : Dev) : Prop :=
  ∃ r, e.events.store.getLast? = some r ∧ r.code = code ∧ r.kind = kind ∧ r.index = index ∧ r.arg0 = args.getD 0 0 % 2 ^ 32 ∧
    r.arg1 = args.getD 1 0 % 2 ^ 32 ∧ r.arg2 = args.getD 2 0 % 2 ^ 32 ∧ r.time = d.time ∧ r.seq = d.rd (Reg.TOP_EVT_SEQ.at []) ∧
    e.rd (Reg.TOP_EVT_SEQ.at []) = (d.rd (Reg.TOP_EVT_SEQ.at []) + 1) % 2 ^ 32

/-- The event store holds fewer than 1,000 records, so that what one command raises drops none (R365). -/
def roomForEvents (d : Dev) : Prop := d.events.store.length < 1000

/-- Task `t` of core `c` is READY or has been selected at once (R96 to R98). -/
def readyNow (c t : Nat) (e : Dev) : Prop := e.rd (Reg.TASK_TSTATE.at (cix c [t])) = 1 ∨ e.rd (Reg.TASK_TSTATE.at (cix c [t])) = 2

/-- Task `x`, of CLASS `cx` and with `dx` ns to its deadline, ranks above task `y` by rule 1 of R97, in a core where 4 µs times ENH_WINDOW are `near` ns. -/
def ruleOne (near cx cy : Nat) (dx : Int) : Prop := cx = 0 ∧ cy = 1 ∧ dx ≤ near

/-- Task `x` ranks above task `y` (R97). -/
def outranks (near cx cy : Nat) (dx dy : Int) (x y : Nat) : Prop :=
  ruleOne near cx cy dx ∨ (¬ ruleOne near cy cx dy ∧ (dx < dy ∨ (dx = dy ∧ x < y)))

/-- The nanoseconds from the time base to a deadline, signed in 32 bits (R97). -/
def toDeadline (d : Dev) (dl : Nat) : Int := toSigned 32 (dl + 2 ^ 32 - d.time % 2 ^ 32)

/-- Of the tasks of core `c` other than `t` that are READY and enabled, `u` is the one of the highest rank (R97). -/
def firstReady (c t u : Nat) (d : Dev) : Prop :=
  let ready (v : Nat) : Prop := v < 8 ∧ v ≠ t ∧ d.rd (Reg.TASK_TSTATE.at (cix c [v])) = 1 ∧ d.rd (Reg.TASK_ENABLE.at (cix c [v])) = 1
  let cls (v : Nat) := d.rd (Reg.TASK_CLASS.at (cix c [v]))
  let dl (v : Nat) := toDeadline d (d.rd (Reg.TASK_DL.at (cix c [v])))
  ready u ∧ ∀ v, ready v → v ≠ u → outranks (4000 * d.rd (Reg.MC_ENH_WINDOW.at (cix c))) (cls u) (cls v) (dl u) (dl v) u v

/-- Core `c` has selected task `u`, and every other task but `t` is as it was (R98). -/
def selects (c t u : Nat) (d e : Dev) : Prop :=
  e.rd (Reg.MC_TASK.at (cix c)) = u ∧ e.rd (Reg.TASK_TSTATE.at (cix c [u])) = 2 ∧
  ∀ v < 8, v ≠ t → v ≠ u → e.rd (Reg.TASK_TSTATE.at (cix c [v])) = d.rd (Reg.TASK_TSTATE.at (cix c [v]))

/-! ### Stream units -/

/-- Stream unit `u` is ready to issue, at instruction `w`, index `pc` (R165, R172). -/
def suAt (d : Dev) (u pc : Nat) (w : IWord) : Prop :=
  d.held = false ∧ d.suReady u = true ∧ d.rd (Reg.SU_PC.at (six u)) = pc ∧ Tab.get 0 (d.su u).prog pc = w

/-- The commands of stream unit `u` that issue an instruction, with their opcodes (R169). -/
def suCommands (u : Fin 128) : List (Nat × Instr) :=
  [(0x00, .suNop u), (0x01, .suEnd u), (0x02, .suLoop u), (0x03, .pset u), (0x04, .pstr u), (0x05, .nset u), (0x06, .dladd u), (0x07, .suSettag u),
   (0x08, .move u), (0x09, .movet u), (0x0A, .gather u), (0x0B, .frame u), (0x0C, .fence u)]

/-- Where control goes after index `at_` of a stream unit with registers `q` (R90, R171). -/
def suPassed (q : Su) (at_ : Nat) : Su × Nat :=
  let r := suServe q at_ q.nest
  ({ r.1 with nest := r.2.1 }, r.2.2)

/-- Issuing at stream unit `u` leaves these alone: every register but STATE, PC and those of `keys`, every other unit and every other part of the device. -/
def suFrame (u : Nat) (keys : List Nat) (d e : Dev) : Prop :=
  regsBut ((Reg.SU_STATE.at (six u)).key :: (Reg.SU_PC.at (six u)).key :: keys) d e ∧
  e = { d with regs := e.regs, live := e.live, sus := e.sus } ∧ ∀ v, v ≠ u → e.su v = d.su v

/-- Command `i` issues an instruction of stream unit `u` that leaves it with registers `q` and passes control past index `at_`. -/
def suIssuesTo (i : Instr) (s : State) (u at_ : Nat) (q : Su) : Prop :=
  (suPassed q at_).2 < 32 → completes i s (fun e =>
    e.su u = (suPassed q at_).1 ∧ e.rd (Reg.SU_PC.at (six u)) = (suPassed q at_).2 ∧ e.rd (Reg.SU_STATE.at (six u)) = 1 ∧ suFrame u [] s.dev e)

/-- Command `i` freezes stream unit `u` with fault `code` at index `pc` (R175, R176, R363, R375): its work and its tag updates that are not yet applied are gone, its
pipeline is parked, and memory stays. -/
def suFreezes (i : Instr) (s : State) (u pc code : Nat) : Prop :=
  completes i s (fun e =>
    e.rd (Reg.SU_STATE.at (six u)) = 7 ∧ e.rd (Reg.SU_FAULT_CODE.at (six u)) = code ∧ e.rd (Reg.SU_FAULT_PC.at (six u)) = pc % 32 ∧
    (e.su u).work = [] ∧
    (s.dev.rd (Reg.SU_PIPELINE.at (six u)) < 64 → e.parked (s.dev.rd (Reg.SU_PIPELINE.at (six u))) = true) ∧ e.mem = s.dev.mem ∧
    e.fabric = s.dev.fabric.filter (fun m => match m.body with
      | .tag x => x.writer != 0x100 + u
      | _ => true) ∧
    raised (0x0200 + code) 0 (0x100 + u) [code + pc * 256] s.dev e)

/-! ### Fields and counters -/

/-- Field `f` now holds `v`, cut to its width. -/
def holds (e : Dev) (f : Fld) (v : Nat) : Prop := e.rd f = v % 2 ^ f.width

/-- The counter `f` counts `n`; it wraps at its width. -/
def counted (f : Fld) (d e : Dev) (n : Nat := 1) : Prop := e.rd f = (d.rd f + n) % 2 ^ f.width

/-- The keys of a list of fields. -/
def keysOf (l : List Fld) : List Nat := l.map Fld.key

/-- Registers that raising an event writes (R362, R365, R383). -/
def eventKeys : List Nat := keysOf [Reg.TOP_EVT_SEQ.at [], Reg.TOP_MEM_UE.at [], Reg.TOP_EVT_DROPPED.at []]

/-- At a boundary nothing is due but its numbers: no domain is armed, no image or plan is under way, no unit lost, no pipeline marked, no operating point due, no seam
epoch, no ownership. -/
def quiet (d : Dev) : Prop :=
  d.rd (Reg.TOP_ARMED.at []) = 0 ∧ d.cut.kind = 0 ∧ d.imgState ≠ 2 ∧ d.lostCores = [] ∧ d.lostBes = [] ∧ d.planSwitchWanted = false ∧
  d.reinitMarked = [] ∧ d.power.due = false ∧ d.beacon.fe = none

end Sys2Proof.Machine
end

