-- ==== Sys2Proof/Certificates/Slice0/Obligations.lean ====
section
/-! DEFINITION. The statements about the model. A command is said to complete when exec answers a next state; each statement says what that state holds and what is left alone. -/

open Sys2Proof Sys2Proof.Machine

/-! ### Core instructions -/

/-- NOP, SOP, AROP, SRSET and LDMASK (R68, R71, R87 to R90): the one register of the issuing task each writes, the value it takes, PC and ISSUED; nothing else changes. -/
def Obligations.RegisterInstructions : Prop :=
  ∀ (s : State) (c : Fin 72) (t pc : Nat) (w : IWord), issuing s.dev c t pc w →
    let k := s.dev.task c t
    let b : Word := if ifld w 18 2 = 0 then BitVec.ofNat 32 (ifld w 32 32) else if ifld w 18 2 = 1 then k.gv (ifld w 20 3)
      else BitVec.ofNat 32 (k.lcv (ifld w 20 3)).count
    let a := k.gv (ifld w 15 3)
    let fn := ifld w 8 4
    let sh := b.toNat % 32
    let off : Int := (aOffset (k.av (ifld w 12 4)) : Int) + toSigned 32 (ifld w 32 32) +
      (if ifld w 31 1 = 1 then (k.gv (ifld w 25 3)).toInt * k.sv (ifld w 28 3) else 0)
    (ifld w 0 8 = 0x00 → issuesTo (.nop c) s c t pc k) ∧
    (ifld w 0 8 = 0x08 → issuesTo (.sop c) s c t pc (k.setG (ifld w 12 3)
      (if fn = 0 then b else if fn = 1 then a + b else if fn = 2 then a - b else if fn = 3 then a * b
       else if fn = 4 then a &&& b else if fn = 5 then a ||| b else if fn = 6 then a ^^^ b
       else if fn = 7 then a <<< sh else if fn = 8 then a >>> sh else if fn = 9 then a.sshiftRight sh
       else if fn = 10 then (if a.toInt ≤ b.toInt then a else b) else (if a.toInt ≤ b.toInt then b else a)))) ∧
    (ifld w 0 8 = 0x09 → 0 ≤ off → off ≤ 0x3FFFFF → ∃ v : Word,
      aOffset v = off.toNat ∧
      aHandle v = (if ifld w 16 1 = 1 then ifld w 17 6 else aHandle (k.av (ifld w 12 4))) ∧
      aBaserel v = (if ifld w 16 1 = 1 then ifld w 23 1 = 1 else aBaserel (k.av (ifld w 12 4))) ∧
      aHalf v = (if ifld w 64 1 = 1 then (k.gv (ifld w 25 3)).toNat % 2 else if ifld w 16 1 = 1 then ifld w 24 1
        else aHalf (k.av (ifld w 12 4))) ∧
      issuesTo (.arop c) s c t pc (k.setA (ifld w 8 4) v)) ∧
    (ifld w 0 8 = 0x0A → issuesTo (.srset c) s c t pc (k.setS (ifld w 8 3)
      (if ifld w 11 1 = 0 then BitVec.ofNat 32 (ifld w 32 32) else k.gv (ifld w 12 3)))) ∧
    (ifld w 0 8 = 0x0B → ∃ m : BitVec 64,
      (ifld w 11 2 = 0 → m = BitVec.ofNat 64 (ifld w 64 64)) ∧
      (ifld w 11 2 = 1 → ∀ i, i < 64 → m.getLsbD i = decide (i < (k.gv (ifld w 13 3)).toNat)) ∧
      issuesTo (.ldmask c) s c t pc (k.setP (ifld w 8 3) m))

/-- LOOP and BR (R485, R87, R90, R91): a LOOP makes its counter active over PC + 1 to ENDPC, or skips its body when its count is 0; a taken BR goes to TARGET and
ends the loops whose body does not hold it; a BR that is not taken passes control on. -/
def Obligations.LoopAndBranch : Prop :=
  ∀ (s : State) (c : Fin 72) (t pc : Nat) (w : IWord), issuing s.dev c t pc w →
    let k := s.dev.task c t
    let lci := ifld w 8 2
    let stop := ifld w 16 12
    let n := if ifld w 10 1 = 0 then ifld w 32 16 + 1 else (k.gv (ifld w 11 3)).toNat
    let a := (k.gv (ifld w 11 3)).toInt
    let imm := toSigned 32 (ifld w 32 32)
    let cond := ifld w 8 3
    let taken : Prop := cond = 0 ∨ (cond = 1 ∧ a = imm) ∨ (cond = 2 ∧ a ≠ imm) ∨ (cond = 3 ∧ a < imm) ∨ (cond = 4 ∧ imm ≤ a)
    (ifld w 0 8 = 0x04 → lci ∉ k.nest → (∀ j ∈ k.nest, stop ≤ (k.lcv j).stop) →
      (n ≠ 0 → completes (.loop c) s (fun e =>
        e.task c t = { k.setLc lci ⟨n, pc + 1, stop⟩ with nest := lci :: k.nest } ∧
        e.rd (Reg.TASK_PC.at (cix c [t])) = pc + 1 ∧ issueFrame c t [] s.dev.fabric s.dev e ∧ onlyTasks c s.dev e)) ∧
      (n = 0 → issuesTo (.loop c) s c t stop k)) ∧
    (ifld w 0 8 = 0x05 →
      (taken → completes (.br c) s (fun e =>
        e.task c t = { k with nest := k.nest.filter (fun j => (k.lcv j).start ≤ stop && stop ≤ (k.lcv j).stop) } ∧
        e.rd (Reg.TASK_PC.at (cix c [t])) = stop ∧ issueFrame c t [] s.dev.fabric s.dev e ∧ onlyTasks c s.dev e)) ∧
      (¬ taken → issuesTo (.br c) s c t pc k))

/-- The hardware loops (R90), on a NOP at the last index of one or more bodies: going outward, each loop that ends there with a count of 1 or less ends; the first that ends there
with a count above 1 counts down and sends PC to its body's start, and where none does PC goes one further. A loop that ends leaves its counter as it is (log 61). -/
def Obligations.HardwareLoops : Prop :=
  ∀ (s : State) (c : Fin 72) (t pc : Nat) (spent : List Nat), issuing s.dev c t pc 0 →
    let lc (i : Nat) : LoopReg := (s.dev.task c t).lcv i
    (∀ i ∈ spent, (lc i).stop = pc ∧ (lc i).count ≤ 1) →
    (∀ i out, (s.dev.task c t).nest = spent ++ i :: out → (lc i).stop = pc → 1 < (lc i).count → (lc i).start < 4096 → completes (.nop c) s (fun e =>
      e.rd (Reg.TASK_PC.at (cix c [t])) = (lc i).start ∧ (e.task c t).nest = i :: out ∧
      (e.task c t).lcv i = { lc i with count := (lc i).count - 1 } ∧ ∀ j, j ≠ i → (e.task c t).lcv j = lc j)) ∧
    (∀ out, (s.dev.task c t).nest = spent ++ out → (∀ j, out.head? = some j → (lc j).stop ≠ pc) → pc < 4095 → completes (.nop c) s (fun e =>
      e.rd (Reg.TASK_PC.at (cix c [t])) = pc + 1 ∧ (e.task c t).nest = out ∧ (e.task c t).lc = (s.dev.task c t).lc))

/-- END, YIELD and what runs next (R73, R95 to R98): END ends every loop and makes the task IDLE, or starts the pending launch; YIELD leaves the task READY while another task is
READY, and RUN when no other is. After an END without a launch, a YIELD and a TAKE that waits, the core selects the READY task of the highest rank. PC stays at an END (log 61), and
a task that a launch finds with a DRAIN still waiting for credit waits with it (log 172). -/
def Obligations.EndAndYield : Prop :=
  ∀ (s : State) (c : Fin 72) (t pc : Nat) (w : IWord), issuing s.dev c t pc w →
    let k := s.dev.task c t
    let st (e : Dev) (u : Nat) := e.rd (Reg.TASK_TSTATE.at (cix c [u]))
    let alone : Prop := ∀ u < 8, u ≠ t → st s.dev u ≠ 2
    (ifld w 0 8 = 0x01 → k.pending = none → completes (.endTask c) s (fun e =>
      st e t = 0 ∧ e.task c t = { k with nest := [], wait := .none } ∧ issueFrame c t (selectKeys c) s.dev.fabric s.dev e ∧
      e.rd (Reg.TASK_PC.at (cix c [t])) = pc ∧ (alone → ∀ u, firstReady c t u s.dev → selects c t u s.dev e))) ∧
    (ifld w 0 8 = 0x01 → ∀ l, k.pending = some l → completes (.endTask c) s (fun e =>
      (s.dev.drainHeld c t = false → st e t = 1 ∨ st e t = 2) ∧ (s.dev.drainHeld c t = true → st e t = 4) ∧
      e.task c t = { k with nest := [], wait := (if s.dev.drainHeld c t then .credit else .none), pending := none, stalled := false, yielded := false, g := Tab.put 0 k.g 0 l.word } ∧
      e.rd (Reg.TASK_PC.at (cix c [t])) = s.dev.rd (Reg.TASK_ENTRY_PC.at (cix c [t])) % 4096 ∧
      e.rd (Reg.TASK_DL.at (cix c [t])) = l.deadline % 2 ^ 32 ∧ e.rd (Reg.TASK_LAUNCH.at (cix c [t])) = l.word.toNat ∧
      issueFrame c t ((Reg.TASK_DL.at (cix c [t])).key :: (Reg.TASK_LAUNCH.at (cix c [t])).key :: selectKeys c) s.dev.fabric s.dev e)) ∧
    (ifld w 0 8 = 0x02 → (passed k pc).2 < 4096 → completes (.yieldTask c) s (fun e =>
      ((∃ u < 8, u ≠ t ∧ st s.dev u = 1 ∧ s.dev.rd (Reg.TASK_ENABLE.at (cix c [u])) = 1) → st e t = 1) ∧
      ((∀ u < 8, u ≠ t → st s.dev u ≠ 1 ∧ st s.dev u ≠ 2) → st e t = 2) ∧ (alone → ∀ u, firstReady c t u s.dev → selects c t u s.dev e) ∧
      e.task c t = { (passed k pc).1 with yielded := true } ∧ e.rd (Reg.TASK_PC.at (cix c [t])) = (passed k pc).2 ∧
      issueFrame c t (selectKeys c) s.dev.fabric s.dev e)) ∧
    (ifld w 0 8 = 0x0C → (passed k pc).2 < 4096 → alone → ∀ u, firstReady c t u s.dev → completes (.take c) s (selects c t u s.dev))

/-- TAKE, DONE and WAITTAG (R87, R92, R94, R96, R210): TAKE asks work counter WC of the cluster and waits in WAIT_TAKE; DONE waits too, and its message leaves at once
when no earlier write of the task is under way; WAITTAG goes on when the half's tag holds WANT and, with GCHK, the generation expected, and waits in WAIT_TAG when the
state differs or the generation is behind. -/
def Obligations.TakeDoneWait : Prop :=
  ∀ (s : State) (c : Fin 72) (t pc : Nat) (w : IWord), issuing s.dev c t pc w →
    let k := s.dev.task c t
    let wc := Node.wc (c / 9) (ifld w 8 5)
    let ga := ifld w 13 3
    let h := ifld w 8 6
    let half := if ifld w 14 2 = 2 then (k.gv (ifld w 18 3)).toNat % 2 else ifld w 14 2
    let slot := 2 * h + half
    let want := ifld w 16 1
    let gchk := ifld w 17 1
    let gen := (k.gv (ifld w 18 3)).toNat % 65536
    let diff := toSigned 16 (s.dev.rd (Reg.SLOT_GEN.at (cix c [slot])) + 65536 - gen)
    (ifld w 0 8 = 0x0C → waitsAfter (.take c) s c t pc k 5 (.take ga) (s.dev.fabric ++ [⟨.core c, wc, .take t⟩])) ∧
    (ifld w 0 8 = 0x0D → (s.dev.core c).doneQ = [] → (s.dev.core c).freezeOwed = [] → (s.dev.core c).closeOwed = false →
      (s.dev.taskWrites c t = false → waitsAfter (.doneLease c) s c t pc k 5 (.done (ifld w 16 3))
        (s.dev.fabric ++ [⟨.core c, wc, .done t (k.gv ga).toNat (k.gv (ga + 1)).toNat⟩])) ∧
      (s.dev.taskWrites c t = true → waitsAfter (.doneLease c) s c t pc k 5 (.done (ifld w 16 3)) s.dev.fabric ∧
        ((passed k pc).2 < 4096 → completes (.doneLease c) s (fun e =>
          (e.core c).doneQ = [⟨t, ifld w 8 5, (k.gv ga).toNat, (k.gv (ga + 1)).toNat, false⟩])))) ∧
    (ifld w 0 8 = 0x0E → s.dev.handleFor c t h = true → s.dev.rd (Reg.HND_KIND.at (cix c [h])) = 0 →
      (s.dev.rd (Reg.HND_TAGMODE.at (cix c [h])) = 1 ∨ s.dev.rd (Reg.HND_TAGMODE.at (cix c [h])) = 2) →
      (half = 1 → s.dev.rd (Reg.HND_HALVES.at (cix c [h])) = 1) → s.dev.rd (Reg.SLOT_FULL.at (cix c [slot])) ≤ 1 →
      (s.dev.rd (Reg.SLOT_FULL.at (cix c [slot])) = want → (gchk = 0 ∨ diff = 0) → issuesTo (.waittag c) s c t pc k) ∧
      ((s.dev.rd (Reg.SLOT_FULL.at (cix c [slot])) ≠ want ∨ (gchk = 1 ∧ diff < 0)) →
        waitsAfter (.waittag c) s c t pc k 3 (.tag slot (want = 1) (gchk = 1) gen pc) s.dev.fabric))

/-- SETTAG (R87, R93, R139, R146): the task goes on, and a release of the named half waits in the core behind the earlier ones, addressed to the own scratchpad or, for a
REMOTE handle, to the target that the handle names; it waits for a write of the task through the handle that the vector unit has still to make, and an EMPTY also for a read. -/
def Obligations.SetTag : Prop :=
  ∀ (s : State) (c : Fin 72) (t pc : Nat) (w : IWord), issuing s.dev c t pc w → ifld w 0 8 = 0x0F →
    let k := s.dev.task c t
    let h := ifld w 8 6
    let half := if ifld w 14 2 = 2 then (k.gv (ifld w 19 3)).toNat % 2 else ifld w 14 2
    let remote := s.dev.rd (Reg.HND_KIND.at (cix c [h])) = 1
    s.dev.handleFor c t h = true →
    (remote ∨ s.dev.rd (Reg.HND_TAGMODE.at (cix c [h])) = 1 ∨ s.dev.rd (Reg.HND_TAGMODE.at (cix c [h])) = 2) →
    (half = 1 → remote → s.dev.rd (Reg.HND_THALVES.at (cix c [h])) = 1) →
    (half = 1 → ¬ remote → s.dev.rd (Reg.HND_HALVES.at (cix c [h])) = 1) → (passed k pc).2 < 4096 →
    completes (.settag c) s (fun e => ∃ r : Release,
      (e.core c).releases = (s.dev.core c).releases ++ [r] ∧ r.task = t ∧ r.handle = h ∧
      r.upd.writer = c ∧ r.upd.half = half ∧ r.upd.full = decide (ifld w 16 1 = 1) ∧ r.upd.gmode = ifld w 17 2 ∧
      r.upd.gen = (k.gv (ifld w 19 3)).toNat % 65536 ∧
      (¬ remote → r.upd.tcore = c ∧ r.upd.handle = h ∧ r.upd.route = none) ∧
      (remote → r.upd.tcore = s.dev.rd (Reg.HND_BASE_ROW.at (cix c [h])) % 128 ∧ r.upd.handle = s.dev.rd (Reg.HND_SIZE.at (cix c [h])) % 64 ∧
        r.upd.route = some (s.dev.rd (Reg.HND_SIZE.at (cix c [h])) / 64 % 16)) ∧
      ((s.dev.core c).vecNext = none → (s.dev.core c).drainQ = [] → r.behind = 0) ∧
      (∀ j, (s.dev.core c).vecNext = some j → j.task = t →
        (vecDest j.ins j.regs = h → r.behind = 2) ∧ (vecDest j.ins j.regs ≠ h → h ∈ vecReads j.ins j.regs → ifld w 16 1 = 0 → r.behind = 3)) ∧
      e.task c t = (passed k pc).1 ∧ e.rd (Reg.TASK_PC.at (cix c [t])) = (passed k pc).2 ∧
      issueFrame c t [] s.dev.fabric s.dev e ∧
      e.core c = { s.dev.core c with tasks := (e.core c).tasks, releases := (e.core c).releases })

/-- The faults of a core (R68, R72, R89 to R92, R102 to R104): an instruction that fails a check at issue changes no register of a task, no accumulator and no byte
of memory; the core is FROZEN with every task HALTED, MC_FAULT holds the code, the task and the index, pending releases are gone, the work counters are told,
and the event 0x0100 + code is raised. A touched bank that is power-gated (R156) and a pass of control out of the program store (R91): BANK_OFF at issue of an MMA, a DRAIN or a VCVT, and PC_RANGE
with index 4,095 by the instruction there (log 61). Where an instruction fails several checks the order in which they are reported is the model's (log 62). -/
def Obligations.CoreFaults : Prop :=
  (∀ (s : State) (c : Fin 72) (t pc : Nat) (w : IWord), atInstruction s.dev c t pc w →
     let k := s.dev.task c t
     let h := ifld w 8 6
     let half := if ifld w 14 2 = 2 then (k.gv (ifld w 18 3)).toNat % 2 else ifld w 14 2
     let off : Int := (aOffset (k.av (ifld w 12 4)) : Int) + toSigned 32 (ifld w 32 32) +
       (if ifld w 31 1 = 1 then (k.gv (ifld w 25 3)).toInt * k.sv (ifld w 28 3) else 0)
     (∀ oi ∈ coreCommands c, coreOpcodes.contains (ifld w 0 8) = false → freezes oi.2 s c t pc 1) ∧
     (∀ oi ∈ coreCommands c, ifld w 0 8 = oi.1 → coreLegal w pc = false → freezes oi.2 s c t pc 1) ∧
     (coreLegal w pc = true →
       (ifld w 0 8 = 0x10 → s.dev.rd (Reg.MC_ACC_CNT.at (cix c [t])) ≤ ifld w 28 3 → freezes (.mma c) s c t pc 2) ∧
       (ifld w 0 8 = 0x0E → s.dev.rd (Reg.HND_VALID.at (cix c [h])) = 0 → freezes (.waittag c) s c t pc 3) ∧
       (ifld w 0 8 = 0x0F → s.dev.rd (Reg.HND_VALID.at (cix c [h])) = 0 → freezes (.settag c) s c t pc 3) ∧
       (ifld w 0 8 = 0x09 → (off < 0 ∨ 0x3FFFFF < off) → freezes (.arop c) s c t pc 4) ∧
       (ifld w 0 8 = 0x04 → ifld w 8 2 ∈ k.nest → freezes (.loop c) s c t pc 6) ∧
       (ifld w 0 8 = 0x04 → (∃ j ∈ k.nest, (k.lcv j).stop < ifld w 16 12) → freezes (.loop c) s c t pc 6) ∧
       (ifld w 0 8 = 0x0E → s.dev.handleFor c t h = true → s.dev.rd (Reg.HND_KIND.at (cix c [h])) = 0 →
         s.dev.rd (Reg.HND_TAGMODE.at (cix c [h])) = 1 → (half = 1 → s.dev.rd (Reg.HND_HALVES.at (cix c [h])) = 1) →
         s.dev.rd (Reg.SLOT_FULL.at (cix c [2 * h + half])) = ifld w 16 1 → ifld w 17 1 = 1 →
         0 < toSigned 16 (s.dev.rd (Reg.SLOT_GEN.at (cix c [2 * h + half])) + 65536 - (k.gv (ifld w 18 3)).toNat % 65536) →
         freezes (.waittag c) s c t pc 7))) ∧
  (∀ (s : State) (c : Fin 72) (t pc : Nat) (w : IWord), issuing s.dev c t pc w →
     let k := s.dev.task c t
     let x : Ctx := ⟨c, t, pc, w, k⟩
     (ifld w 0 8 = 0x10 → (∀ r ∈ arrRows x, s.dev.slotOk x (ifld w 28 3 + r / 64) = true) → ∀ la lw ls spans, s.dev.mmaSpans x = some (la, lw, ls, spans) →
       spans.all Span.inside = true → spans.any (fun q => q.touches (s.dev.anyGated c)) = true → freezes (.mma c) s c t pc 8) ∧
     (ifld w 0 8 = 0x20 → (s.dev.drainCheck x).1 = .fault 8 → freezes (.drain c) s c t pc 8) ∧
     (ifld w 0 8 = 0x23 → ∀ l n, s.dev.vecSpans x = some (l, n) → n.all Span.inside = true →
       n.any (fun q => q.touches (s.dev.anyGated c)) = true → freezes (.vcvt c) s c t pc 8) ∧
     (ifld w 0 8 = 0x00 → pc = 4095 → k.nest = [] → completes (.nop c) s (fun e =>
       e.rd (Reg.MC_STATE.at (cix c)) = 3 ∧ e.rd (Reg.MC_FAULT_CODE.at (cix c)) = 5 ∧ e.rd (Reg.MC_FAULT_PC.at (cix c)) = 4095 ∧
       e.rd (Reg.MC_FAULT_TASK.at (cix c)) = t ∧ e.mem = s.dev.mem)))

/-! ### Array and vector instructions -/

/-- MMA and MMAT (R46, R49, R50, R66, R74 to R78): every accumulator element takes, in the order of the problems or taps, the accumulation of the products of its
activation row and weight column where the masks allow it; other accumulators, other registers and all of memory stay. The instruction need not wait for the vector
unit; scratchpads and accumulators are free of ECC errors. -/
def Obligations.MmaAccumulates : Prop :=
  ∀ (s : State) (c : Fin 72) (t pc : Nat) (w : IWord) (la lw ls : Loc) (spans : List Span), issuing s.dev c t pc w →
    let d := s.dev
    let k := d.task c t
    let x : Ctx := ⟨c, t, pc, w, k⟩
    let a := x.mma
    let ps := if ifld w 0 8 = 0x10 then mmaProblems x else mmatTaps x
    let act := k.av (ifld w 16 4)
    let wgt := k.av (ifld w 20 4)
    let scl := k.av (ifld w 24 4)
    let srow := k.sv (ifld w 57 3)
    let first := (d.rd (Reg.MC_ACC_BASE.at (cix c [t])) + a.slot) * 4096
    let rowOf (p : Problem) (m : Nat) : List Machine.Num :=
      (unpackElems a.afmt (d.bytes (spAddr c ((la.base + aOffset act : Nat) + p.act + m * srow : Int).toNat) (fmtBytes a.afmt a.k)) a.k).map (elemNum a.afmt)
    let colOf (p : Problem) (n : Nat) : List Machine.Num :=
      (unpackElems a.wfmt (d.bytes (spAddr c (((lw.base + aOffset wgt : Nat) + p.wgt : Int).toNat + n * weightPitch a.wfmt)) (fmtBytes a.wfmt a.k)) a.k).map
        (elemNum a.wfmt)
    let sclOf (p : Problem) (n : Nat) : List Nat :=
      if isMx a.wfmt then (List.range ((a.k + 31) / 32)).map (fun b =>
        (d.byte (spAddr c (((ls.base + aOffset scl : Nat) + p.scl : Int).toNat + b * 64 + n))).toNat) else []
    (ifld w 0 8 = 0x10 ∨ ifld w 0 8 = 0x11) → d.ecc = [] → (d.core c).ecc = [] → d.arrWaits x = false → (passed k pc).2 < 4096 →
    (∀ p ∈ ps, ∀ m < a.m, d.slotOk x (a.slot + (p.row + m) / 64) = true) →
    d.resolve c t act false = some la → d.resolve c t wgt false = some lw → (isMx a.wfmt = true → d.resolve c t scl false = some ls) →
    problemSpans a la lw (if isMx a.wfmt then some ls else none) (aOffset act) (aOffset wgt) (aOffset scl) srow ps = spans →
    d.checkSpans c spans = .ok →
    completes (if ifld w 0 8 = 0x10 then .mma c else .mmat c) s (fun e =>
      e.task c t = (passed k pc).1 ∧ e.rd (Reg.TASK_PC.at (cix c [t])) = (passed k pc).2 ∧
      (∀ r n, n < 64 → Tab.get 0 (e.core c).acc (first + r * 64 + n) =
        ps.foldl (fun v p => if p.row ≤ r ∧ r < p.row + a.m ∧ n < a.n ∧ (k.pv (ifld w 51 3)).getLsbD (r - p.row) = true ∧ (k.pv (ifld w 54 3)).getLsbD n = true
          then (accumulate a.afmt a.wfmt (if p.zero then 0 else v) (rowOf p (r - p.row)) (colOf p n) (sclOf p n)).1 else v)
          (Tab.get 0 (d.core c).acc (first + r * 64 + n))) ∧
      (∀ i < first, Tab.get 0 (e.core c).acc i = Tab.get 0 (d.core c).acc i) ∧
      (d.rd (Reg.MC_CNT_HOLD.at (cix c)) = 0 → (e.core c).mac = ((d.core c).mac + ps.length * (a.m * a.k * a.n)) % 2 ^ 64) ∧
      regsBut ([Reg.TASK_PC.at (cix c [t]), Reg.TASK_ISSUED.at (cix c [t]), Reg.MC_ACC_SAT.at (cix c), Reg.MC_NAN_ACC.at (cix c), Reg.MC_SP_ACCESS.at (cix c),
        Reg.MC_BUSY.at (cix c)].map Fld.key) d e ∧
      e = { d with regs := e.regs, live := e.live, cores := e.cores, padDed := e.padDed, free := e.free, power := e.power } ∧ onlyEnergy d e ∧
      onlyCore c d e ∧ othersYieldOver c t d e)

/-- DWB (R79, R80) that need not wait for the vector unit: column n of group n / CO of each output row accumulates its group's taps under the weights of that column. -/
def Obligations.DwbAccumulates : Prop :=
  ∀ (s : State) (c : Fin 72) (t pc : Nat) (w : IWord) (la lw : Loc), issuing s.dev c t pc w →
    let d := s.dev
    let k := d.task c t
    let x : Ctx := ⟨c, t, pc, w, k⟩
    let a := x.dwb
    let afmt := ifld w 8 4
    let wfmt := ifld w 12 4
    let act := k.av (ifld w 16 4)
    let wgt := k.av (ifld w 20 4)
    let kk := a.fh * a.fw * a.g * a.ci
    let first := (d.rd (Reg.MC_ACC_BASE.at (cix c [t])) + ifld w 28 3) * 4096 + ifld w 89 6 * 64
    let rowOf (m : Nat) : List Machine.Num := (dwbTapOffsets x m).flatMap (fun o =>
      (unpackElems afmt (d.bytes (spAddr c ((la.base + aOffset act : Nat) + o : Int).toNat) (fmtBytes afmt (a.g * a.ci))) (a.g * a.ci)).map (elemNum afmt))
    let ws : List Machine.Num := (unpackElems wfmt (d.bytes (spAddr c (lw.base + aOffset wgt)) (fmtBytes wfmt (kk * a.co))) (kk * a.co)).map (elemNum wfmt)
    ifld w 0 8 = 0x12 → d.ecc = [] → (d.core c).ecc = [] → d.arrWaits x = false → (passed k pc).2 < 4096 →
    d.slotOk x (ifld w 28 3) = true → d.resolve c t act false = some la → d.resolve c t wgt false = some lw →
    d.checkSpans c ((List.range a.m).flatMap (fun m => (dwbTapOffsets x m).map (fun o =>
      (⟨la, aOffset act + o, fmtBytes afmt (a.g * a.ci)⟩ : Span))) ++ [⟨lw, aOffset wgt, fmtBytes wfmt (kk * a.co)⟩]) = .ok →
    completes (.dwb c) s (fun e =>
      e.task c t = (passed k pc).1 ∧ e.rd (Reg.TASK_PC.at (cix c [t])) = (passed k pc).2 ∧
      (∀ m n, m < a.m → n < 64 → Tab.get 0 (e.core c).acc (first + m * 64 + n) =
        if n < a.g * a.co ∧ (k.pv (ifld w 59 3)).getLsbD m = true ∧ (k.pv (ifld w 86 3)).getLsbD n = true
          then (accumulate afmt wfmt (if ifld w 31 1 = 1 then 0 else Tab.get 0 (d.core c).acc (first + m * 64 + n)) (rowOf m) (dwbColumn a ws n) []).1
          else Tab.get 0 (d.core c).acc (first + m * 64 + n)) ∧
      (∀ i, (i < first ∨ first + a.m * 64 ≤ i) → Tab.get 0 (e.core c).acc i = Tab.get 0 (d.core c).acc i) ∧
      (d.rd (Reg.MC_CNT_HOLD.at (cix c)) = 0 → (e.core c).mac = ((d.core c).mac + a.m * kk * (a.g * a.co)) % 2 ^ 64) ∧
      e = { d with regs := e.regs, live := e.live, cores := e.cores, padDed := e.padDed, free := e.free, power := e.power } ∧ onlyEnergy d e ∧
      onlyCore c d e ∧ othersYieldOver c t d e)

/-- VADD, VCVT and VPOOL (R53 to R60, R83, R84) with a free vector unit: each element of the destination, which lies in the own scratchpad, holds the conversion of its
value; of output elements of VPOOL that overlap the one at the highest address does, and of those at one address the last; no other byte changes. The model's choices: inputs are read before any write (log 62);
the INT32 maximum is rounded to FP32 (log 132), zeros of either sign compare as equal (log 130), a float average starts from its first element (log 133), curve indexes of -0 (log 176); a value
the manual leaves open is an unspecified function of the operands (log 21, log 23). -/
def Obligations.VectorElements : Prop :=
  ∀ (s : State) (c : Fin 72) (t pc : Nat) (w : IWord) (ld lx : Loc) (ys : List Loc) (spans : List Span), issuing s.dev c t pc w →
    let d := s.dev
    let k := d.task c t
    let x : Ctx := ⟨c, t, pc, w, k⟩
    let cnt := ifld w 32 16 + 1
    let xf := ifld w 8 4
    let ofmt := ifld w 12 4
    let e1 := fmtBytes ofmt 1
    let src (l : Loc) (a i : Nat) : Nat := d.readLe (spAddr c (l.base + aOffset (k.av (ifld w a 4)) + i)) (fmtBytes xf 1)
    let act (kind curve : Nat) (lo hi v : Word) : Word :=
      if kind = 3 then evalCurve (d.mcCurve c curve) (fun j => Tab.get 0 (d.core c).curve (curve * 256 + j)) v else applyAct kind lo hi v
    d.ecc = [] → (d.core c).ecc = [] → (passed k pc).2 < 4096 → (d.core c).drainQ = [] →
    d.vecSpans x = some (ld :: lx :: ys, spans) → d.checkSpans c spans = .ok →
    (ifld w 0 8 = 0x21 → ∀ ly, ys = [ly] → completes (.vadd c) s (fun e =>
      let dst := ld.base + aOffset (k.av (ifld w 24 4))
      (∀ i < cnt,
        let px := round32 ((vecNum xf (src lx 16 (i * fmtBytes xf 1))).mul (num32 (k.gv (ifld w 48 3))))
        let py := round32 ((vecNum (ifld w 28 4) (d.readLe (spAddr c (ly.base + aOffset (k.av (ifld w 20 4)) + i * fmtBytes (ifld w 28 4) 1))
          (fmtBytes (ifld w 28 4) 1))).mul (num32 (k.gv (ifld w 51 3))))
        e.bytes (spAddr c (dst + i * e1)) e1 = leBytes e1 (outConv ofmt (act (ifld w 54 3) (ifld w 57 2) (k.gv (ifld w 59 3)) (k.gv (ifld w 64 3)) (add32 px py))).1) ∧
      vecFrame c t pc [(spAddr c dst, cnt * e1)] d e)) ∧
    (ifld w 0 8 = 0x23 → completes (.vcvt c) s (fun e =>
      let dst := ld.base + aOffset (k.av (ifld w 20 4))
      (∀ i < cnt,
        let v := round32 ((vecNum xf (src lx 16 (i * fmtBytes xf 1))).mul (num32 (k.gv (ifld w 48 3))))
        e.bytes (spAddr c (dst + i * e1)) e1 = leBytes e1 (outConv ofmt (act (ifld w 51 3) (ifld w 54 2) (k.gv (ifld w 56 3)) (k.gv (ifld w 59 3)) v)).1) ∧
      vecFrame c t pc [(spAddr c dst, cnt * e1)] d e)) ∧
    (ifld w 0 8 = 0x22 → completes (.vpool c) s (fun e =>
      let dst (p : Nat) : Nat := ((ld.base + aOffset (k.av (ifld w 20 4)) : Nat) + p * k.sv (ifld w 41 3) : Int).toNat
      let at_ (p ch : Nat) : Nat := dst p + ch * e1
      let beyond (p ch q cq : Nat) : Prop := at_ p ch < at_ q cq ∨ (at_ p ch = at_ q cq ∧ (p < q ∨ (p = q ∧ ch < cq)))
      (∀ p ≤ ifld w 44 12, ∀ ch ≤ ifld w 56 8, (∀ q ≤ ifld w 44 12, ∀ cq ≤ ifld w 56 8, beyond p ch q cq → at_ p ch + e1 ≤ at_ q cq) →
        let win := (List.range (ifld w 32 3 + 1)).flatMap (fun (i : Nat) => (List.range (ifld w 35 3 + 1)).map (fun (j : Nat) =>
          vecNum xf (d.readLe (spAddr c ((lx.base + aOffset (k.av (ifld w 16 4)) : Nat) + (i * k.sv (ifld w 25 3) +
            (p * (ifld w 38 3 + 1) + j : Nat) * k.sv (ifld w 28 3) + ((ch * fmtBytes xf 1 : Nat) : Int)) : Int).toNat) (fmtBytes xf 1))))
        let n := if ifld w 64 6 = 0 then (ifld w 32 3 + 1) * (ifld w 35 3 + 1) else ifld w 64 6
        e.bytes (spAddr c (at_ p ch)) e1 =
          leBytes e1 (outConv ofmt (if ifld w 24 1 = 0 then round32 (poolMax win) else poolAvg xf n win)).1) ∧
      vecFrame c t pc ((List.range (ifld w 44 12 + 1)).map (fun p => (spAddr c (dst p), (ifld w 56 8 + 1) * e1))) d e))

/-- DRAIN to the own scratchpad (R52 to R55, R81, R82, R153) with a free vector unit, where no two elements overlap: each element holds the accumulator word, its conversion, or
its sum with what stood there; no other byte changes and the accumulators stay. -/
def Obligations.DrainElements : Prop :=
  ∀ (s : State) (c : Fin 72) (t pc : Nat) (w : IWord) (base lim bb sb : Nat), issuing s.dev c t pc w →
    let d := s.dev
    let k := d.task c t
    let x : Ctx := ⟨c, t, pc, w, k⟩
    let a := drainArgs x
    let e1 := fmtBytes a.ofmt 1
    let at_ (m n : Nat) : Nat := ((base + aOffset (k.av (ifld w 16 4)) : Nat) + drainDest a m n : Int).toNat
    ifld w 0 8 = 0x20 → d.ecc = [] → (d.core c).ecc = [] → (passed k pc).2 < 4096 → (d.core c).drainQ = [] →
    d.drainCheck x = (.ok, some (.own base lim, bb, sb)) →
    (∀ m n m' n', m < a.rows → n < a.cols → m' < a.rows → n' < a.cols → (m, n) ≠ (m', n') → at_ m n + e1 ≤ at_ m' n' ∨ at_ m' n' + e1 ≤ at_ m n) →
    completes (.drain c) s (fun e =>
      (∀ m < a.rows, ∀ n < a.cols,
        let acc := Tab.get 0 (d.core c).acc ((d.rd (Reg.MC_ACC_BASE.at (cix c [t])) + a.slot + (a.row0 + m) / 64) * 4096 + (a.row0 + m) % 64 * 64 + n)
        let old := BitVec.ofNat 32 (d.readLe (spAddr c (at_ m n)) 4)
        let word (mode b : Nat) : Option Word := if mode = 0 then none else some (BitVec.ofNat 32 (d.readLe (spAddr c (b + (if mode = 2 then 4 * n else 0))) 4))
        let v := (scaleElem a.accf acc (word a.bmode bb) (word a.smode sb)).1
        let r := if a.act.kind = 3 then evalCurve (d.mcCurve c a.act.curve) (fun j => Tab.get 0 (d.core c).curve (a.act.curve * 256 + j)) v
          else applyAct a.act.kind a.act.lo a.act.hi v
        e.bytes (spAddr c (at_ m n)) e1 =
          if a.conv then leBytes e1 (outConv a.ofmt r).1
          else if a.aow = 1 then leBytes 4 (ofSigned 32 (satInt 32 (old.toInt + acc.toInt)).1)
          else if a.aow = 2 then leBytes 4 (add32 old acc).toNat
          else leBytes 4 acc.toNat) ∧
      (e.core c).acc = (d.core c).acc ∧
      vecFrame c t pc ((List.range a.rows).flatMap (fun m => (List.range a.cols).map (fun n => (spAddr c (at_ m n), e1)))) d e)

/-- VPAD (R85) with a free vector unit, where no two pixels share a byte: every border pixel is zero, or a copy of the pixel of the buffer that the mode names for its row and its column;
the buffer itself and every byte outside the border stay. -/
def Obligations.PadBorder : Prop :=
  ∀ (s : State) (c : Fin 72) (t pc : Nat) (w : IWord) (lx : Loc) (spans : List Span), issuing s.dev c t pc w →
    let d := s.dev
    let k := d.task c t
    let x : Ctx := ⟨c, t, pc, w, k⟩
    let wid := ifld w 32 12 + 1
    let hgt := ifld w 44 12 + 1
    let size := (ifld w 72 8 + 1) * fmtBytes (ifld w 8 4) 1
    let mode := ifld w 12 2
    let off (y z : Int) : Int := (lx.base + aOffset (k.av (ifld w 16 4)) : Nat) + y * k.sv (ifld w 20 3) + z * k.sv (ifld w 23 3)
    let inside (y z : Int) : Prop := 0 ≤ y ∧ y < hgt ∧ 0 ≤ z ∧ z < wid
    let padded (y z : Int) : Prop := -(ifld w 64 4 : Int) ≤ y ∧ y < hgt + ifld w 68 4 ∧ -(ifld w 56 4 : Int) ≤ z ∧ z < wid + ifld w 60 4
    let near (n : Nat) (p : Int) : Int := if 0 ≤ p ∧ p < n then p else (padSource mode n p).getD 0
    ifld w 0 8 = 0x24 → d.ecc = [] → (d.core c).ecc = [] → (passed k pc).2 < 4096 → (d.core c).drainQ = [] →
    d.vecSpans x = some ([lx], spans) → d.checkSpans c spans = .ok →
    (∀ y z y' z', padded y z → padded y' z' → (y, z) ≠ (y', z') → off y z + size ≤ off y' z' ∨ off y' z' + size ≤ off y z) →
    completes (.vpad c) s (fun e =>
      (∀ y z, padded y z → ¬ inside y z → e.bytes (spAddr c (off y z).toNat) size =
        if mode = 0 then List.replicate size 0 else d.bytes (spAddr c (off (near hgt y) (near wid z)).toNat) size) ∧
      (∀ a, (∀ y z, padded y z → ¬ inside y z → a < spAddr c (off y z).toNat ∨ spAddr c (off y z).toNat + size ≤ a) → e.byte a = d.byte a) ∧
      e.task c t = (passed k pc).1 ∧ e.rd (Reg.TASK_PC.at (cix c [t])) = (passed k pc).2 ∧ othersYieldOver c t d e)

/-- A vector instruction behind a DRAIN that waits for credit (R69, R148): it issues into the waiting place of the vector unit and runs later; a DRAIN to
another core sends its transactions, one credit of its route each, and without credit keeps them while its task waits in WAIT_CREDIT. An array instruction that a
waiting vector instruction stands before (R39, R70) issues into a place of the array unit, and with both places taken it does not issue. -/
def Obligations.VectorUnitWaits : Prop :=
  ∀ (s : State) (c : Fin 72) (t pc : Nat) (w : IWord), issuing s.dev c t pc w →
    let d := s.dev
    let k := d.task c t
    let x : Ctx := ⟨c, t, pc, w, k⟩
    (∀ i, (ifld w 0 8, i) ∈ [(0x20, Instr.drain c), (0x21, Instr.vadd c), (0x22, Instr.vpool c), (0x23, Instr.vcvt c), (0x24, Instr.vpad c)] →
      d.vecCheck x = .ok → (d.core c).drainQ ≠ [] →
      ((d.core c).vecNext = none → (passed k pc).2 < 4096 → completes i s (fun e =>
        (e.core c).vecNext = some ⟨t, pc, w, k⟩ ∧ e.task c t = (passed k pc).1 ∧ e.rd (Reg.TASK_PC.at (cix c [t])) = (passed k pc).2 ∧
        issueFrame c t [] d.fabric d e)) ∧
      ((d.core c).vecNext ≠ none → completes i s (fun e => e = d.padOk))) ∧
    (∀ i, (ifld w 0 8, i) ∈ [(0x10, Instr.mma c), (0x11, Instr.mmat c), (0x12, Instr.dwb c)] → d.arrCheck x = .ok → d.arrWaits x = true →
      ((d.core c).arrQ.length < 2 → (passed k pc).2 < 4096 → completes i s (fun e =>
        (e.core c).arrQ = (d.core c).arrQ ++ [⟨t, pc, w, k⟩] ∧ (e.core c).acc = (d.core c).acc ∧ e.task c t = (passed k pc).1 ∧
        e.rd (Reg.TASK_PC.at (cix c [t])) = (passed k pc).2 ∧ issueFrame c t [] d.fabric d e)) ∧
      (2 ≤ (d.core c).arrQ.length → completes i s (fun e => e = d.padOk))) ∧
    (ifld w 0 8 = 0x20 → (passed k pc).2 < 4096 → (d.core c).drainQ = [] → d.ecc = [] → (d.core c).ecc = [] →
      ∀ tc h r half lim bb sb, d.drainCheck x = (.ok, some (.remote tc h r half lim, bb, sb)) → d.rd (Reg.SP_OUTRT_CRED.at (cix c [r])) = 0 →
      completes (.drain c) s (fun e =>
        e.fabric = d.fabric ∧ (e.core c).drainQ ≠ [] ∧ (∀ q ∈ (e.core c).drainQ, q.route = some r ∧ q.tcore = tc ∧ q.handle = h ∧ q.half = half ∧ q.writer = c ∧ q.task = t) ∧
        e.rd (Reg.TASK_TSTATE.at (cix c [t])) = 4 ∧ (e.task c t).wait = .credit ∧ e.rd (Reg.SP_OUTRT_WAITING.at (cix c [r])) = 1 ∧ e.mem = d.mem)) ∧
    (ifld w 0 8 = 0x20 → (passed k pc).2 < 4096 → (d.core c).drainQ = [] → d.ecc = [] → (d.core c).ecc = [] →
      ∀ tc h r half lim bb sb, d.drainCheck x = (.ok, some (.remote tc h r half lim, bb, sb)) → tc < 72 →
      8192 ≤ d.rd (Reg.SP_OUTRT_CRED.at (cix c [r])) → d.rd (Reg.SP_OUTRT_CRED.at (cix c [r])) < 16384 →
      completes (.drain c) s (fun e => ∃ ms : List Msg, ms ≠ [] ∧ e.fabric = d.fabric ++ ms ∧
        (∀ m ∈ ms, m.src = .core c ∧ m.dst = .core tc ∧ ∃ q : Txn, m.body = .write q ∧ q.route = some r ∧ q.handle = h ∧ q.half = half ∧ q.writer = c ∧ q.task = t) ∧
        e.rd (Reg.SP_OUTRT_CRED.at (cix c [r])) = d.rd (Reg.SP_OUTRT_CRED.at (cix c [r])) - ms.length ∧
        (e.core c).drainQ = [] ∧ e.rd (Reg.TASK_PC.at (cix c [t])) = (passed k pc).2 ∧ e.mem = d.mem))

/-! ### Messages that reach cores and scratchpads -/

/-- Launches and responses (R73, R94, R97, R98, R104, R210, R368): a launch starts an idle enabled task, which displaces the running task only by rule 1 of R97 or by PREEMPT_DELTA and is selected where none is READY or running, is held by a task that is not idle, in place of one held before, and is discarded
by a task that is not enabled and by a core that is not up; the response to TAKE or DONE writes two G registers and makes the task READY, and is discarded where no task waits
for it. A task with a DRAIN that still waits for credit waits with it (log 172). The message is taken out of flight. WAITCYC takes a free value when the wait ends (log 22). -/
def Obligations.LaunchesAndResponses : Prop :=
  ∀ (s : State) (i : Nat) (src : Node) (c : Fin 72) (t : Fin 8), s.dev.held = false →
    let d := s.dev
    let k := d.task c t
    let ovr (e : Dev) := e.rd (Reg.TASK_LAUNCH_OVR.at (cix c [t]))
    let after (e : Dev) : State := { s with dev := e }
    let held := d.drainHeld c t
    let goesOn (e : Dev) : Prop := (held = false → readyNow c t e) ∧ (held = true → e.rd (Reg.TASK_TSTATE.at (cix c [t])) = 4)
    let resting : Wait := if held then .credit else .none
    let answered (g : Tab Word) (e : Dev) : Prop :=
      e.task c t = { k with g := g, wait := resting, stalled := false, yielded := false } ∧ goesOn e ∧ e.fabric = dropAt d.fabric i ∧
      regsBut ((Reg.TASK_WAITCYC.at (cix c [t])).key :: selectKeys c) d e ∧ onlyCore c d e ∧
      e = { d with regs := e.regs, live := e.live, cores := e.cores, fabric := e.fabric, free := d.free + 1 }
    (∀ l, d.arriving i = some ⟨src, .core c, .launch t l⟩ →
      (d.rd (Reg.TASK_ENABLE.at (cix c [t])) = 0 → ∃ e, exec (.taskLaunch i) s = .next (after e) ∧
        ovr e = 1 ∧ e.fabric = dropAt d.fabric i ∧ regsBut [(Reg.TASK_LAUNCH_OVR.at (cix c [t])).key] d e ∧
        e = { d with regs := e.regs, live := e.live, fabric := e.fabric }) ∧
      (d.rd (Reg.TASK_ENABLE.at (cix c [t])) = 1 → d.coreUp c = false → exec (.taskLaunch i) s = .next (after { d with fabric := dropAt d.fabric i })) ∧
      (d.rd (Reg.TASK_ENABLE.at (cix c [t])) = 1 → d.coreUp c = true → d.tstate c t = 0 → ∃ e, exec (.taskLaunch i) s = .next (after e) ∧
        e.task c t = { k with g := Tab.put 0 k.g 0 l.word, nest := [], pending := none, wait := resting, stalled := false, yielded := false } ∧
        e.rd (Reg.TASK_PC.at (cix c [t])) = d.rd (Reg.TASK_ENTRY_PC.at (cix c [t])) % 4096 ∧ e.rd (Reg.TASK_DL.at (cix c [t])) = l.deadline % 2 ^ 32 ∧
        e.rd (Reg.TASK_LAUNCH.at (cix c [t])) = l.word.toNat ∧ goesOn e ∧ e.fabric = dropAt d.fabric i ∧ onlyCore c d e ∧
        (held = false → ∀ x, d.running c = some x →
          let cls (u : Nat) := d.rd (Reg.TASK_CLASS.at (cix c [u]))
          let dt := toDeadline d (l.deadline % 2 ^ 32)
          let dx := toDeadline d (d.rd (Reg.TASK_DL.at (cix c [x])))
          let near := 4000 * d.rd (Reg.MC_ENH_WINDOW.at (cix c))
          let displaces : Prop := outranks near (cls t) (cls x) dt dx t x ∧
            (ruleOne near (cls t) (cls x) dt ∨ (1000 * d.rd (Reg.MC_PREEMPT_DELTA.at (cix c)) : Nat) ≤ dx - dt)
          (displaces → selects c x t d e ∧ e.rd (Reg.TASK_TSTATE.at (cix c [x])) = 1) ∧
          (¬ displaces → e.rd (Reg.TASK_TSTATE.at (cix c [t])) = 1 ∧ e.rd (Reg.TASK_TSTATE.at (cix c [x])) = 2)) ∧
        (held = false → (∀ u < 8, d.rd (Reg.TASK_TSTATE.at (cix c [u])) ≠ 1 ∧ d.rd (Reg.TASK_TSTATE.at (cix c [u])) ≠ 2) → selects c t t d e) ∧
        regsBut (keysOf [Reg.TASK_PC.at (cix c [t]), Reg.TASK_DL.at (cix c [t]), Reg.TASK_LAUNCH.at (cix c [t])] ++ selectKeys c) d e ∧
        e = { d with regs := e.regs, live := e.live, cores := e.cores, fabric := e.fabric }) ∧
      (d.rd (Reg.TASK_ENABLE.at (cix c [t])) = 1 → d.coreUp c = true → d.tstate c t ≠ 0 → ∃ e, exec (.taskLaunch i) s = .next (after e) ∧
        e.task c t = { k with pending := some l } ∧ (k.pending ≠ none → ovr e = 1) ∧ (k.pending = none → ovr e = ovr d) ∧
        regsBut [(Reg.TASK_LAUNCH_OVR.at (cix c [t])).key] d e ∧ e.fabric = dropAt d.fabric i ∧ onlyCore c d e ∧ e.mem = d.mem)) ∧
    (∀ idx gen, d.arriving i = some ⟨src, .core c, .takeResp t idx gen⟩ →
      (∀ gd, k.wait = .take gd → d.coreUp c = true → d.tstate c t = 5 → ∃ e, exec (.takeResponse i) s = .next (after e) ∧
        answered (Tab.put 0 (Tab.put 0 k.g gd idx) (gd + 1) gen) e) ∧
      ((∀ gd, k.wait ≠ .take gd) → exec (.takeResponse i) s = .next (after { d with fabric := dropAt d.fabric i }))) ∧
    (∀ a b, d.arriving i = some ⟨src, .core c, .doneResp t a b⟩ →
      (∀ gd, k.wait = .done gd → d.coreUp c = true → d.tstate c t = 5 → ∃ e, exec (.doneResponse i) s = .next (after e) ∧
        answered (Tab.put 0 (Tab.put 0 k.g gd a) (gd + 1) b) e) ∧
      ((∀ gd, k.wait ≠ .done gd) → exec (.doneResponse i) s = .next (after { d with fabric := dropAt d.fabric i })))

/-- Tags as the tasks see them (R92, R93, R99, R107, R146): a release leaves the core once no earlier release of its task to that half, no earlier write and, of an EMPTY, no earlier read waits, and goes to its target
(a half is one of the handle that the SETTAG names: log 174); a task that waits on a tag becomes READY when the tag is seen, or waits with a DRAIN of it that still waits for credit (log 172), and the core freezes with GEN_AHEAD when the generation has gone past; TASK_STALL is raised once in a wait. -/
def Obligations.TagsAtTheCore : Prop :=
  ∀ (s : State) (c : Fin 72), s.dev.held = false →
    let d := s.dev
    (∀ i r, (d.core c).releases[i]? = some r → r.behind ≠ 0 → completes (.settagRelease c i) s (fun e => e = d)) ∧
    (∀ i r, (d.core c).releases[i]? = some r → r.behind = 0 → r.upd.tcore < 72 →
      (∀ j q, j < i → (d.core c).releases[j]? = some q → ¬ (q.task = r.task ∧ q.handle = r.handle ∧ q.upd.half = r.upd.half)) →
      completes (.settagRelease c i) s (fun e =>
        e.fabric = d.fabric ++ [⟨.core c, .core r.upd.tcore, .tag r.upd⟩] ∧ (e.core c).releases = dropAt (d.core c).releases i ∧
        e = { d with cores := e.cores, fabric := e.fabric } ∧ e.core c = { d.core c with releases := (e.core c).releases } ∧ onlyCore c d e)) ∧
    (∀ (slot : Fin 128) (t : Fin 8) want gchk gen pc, d.coreUp c = true → d.tstate c t = 3 → (d.task c t).wait = .tag slot want gchk gen pc →
      (∀ u < 8, u ≠ t.val → d.tstate c u ≠ 3) →
      let seen := decide (d.rd (Reg.SLOT_FULL.at (cix c [slot])) ≠ 0)
      let diff := toSigned 16 (d.rd (Reg.SLOT_GEN.at (cix c [slot])) + 65536 - gen)
      (seen = want → (gchk = false ∨ diff = 0) → completes (.tagVisible c slot) s (fun e =>
        (d.drainHeld c t = false → readyNow c t e) ∧ (d.drainHeld c t = true → e.tstate c t = 4) ∧
        e.task c t = { d.task c t with wait := if d.drainHeld c t then .credit else .none, stalled := false, yielded := false } ∧
        regsBut ((Reg.TASK_WAITCYC.at (cix c [t])).key :: selectKeys c) d e ∧ e.fabric = d.fabric)) ∧
      (seen = want → gchk = true → 0 < diff → freezes (.tagVisible c slot) s c t pc 7) ∧
      ((seen ≠ want ∨ (gchk = true ∧ diff < 0)) → completes (.tagVisible c slot) s (fun e => e = d))) ∧
    (∀ t : Fin 8, (d.tstate c t = 3 ∨ d.tstate c t = 4) → d.rd (Reg.MC_WAIT_LIMIT.at (cix c)) ≠ 0 →
      ((d.task c t).stalled = false → completes (.taskStall c t) s (fun e =>
        raised 0x0140 0 c [] d e ∧ e.task c t = { d.task c t with stalled := true } ∧ e.tstate c t = d.tstate c t ∧ e.mcState c = d.mcState c)) ∧
      ((d.task c t).stalled = true → completes (.taskStall c t) s (fun e => e = d)))

/-- The tag state machine (R142 to R144, R149, R152) at a TAG_UPDATE that is accepted: the slot's state, release count and generation; an update that finds a wrong state sets TAG_ODD; with ZFILL the
half is filled with zeros first, and what reaches the slot meanwhile waits for that (log 136). An update of a handle that is not valid freezes its writer. -/
def Obligations.TagStateMachine : Prop :=
  ∀ (s : State) (i : Nat) (src : Node) (c : Fin 72) (u : TagUpd), s.dev.held = false → s.dev.arriving i = some ⟨src, .core c, .tag u⟩ →
    u.handle < 64 → u.half < 2 →
    let d := s.dev
    let slot := 2 * u.handle + u.half
    let full (e : Dev) := e.rd (Reg.SLOT_FULL.at (cix c [slot]))
    let gen (e : Dev) := e.rd (Reg.SLOT_GEN.at (cix c [slot]))
    let rel (e : Dev) := e.rd (Reg.SLOT_RELCNT.at (cix c [slot]))
    let odd (e : Dev) := e.rd (Reg.SP_TAG_ODD.at (cix c))
    let mode := d.rd (Reg.HND_TAGMODE.at (cix c [u.handle]))
    let n := d.rd (Reg.HND_RELN.at (cix c [u.handle]))
    let g := (if u.gmode = 0 then gen d else if u.gmode = 1 then gen d + 1 else u.gen) % 65536
    (d.tagAccepted c u = true → (∃ z ∈ (d.core c).zfills, z.slot = slot) → completes (.tagUpdate i) s (fun e =>
      (e.core c).zfills = (d.core c).zfills.map (fun z => if z.slot = slot then { z with queued := z.queued ++ [u] } else z) ∧
      e = { d with cores := e.cores, fabric := dropAt d.fabric i } ∧ onlyCore c d e)) ∧
    (d.tagAccepted c u = true → (∀ z ∈ (d.core c).zfills, z.slot ≠ slot) → full d ≤ 1 → gen d < 65536 →
      completes (.tagUpdate i) s (fun e =>
        (full d = 0 → u.full = true → mode = 1 → full e = 1 ∧ gen e = g ∧ rel e = rel d) ∧
        (full d = 0 → u.full = true → mode = 2 → rel d < n → n < 16 → full e = 0 ∧ rel e = rel d + 1 ∧ gen e = gen d) ∧
        (full d = 0 → u.full = true → mode = 2 → n ≤ rel d → full e = 1 ∧ rel e = 0 ∧ gen e = (gen d + 1) % 65536) ∧
        (full d = 0 → u.full = false → full e = 0 ∧ rel e = 0 ∧ gen e = g ∧ odd e = 1) ∧
        (full d = 1 → u.full = true → mode = 1 → full e = 1 ∧ gen e = g ∧ odd e = 1) ∧
        (full d = 1 → u.full = true → mode = 2 → full e = 1 ∧ gen e = gen d ∧ odd e = 1) ∧
        (full d = 1 → u.full = false → d.rd (Reg.HND_ZFILL.at (cix c [u.handle])) = 0 → full e = 0 ∧ gen e = g) ∧
        (full d = 1 → u.full = false → d.rd (Reg.HND_ZFILL.at (cix c [u.handle])) = 1 →
          full e = 1 ∧ gen e = gen d ∧ (e.core c).zfills = (d.core c).zfills ++ [⟨slot, g, []⟩]) ∧
        ∀ a, e.byte a = d.byte a)) ∧
    (∀ w : Fin 72, d.rd (Reg.HND_VALID.at (cix c [u.handle])) = 0 → u.writer = w → d.coreUp w = true → u.task < 8 → u.tcore < 72 → roomForEvents d →
      completes (.tagUpdate i) s (fun e =>
        full e = full d ∧ gen e = gen d ∧ rel e = rel d ∧ e.rd (Reg.MC_STATE.at (cix w)) = 3 ∧ e.rd (Reg.MC_FAULT_CODE.at (cix w)) = 3 ∧
        e.rd (Reg.MC_FAULT_TASK.at (cix w)) = u.task ∧ e.rd (Reg.MC_FAULT_PC.at (cix w)) = u.pc % 4096 ∧
        (∃ r ∈ e.events.store, r.code = 0x0713 ∧ r.kind = 0 ∧ r.index = w ∧ r.froze = true ∧ r.arg0 = c ∧ r.arg1 = u.handle) ∧
        ∃ r ∈ e.events.store, r.code = 0x0103 ∧ r.froze = true))

/-- Write transactions (R148, R152, R153, R158, R482) at a core whose scratchpads hold no ECC error: an accepted one is written at its place in the named half, plain or added, and no other byte
changes; one whose handle is not valid writes nothing and freezes its writer, core or stream unit. A bank that is off discards it, one that wakes lets it wait. A stream unit
that writes to a core that is power-gated or retired freezes (R35). -/
def Obligations.WriteTransactions : Prop :=
  ∀ (s : State) (i : Nat) (src : Node) (c : Fin 72) (q : Txn), s.dev.held = false → s.dev.arriving i = some ⟨src, .core c, .write q⟩ → q.handle < 64 → q.half < 2 →
    let d := s.dev
    let size := (d.rd (Reg.HND_SIZE.at (cix c [q.handle])) + 1) * 512
    let off := d.rd (Reg.HND_BASE_ROW.at (cix c [q.handle])) * 512 + q.half * size + q.off
    let old := BitVec.ofNat 32 (d.readLe (spAddr c off) 4)
    let new := BitVec.ofNat 32 (leNat q.data)
    (d.writeAccepted c q = true → d.anyGated c off q.data.length = false → d.ecc = [] → q.bad = [] → 72 ≤ q.writer → d.suAway c q.writer = false →
      (d.anyWaking c off q.data.length = false → completes (.writeTransaction i) s (fun e =>
        (q.aow = 0 → e.bytes (spAddr c off) q.data.length = q.data) ∧
        (q.aow = 1 → q.data.length = 4 → e.readLe (spAddr c off) 4 = ofSigned 32 (satInt 32 (old.toInt + new.toInt)).1 ∧
          ((satInt 32 (old.toInt + new.toInt)).2 = true → e.rd (Reg.SP_AOW_SAT.at (cix c)) = 1)) ∧
        (q.aow = 2 → q.data.length = 4 → e.readLe (spAddr c off) 4 = (add32 old new).toNat ∧
          (isNan32 (add32 old new) = true → e.rd (Reg.SP_AOW_NAN.at (cix c)) = 1)) ∧
        bytesBut [(spAddr c off, q.data.length)] d e ∧ e.ecc = [] ∧
        regsBut [(Reg.SP_AOW_SAT.at (cix c)).key, (Reg.SP_AOW_NAN.at (cix c)).key] d e ∧
        e = { d with regs := e.regs, live := e.live, mem := e.mem, fabric := dropAt d.fabric i })) ∧
      (d.anyWaking c off q.data.length = true → completes (.writeTransaction i) s (fun e => e = d))) ∧
    (d.rd (Reg.HND_VALID.at (cix c [q.handle])) = 0 → q.tcore < 72 → roomForEvents d →
      (∀ w : Fin 72, q.writer = w → d.coreUp w = true → q.task < 8 → completes (.writeTransaction i) s (fun e =>
        e.mem = d.mem ∧ e.rd (Reg.MC_STATE.at (cix w)) = 3 ∧ e.rd (Reg.MC_FAULT_CODE.at (cix w)) = 3 ∧ e.rd (Reg.MC_FAULT_TASK.at (cix w)) = q.task ∧
        ∃ r ∈ e.events.store, r.code = 0x0713 ∧ r.froze = true ∧ r.kind = 0 ∧ r.index = w ∧ r.arg0 = c ∧ r.arg1 = q.handle)) ∧
      (∀ u : Fin 128, q.writer = 0x100 + u → d.suState u ≠ 7 → d.suAway c q.writer = false → completes (.writeTransaction i) s (fun e =>
        e.mem = d.mem ∧ e.rd (Reg.SU_STATE.at (six u)) = 7 ∧ (e.su u).work = [] ∧
        ∃ r ∈ e.events.store, r.code = 0x0713 ∧ r.froze = true ∧ r.kind = 0 ∧ r.index = 0x100 + u.val ∧ r.arg0 = c ∧ r.arg1 = q.handle))) ∧
    (∀ u : Fin 128, q.writer = 0x100 + u → d.suState u ≠ 7 → d.mcState c = 0 ∨ d.mcState c = 4 → roomForEvents d → completes (.writeTransaction i) s (fun e =>
      e.mem = d.mem ∧ e.rd (Reg.SU_STATE.at (six u)) = 7 ∧ (e.su u).work = [] ∧
      ∃ r ∈ e.events.store, r.code = 0x0710 ∧ r.froze = true ∧ r.kind = 0 ∧ r.index = 0x100 + u.val ∧ r.arg0 = spAddr c off % 2 ^ 32)) ∧
    (∀ w : Fin 72, d.writeAccepted c q = true → d.anyGated c off q.data.length = true → q.writer = w → d.coreUp w = true → q.task < 8 →
      completes (.writeTransaction i) s (fun e => e.mem = d.mem ∧ e.rd (Reg.MC_STATE.at (cix w)) = 3 ∧ e.rd (Reg.MC_FAULT_CODE.at (cix w)) = 8))

/-- Credits (R149): a CREDIT_RETURN adds to the route's count at a core with nothing waiting, and at the ports of a stream unit that name the route; the count saturates at 16,383 and says so. -/
def Obligations.CreditReturns : Prop :=
  ∀ (s : State) (i : Nat) (src : Node) (r n : Nat), s.dev.held = false →
    let d := s.dev
    (∀ c : Fin 72, r < 16 → d.arriving i = some ⟨src, .core c, .credit r n⟩ → (d.core c).drainQ = [] → (d.core c).vecNext = none → (d.core c).doneQ = [] →
      (d.core c).freezeOwed = [] → (d.core c).closeOwed = false → (∀ t < 8, d.tstate c t ≠ 4) → completes (.creditReturn i) s (fun e =>
        e.rd (Reg.SP_OUTRT_CRED.at (cix c [r])) = min (d.rd (Reg.SP_OUTRT_CRED.at (cix c [r])) + n) 16383 ∧
        (16383 < d.rd (Reg.SP_OUTRT_CRED.at (cix c [r])) + n → e.rd (Reg.SP_CREDIT_SAT.at (cix c)) = 1) ∧
        regsBut [(Reg.SP_OUTRT_CRED.at (cix c [r])).key, (Reg.SP_CREDIT_SAT.at (cix c)).key] d e ∧ e.fabric = dropAt d.fabric i ∧ e.mem = d.mem)) ∧
    (∀ u : Fin 128, d.arriving i = some ⟨src, .su u, .credit r n⟩ → d.seamRx = [] → completes (.creditReturn i) s (fun e =>
      (∀ p < 8, d.rd (Reg.SU_RT_VALID.at (six u [p])) = 1 → d.rd (Reg.SU_RT_ROUTE.at (six u [p])) = r →
        e.rd (Reg.SU_RT_CRED.at (six u [p])) = min (d.rd (Reg.SU_RT_CRED.at (six u [p])) + n) 16383 ∧ e.rd (Reg.SU_RT_WAITING.at (six u [p])) = 0) ∧
      (∀ p < 8, d.rd (Reg.SU_RT_ROUTE.at (six u [p])) ≠ r → e.rd (Reg.SU_RT_CRED.at (six u [p])) = d.rd (Reg.SU_RT_CRED.at (six u [p]))) ∧
      e.fabric = dropAt d.fabric i ∧ e.mem = d.mem))

/-! ### Work counters and the weight ring -/

/-- A TAKE and an ARM at a work counter (R94, R207 to R209, R212): an armed counter with a tile to give leases it, the oldest open index of the reissue queue first, else NEXT; a counter in CLOSING
answers 0xFFFF_FFFF; an idle one holds the TAKE. An ARM makes an idle counter ARMED with ROWS × PER_ROW tiles, and is queued by a counter that is not idle. -/
def Obligations.TakeAndArm : Prop :=
  ∀ (s : State) (i : Nat) (n : Fin 8) (w : Fin 32), s.dev.held = false →
    let d := s.dev
    let q := d.wc n w
    let r (e : Dev) (f : RegDef) := e.rd (f.at [n, w])
    (∀ (c : Fin 72) t, d.arriving i = some ⟨.core c, .wc n w, .take t⟩ →
      (r d Reg.CL_WC_STATE = 1 → q.leases.length < 64 → r d Reg.CL_WC_ACCEPTED ≠ r d Reg.CL_WC_TILES →
        (∀ pre idx post, q.reissue = pre ++ (idx, none) :: post → (∀ x ∈ pre, x.2 ≠ none) → completes (.wcTake i) s (fun e =>
          e.fabric = dropAt d.fabric i ++ [⟨.wc n w, .core c, .takeResp t (BitVec.ofNat 32 idx) (BitVec.ofNat 32 (r d Reg.CL_WC_LGEN))⟩] ∧
          e.wc n w = { q with reissue := pre ++ post, leases := q.leases ++ [⟨c, t, idx, r d Reg.CL_WC_LGEN, 0, false⟩] } ∧
          r e Reg.CL_WC_LGEN = (r d Reg.CL_WC_LGEN + 1) % 65536 ∧ r e Reg.CL_WC_NEXT = r d Reg.CL_WC_NEXT)) ∧
        ((∀ x ∈ q.reissue, x.2 ≠ none) → r d Reg.CL_WC_NEXT < r d Reg.CL_WC_TILES → q.emptyArm = false → completes (.wcTake i) s (fun e =>
          e.fabric = dropAt d.fabric i ++
            [⟨.wc n w, .core c, .takeResp t (BitVec.ofNat 32 (r d Reg.CL_WC_NEXT)) (BitVec.ofNat 32 (r d Reg.CL_WC_LGEN))⟩] ∧
          e.wc n w = { q with leases := q.leases ++ [⟨c, t, r d Reg.CL_WC_NEXT, r d Reg.CL_WC_LGEN, 0, false⟩] } ∧
          r e Reg.CL_WC_LGEN = (r d Reg.CL_WC_LGEN + 1) % 65536 ∧ r e Reg.CL_WC_NEXT = (r d Reg.CL_WC_NEXT + 1) % 65536 ∧
          regsBut [(Reg.CL_WC_LGEN.at [n, w]).key, (Reg.CL_WC_NEXT.at [n, w]).key] d e)) ∧
        ((∀ x ∈ q.reissue, x.2 ≠ none) → r d Reg.CL_WC_TILES ≤ r d Reg.CL_WC_NEXT → completes (.wcTake i) s (fun e =>
          e.fabric = dropAt d.fabric i ∧ e.wc n w = { q with waiting := q.waiting ++ [(c.val, t)] } ∧ regsBut [] d e))) ∧
      (r d Reg.CL_WC_STATE = 2 → completes (.wcTake i) s (fun e =>
        (⟨.wc n w, .core c, .takeResp t 0xFFFFFFFF 0⟩ : Msg) ∈ e.fabric)) ∧
      (r d Reg.CL_WC_STATE = 0 → completes (.wcTake i) s (fun e =>
        e.fabric = dropAt d.fabric i ∧ e.wc n w = { q with waiting := q.waiting ++ [(c.val, t)] } ∧ regsBut [] d e))) ∧
    (∀ src rows, d.arriving i = some ⟨src, .wc n w, .arm rows⟩ →
      (r d Reg.CL_WC_STATE = 0 → q.waiting = [] → (rows ≠ 0 → 0 < rows * r d Reg.CL_WC_PER_ROW) → rows * r d Reg.CL_WC_PER_ROW < 65536 →
        completes (.wcArm i) s (fun e =>
          r e Reg.CL_WC_STATE = 1 ∧ r e Reg.CL_WC_TILES = (if rows = 0 then 1 else rows * r d Reg.CL_WC_PER_ROW) ∧ r e Reg.CL_WC_NEXT = 0 ∧
          r e Reg.CL_WC_ACCEPTED = 0 ∧ e.wc n w = { q with answered := [], emptyArm := decide (rows = 0) } ∧ e.fabric = dropAt d.fabric i)) ∧
      (r d Reg.CL_WC_STATE ≠ 0 → completes (.wcArm i) s (fun e =>
        e.wc n w = { q with queuedArm := some rows } ∧ e.fabric = dropAt d.fabric i ∧ regsBut [] d e)))

/-- The life of a lease (R208, R210, R486, R487) at an armed counter with no TAKE waiting: DONE accepts a HELD lease, discards an expired one and answers; a freeze message expires the core's leases and
holds their tiles back; its close message frees them; a timer expires one lease, and one that stays unclosed marks its pipeline for re-initialisation. That WCw_EXPIRED counts leases of frozen cores too (log 67),
and that a lease which has expired before the freeze message becomes EXPIRED_FROZEN while its tile stays where it is (log 143), are the model's choices. -/
def Obligations.LeaseLife : Prop :=
  ∀ (s : State) (i : Nat) (n : Fin 8) (w : Fin 32), s.dev.held = false →
    let d := s.dev
    let q := d.wc n w
    let r (e : Dev) (f : RegDef) := e.rd (f.at [n, w])
    r d Reg.CL_WC_STATE = 1 → q.waiting = [] →
    (∀ (c : Fin 72) t idx gen pre l post, d.arriving i = some ⟨.core c, .wc n w, .done t idx gen⟩ → q.leases = pre ++ l :: post → l.idx = idx → l.gen = gen →
      (∀ x ∈ pre, ¬ (x.idx = idx ∧ x.gen = gen)) → r d Reg.CL_WC_ACCEPTED < 65535 →
      (l.state = 0 → r d Reg.CL_WC_ACCEPTED + 1 ≠ r d Reg.CL_WC_TILES → completes (.wcDone i) s (fun e =>
        e.fabric = dropAt d.fabric i ++ [⟨.wc n w, .core c, .doneResp t 1 0⟩] ∧ r e Reg.CL_WC_ACCEPTED = r d Reg.CL_WC_ACCEPTED + 1 ∧
        e.wc n w = { q with leases := pre ++ post } ∧ r e Reg.CL_WC_STATE = 1)) ∧
      (l.state = 0 → r d Reg.CL_WC_ACCEPTED + 1 = r d Reg.CL_WC_TILES → (∀ x ∈ pre ++ post, x.state = 0) → completes (.wcDone i) s (fun e =>
        (⟨.wc n w, .core c, .doneResp t 1 1⟩ : Msg) ∈ e.fabric)) ∧
      (l.state = 1 → r d Reg.CL_WC_ACCEPTED ≠ r d Reg.CL_WC_TILES → completes (.wcDone i) s (fun e =>
        e.fabric = dropAt d.fabric i ++ [⟨.wc n w, .core c, .doneResp t 0 0⟩] ∧ r e Reg.CL_WC_DISCARDED = (r d Reg.CL_WC_DISCARDED + 1) % 2 ^ 32 ∧
        r e Reg.CL_WC_ACCEPTED = r d Reg.CL_WC_ACCEPTED ∧ e.wc n w = { q with leases := pre ++ post })) ∧
      (l.state = 2 → r d Reg.CL_WC_ACCEPTED ≠ r d Reg.CL_WC_TILES → completes (.wcDone i) s (fun e =>
        e.fabric = dropAt d.fabric i ++ [⟨.wc n w, .core c, .doneResp t 0 0⟩] ∧ r e Reg.CL_WC_DISCARDED = (r d Reg.CL_WC_DISCARDED + 1) % 2 ^ 32 ∧
        e.wc n w = q))) ∧
    (r d Reg.CL_WC_ACCEPTED ≠ r d Reg.CL_WC_TILES →
      (∀ c : Fin 72, d.arriving i = some ⟨.core c, .wc n w, .freeze⟩ → completes (.freezeMessage i) s (fun e =>
        let mine := q.leases.filter (fun l => decide (l.core = c.val) && decide (l.state = 0))
        (e.wc n w).leases = q.leases.map (fun l => if l.core = c.val then { l with state := 2 } else l) ∧
        (e.wc n w).reissue = q.reissue ++ mine.map (fun l => (l.idx, some l.gen)) ∧
        r e Reg.CL_WC_EXPIRED = (r d Reg.CL_WC_EXPIRED + mine.length) % 2 ^ 32 ∧ e.fabric = dropAt d.fabric i ∧
        regsBut [(Reg.CL_WC_EXPIRED.at [n, w]).key] d e)) ∧
      (∀ c : Fin 72, d.arriving i = some ⟨.core c, .wc n w, .close⟩ → completes (.closeMessage i) s (fun e =>
        (e.wc n w).leases = q.leases.filter (fun l => !(decide (l.core = c.val) && decide (l.state = 2))) ∧
        (∀ idx g, (idx, some g) ∈ q.reissue → (∃ l ∈ q.leases, l.core = c.val ∧ l.state = 2 ∧ l.gen = g) → (idx, none) ∈ (e.wc n w).reissue) ∧
        (e.wc n w).reissue.map Prod.fst = q.reissue.map Prod.fst ∧ e.fabric = dropAt d.fabric i ∧ regsBut [] d e)) ∧
      (∀ l, q.leases[i]? = some l → l.state = 0 → completes (.leaseExpired n w i) s (fun e =>
        (e.wc n w).leases = q.leases.set i { l with state := 1 } ∧ (e.wc n w).reissue = q.reissue ++ [(l.idx, none)] ∧
        r e Reg.CL_WC_EXPIRED = (r d Reg.CL_WC_EXPIRED + 1) % 2 ^ 32 ∧ raised 0x0150 0 l.core [n, w, l.idx % 65536 + l.gen * 65536] d e ∧
        e.fabric = d.fabric))) ∧
    (∀ l, q.leases[i]? = some l → l.state = 1 → l.reported = false → (∀ p ∈ d.unclosed, p.1 = l.core → p.2 + 16 ≤ d.pipeCount) →
      completes (.leaseUnclosed n w i) s (fun e =>
        (e.wc n w).leases = q.leases.set i { l with reported := true } ∧ raised 0x0151 0 l.core [n, w, l.idx % 65536 + l.gen * 65536] d e ∧
        e.reinitMarked = d.reinitMarked ++ [r d Reg.CL_WC_PIPELINE] ∧ e.unclosed = d.unclosed ++ [(l.core, d.pipeCount)] ∧
        (∀ c : Fin 72, e.mcState c = d.mcState c)))

/-- A rotation of the weight ring (R215, R216): the stop of a member that holds a slice to send on writes it into the half of the next member's window when that half is EMPTY,
releases it FULL with GMODE 1, and counts the bytes; in a ring that streams, the stop of the last member has the ring's stream unit fetch the next slice for the first, as a transfer from LPDDR6 and a release behind it in
that unit's work. Without room or without a slice nothing happens. Which half holds the current slice, that a stop waits for the stop of the next member to have sent on what the half held, and the way a streamed slice
joins the unit's work are the model's choices (log 25). -/
def Obligations.WeightRing : Prop :=
  ∀ (s : State) (n : Fin 8) (k j : Fin 9) (g : RingRec), s.dev.held = false →
    let d := s.dev
    let src := 9 * n.val + k.val
    let dst := 9 * n.val + j.val
    let sent (x : Nat) := Tab.get 0 d.ringSent (9 * n.val + x)
    let m := sent k
    let streamed : Prop := d.rd (Reg.CL_RING_STREAM.at [n]) ≠ 0
    let u := n.val * 16 + d.rd (Reg.CL_RING_SU.at [n])
    d.rings.find? (fun r => r.cluster = n.val) = some g → (d.rd (Reg.CL_RING_MEMBERS.at [n])).testBit k = true → d.ringNext n k = some j.val → g.handle < 64 →
    ∀ from_ into : Nat, from_ = m % 2 → (streamed → into = m % 2) → (¬ streamed → into = (m + 1) % 2) →
    let upd : TagUpd := ⟨dst, none, dst, g.handle, into, true, 1, 0, 0, 0⟩
    let fetches : Prop := streamed ∧ j ≤ k
    let room : Prop := d.rd (Reg.SLOT_FULL.at (cix dst [2 * g.handle + into])) = 0 ∧ d.ringFlying n u dst into = false ∧
      (streamed → (d.ringMembers n).getLast? = some j.val ∨ m < sent j + 2) ∧ (¬ streamed → m ≤ sent j)
    let holding : Prop := (¬ streamed ∧ m = 0) ∨
      (d.ringFlying n u src from_ = false ∧ (streamed → m < sent (d.ringPrev n k)) ∧ (¬ streamed → m - 1 < sent (d.ringPrev n k)))
    let counts (e : Dev) : Prop := Tab.get 0 e.ringSent src = m + 1 ∧ ∀ x, x ≠ src → Tab.get 0 e.ringSent x = Tab.get 0 d.ringSent x
    ((¬ room ∨ (¬ fetches ∧ ¬ holding)) → completes (.rotationStep n k) s (fun e => e = d)) ∧
    (room → ¬ fetches → holding → completes (.rotationStep n k) s (fun e =>
      let at_ := spAddr src ((d.rd (Reg.HND_BASE_ROW.at (cix src [g.handle])) + from_ * (d.rd (Reg.HND_SIZE.at (cix src [g.handle])) + 1)) * 512)
      ∃ ws : List Msg, e.fabric = d.fabric ++ ws ++ [⟨.ring n, .core dst, .tag upd⟩] ∧
        (∀ m ∈ ws, ∃ q : Txn, m = ⟨.ring n, .core dst, .write q⟩ ∧ q.handle = g.handle ∧ q.half = into ∧ q.route = none ∧ q.aow = 0 ∧
          q.data = d.bytes (at_ + q.off) q.data.length) ∧
        (ws.flatMap (fun m => match m.body with | .write q => q.data | _ => [])) = d.bytes at_ g.bytes ∧
        counts e ∧ e.rd (Reg.CL_RING_BYTES.at [n]) = (d.rd (Reg.CL_RING_BYTES.at [n]) + g.bytes) % 2 ^ 32 ∧
        e.mem = d.mem ∧ regsBut [(Reg.CL_RING_BYTES.at [n]).key] d e)) ∧
    (room → fetches → d.suState u ≠ 7 → 0 < g.bytes → completes (.rotationStep n k) s (fun e =>
      let a := g.source + m % max g.slices 1 * g.bytes
      (∃ t : Transfer, (e.su u).work = (d.su u).work ++ [.xfer t, .rel ⟨16, false, upd⟩] ∧ t.dest = .ring dst g.handle into ∧ t.flying = [] ∧ t.got = [] ∧
        (∀ r ∈ t.toIssue, r.addr / 256 = (r.addr + r.len - 1) / 256 ∧ 0 < r.len) ∧
        (∀ x, (∃ r ∈ t.toIssue, r.addr ≤ x ∧ x < r.addr + r.len) ↔ a ≤ x ∧ x < a + g.bytes) ∧
        (∀ i < g.bytes, ∃ p ∈ t.txns, p.off ≤ i ∧ p.srcs[i - p.off]? = some (.byte (a + i)))) ∧
      counts e ∧ e.mem = d.mem ∧ e.fabric = d.fabric ∧ regsBut [] d e))

/-! ### Stream units -/

/-- The stream unit instructions that change registers of the unit only (R165, R166, R169, R171): NOP, PSET, PSTR, NSET, DLADD and FRAME, each with the one register it writes. -/
def Obligations.StreamRegisterInstructions : Prop :=
  ∀ (s : State) (u : Fin 128) (pc : Nat) (w : IWord), suAt s.dev u pc w → suLegal w pc = true →
    let d := s.dev
    let q : Su := { d.su u with fence := false }
    let xd := ifld w 8 3
    let pipe := d.rd (Reg.SU_PIPELINE.at (six u))
    let imm48 := toSigned 48 (ifld w 64 48)
    let latched (older : Bool) : Int := ((Tab.get 0 d.latched (latchKey pipe (ifld w 16 4) older) : Nat) : Int)
    let base : Int := if ifld w 11 2 = 0 then (ifld w 64 48 : Int) else if ifld w 11 2 = 1 then ((q.xv xd).base : Int) + imm48
      else if ifld w 11 2 = 2 then latched false + imm48 else latched true + imm48
    (ifld w 0 8 = 0x00 → suIssuesTo (.suNop u) s u pc q) ∧
    (ifld w 0 8 = 0x03 → suIssuesTo (.pset u) s u pc { q with x := Tab.put {} q.x xd { q.xv xd with base := (base % 2 ^ 48).toNat } }) ∧
    (ifld w 0 8 = 0x04 → suIssuesTo (.pstr u) s u pc
      { q with x := Tab.put {} q.x xd { q.xv xd with str := Tab.put 0 (q.xv xd).str (ifld w 11 2) (toSigned 32 (ifld w 32 32)) } }) ∧
    (ifld w 0 8 = 0x05 → suIssuesTo (.nset u) s u pc
      { q with n := Tab.put 0 q.n (ifld w 8 2) (if ifld w 10 1 = 0 then BitVec.ofNat 32 (ifld w 32 32) else q.nv (ifld w 8 2) + BitVec.ofNat 32 (ifld w 32 32)) }) ∧
    (ifld w 0 8 = 0x0B → suIssuesTo (.frame u) s u pc
      { q with fw := ifld w 32 13, fh := ifld w 45 13, fpitch := BitVec.ofNat 32 (ifld w 64 32), ppitch := BitVec.ofNat 32 (ifld w 96 32) }) ∧
    (ifld w 0 8 = 0x06 → (suPassed q pc).2 < 32 → completes (.dladd u) s (fun e =>
      e.rd (Reg.SU_DL.at (six u)) = (d.rd (Reg.SU_DL.at (six u)) + ifld w 32 32) % 2 ^ 32 ∧ e.su u = (suPassed q pc).1 ∧
      e.rd (Reg.SU_PC.at (six u)) = (suPassed q pc).2 ∧ e.rd (Reg.SU_STATE.at (six u)) = 1 ∧ suFrame u [(Reg.SU_DL.at (six u)).key] d e))

/-- LOOP, END and FENCE of a stream unit (R90, R171, R174): a LOOP makes its counter active with its iteration at 0 or skips its body; END ends every loop and begins the drain; after a FENCE no instruction
issues until every earlier read has returned and every earlier write is complete. SETTAG of a stream unit with no work before it (R167, R171, R173): the tag update leaves at once to the target of its route or of its watch port, TOGGLE turns CUR_HALF
over, and an EMPTY through a watch port counts EGEN of its half. -/
def Obligations.StreamControl : Prop :=
  (∀ (s : State) (u : Fin 128) (pc : Nat) (w : IWord), suAt s.dev u pc w → suLegal w pc = true →
     let d := s.dev
     let q : Su := { d.su u with fence := false }
     let lci := ifld w 8 2
     let stop := ifld w 16 5
     let n := if ifld w 10 1 = 0 then ifld w 32 16 + 1 else (q.nv (ifld w 11 2)).toNat
     (ifld w 0 8 = 0x02 → lci ∉ q.nest → (∀ j ∈ q.nest, stop ≤ (q.lcv j).stop) →
       (n ≠ 0 → completes (.suLoop u) s (fun e =>
         e.su u = { q with lc := Tab.put ⟨0, 0, 0⟩ q.lc lci ⟨n, pc + 1, stop⟩, nest := lci :: q.nest, iter := Tab.put 0 q.iter lci 0 } ∧
         e.rd (Reg.SU_PC.at (six u)) = pc + 1 ∧ suFrame u [] d e)) ∧
       (n = 0 → suIssuesTo (.suLoop u) s u stop q)) ∧
     (ifld w 0 8 = 0x01 → completes (.suEnd u) s (fun e => e.su u = { q with nest := [] } ∧ e.rd (Reg.SU_STATE.at (six u)) = 6 ∧ suFrame u [] d e)) ∧
     (ifld w 0 8 = 0x0C → (suPassed q pc).2 < 32 → completes (.fence u) s (fun e =>
       (e.su u).fence = true ∧ e.rd (Reg.SU_PC.at (six u)) = (suPassed q pc).2 ∧ suFrame u [] d e ∧
       (d.suQuiet u = false → e.suReady u = false)))) ∧
  (∀ (s : State) (u : Fin 128) (pc : Nat) (w : IWord), suAt s.dev u pc w → suLegal w pc = true → ifld w 0 8 = 0x07 →
     let d := s.dev
     let q : Su := { d.su u with fence := false }
     let ix := six u [ifld w 8 3]
     let watch : Prop := ifld w 11 1 = 1
     let full : Bool := decide (ifld w 12 1 = 1)
     ∀ (valid cur half core handle : Nat) (route : Option Nat) (turned : Fld),
     (watch → valid = d.rd (Reg.SU_WP_VALID.at ix) ∧ cur = d.rd (Reg.SU_WP_CUR_HALF.at ix) ∧ core = d.rd (Reg.SU_WP_TCORE.at ix) ∧ handle = d.rd (Reg.SU_WP_THANDLE.at ix) ∧
       route = (if full then some 16 else none) ∧ turned = Reg.SU_WP_CUR_HALF.at ix) →
     (¬ watch → valid = d.rd (Reg.SU_RT_VALID.at ix) ∧ cur = d.rd (Reg.SU_RT_CUR_HALF.at ix) ∧ core = d.rd (Reg.SU_RT_TCORE.at ix) ∧ handle = d.rd (Reg.SU_RT_THANDLE.at ix) ∧
       route = some (d.rd (Reg.SU_RT_ROUTE.at ix)) ∧ turned = Reg.SU_RT_CUR_HALF.at ix) →
     half = (if ifld w 16 2 = 2 then cur else ifld w 16 2) →
     let egen := if half = 0 then Reg.SU_WP_EGEN0.at ix else Reg.SU_WP_EGEN1.at ix
     let counts : Prop := watch ∧ full = false
     valid = 1 → (d.su u).work = [] → core < 72 → cur < 2 → (suPassed q pc).2 < 32 →
     completes (.suSettag u) s (fun e =>
       e.fabric = d.fabric ++ [⟨.su u, .core core, .tag ⟨0x100 + u, route, core, handle, half, full, ifld w 13 2, ifld w 32 16, 0, pc⟩⟩] ∧
       e.rd turned = (if ifld w 15 1 = 1 then 1 - cur else cur) ∧ (e.su u).work = [] ∧ e.rd (Reg.SU_PC.at (six u)) = (suPassed q pc).2 ∧
       (counts → e.rd egen = (d.rd egen + 1) % 65536) ∧
       regsBut ([(Reg.SU_STATE.at (six u)).key, (Reg.SU_PC.at (six u)).key, turned.key] ++ (if watch ∧ full = false then [egen.key] else [])) d e ∧ e.mem = d.mem))

/-- A stream unit that is not ready issues nothing (R172): it is idle or drains or is frozen, an earlier transfer still has requests to issue, or a FENCE waits. The faults of a stream unit (R175): an instruction that is not legal, a LOOP on an active counter or beyond an enclosing end, control past index 31, and a port that is not valid. -/
def Obligations.StreamUnitStops : Prop :=
  (∀ (s : State) (u : Fin 128), s.dev.held = false →
     (s.dev.suState u = 0 ∨ s.dev.suState u = 6 ∨ s.dev.suState u = 7 ∨ (∃ t, SuItem.xfer t ∈ (s.dev.su u).work ∧ t.ring = false ∧ t.toIssue ≠ []) ∨
       ((s.dev.su u).fence = true ∧ s.dev.suQuiet u = false)) →
     ∀ oi ∈ suCommands u, completes oi.2 s (fun e => e = s.dev)) ∧
  (∀ (s : State) (u : Fin 128) (pc : Nat) (w : IWord), suAt s.dev u pc w →
     let q := s.dev.su u
     (∀ oi ∈ suCommands u, suOpcodes.contains (ifld w 0 8) = false → suFreezes oi.2 s u pc 1) ∧
     (∀ oi ∈ suCommands u, ifld w 0 8 = oi.1 → suLegal w pc = false → suFreezes oi.2 s u pc 1) ∧
     (suLegal w pc = true →
       (ifld w 0 8 = 0x00 → pc = 31 → q.nest = [] → suFreezes (.suNop u) s u 31 2) ∧
       (ifld w 0 8 = 0x02 → (ifld w 8 2 ∈ q.nest ∨ ∃ j ∈ q.nest, (q.lcv j).stop < ifld w 16 5) → suFreezes (.suLoop u) s u pc 3) ∧
       (ifld w 0 8 = 0x07 → ifld w 11 1 = 0 → s.dev.rd (Reg.SU_RT_VALID.at (six u [ifld w 8 3])) = 0 → suFreezes (.suSettag u) s u pc 4) ∧
       (ifld w 0 8 = 0x09 → ifld w 17 1 = 1 → s.dev.rd (Reg.SU_RT_VALID.at (six u [ifld w 18 3])) = 0 → suFreezes (.movet u) s u pc 4) ∧
       (ifld w 0 8 = 0x0A → ifld w 17 1 = 1 → s.dev.rd (Reg.SU_RT_VALID.at (six u [ifld w 18 3])) = 0 → suFreezes (.gather u) s u pc 4)))

/-- MOVE, MOVET and GATHER (R166, R167, R171, R172, R177, R178): a transfer joins the unit's work whose requests, each within one 256-byte granule, cover the source bytes (of GATHER: the
vectors of the tile's pixels) and whose destination bytes name the source byte (the pixel sample) each takes; nothing is read or written yet. A source is a device address, or through a watch port an offset into the half it watches; a
destination is a device address, or through a route an offset into the half of the handle it leads to, CUR_HALF at the issue. -/
def Obligations.TransfersStart : Prop :=
  ∀ (s : State) (u : Fin 128) (pc : Nat) (w : IWord), suAt s.dev u pc w → suLegal w pc = true →
    let d := s.dev
    let q : Su := { d.su u with fence := false }
    let x : SuCtx := ⟨u, pc, w, q⟩
    let xs := q.ea (ifld w 8 3)
    let xd := q.ea (ifld w 14 3)
    let wi := six u [ifld w 12 2]
    let ri := six u [ifld w 18 3]
    let watch : Prop := ifld w 0 8 ≠ 0x0A ∧ ifld w 11 1 = 1
    let route : Prop := ifld w 17 1 = 1
    let inRange (a : Int) : Prop := 0 ≤ a ∧ a < 2 ^ 48
    let seen : Nat := spAddr (d.rd (Reg.SU_WP_TCORE.at wi)) (d.halfBytes (d.rd (Reg.SU_WP_TCORE.at wi)) (d.rd (Reg.SU_WP_THANDLE.at wi)) (d.rd (Reg.SU_WP_CUR_HALF.at wi))).1
    let into : Dest := if ifld w 17 1 = 1 then .route (ifld w 18 3) (d.rd (Reg.SU_RT_CUR_HALF.at ri)) else .plain
    -- where the source and the destination of an offset lie, and that `n` bytes there are within bounds
    ∀ (src dst : Int → Int),
    (∀ o, (watch → src o = (seen + ofSigned 22 (xs + o) : Nat)) ∧ (¬ watch → src o = xs + o) ∧ (route → dst o = ofSigned 22 (xd + o)) ∧ (¬ route → dst o = xd + o)) →
    let readable (o : Int) (n : Nat) : Prop := inRange (src o) ∧ (watch → ofSigned 22 (xs + o) + n ≤ (d.rd (Reg.SU_WP_TSIZE.at wi) + 1) * 512)
    let writable (o : Int) (n : Nat) : Prop := inRange (dst o) ∧ (route → ofSigned 22 (xd + o) + n ≤ (d.rd (Reg.SU_RT_TSIZE.at ri) + 1) * 512)
    inRange xs → inRange xd → (watch → d.rd (Reg.SU_WP_VALID.at wi) = 1) → (route → d.rd (Reg.SU_RT_VALID.at ri) = 1) →
    let starts (i : Instr) (P : Transfer → Prop) : Prop := (suPassed q pc).2 < 32 → completes i s (fun e => ∃ t : Transfer,
      e.su u = { (suPassed q pc).1 with work := q.work ++ [.xfer t] } ∧ t.pc = pc ∧ t.dest = into ∧ t.flying = [] ∧ t.got = [] ∧
      (∀ r ∈ t.toIssue, r.addr / 256 = (r.addr + r.len - 1) / 256 ∧ 0 < r.len ∧ r.wp = (if ifld w 0 8 ≠ 0x0A ∧ ifld w 11 1 = 1 then some (ifld w 12 2) else none)) ∧
      P t ∧ e.rd (Reg.SU_PC.at (six u)) = (suPassed q pc).2 ∧ suFrame u [] d e)
    let covers (t : Transfer) (a : Nat) : Prop := ∃ r ∈ t.toIssue, r.addr ≤ a ∧ a < r.addr + r.len
    let takes (t : Transfer) (a : Nat) (b : Source) : Prop := ∃ p ∈ t.txns, p.off ≤ a ∧ p.srcs[a - p.off]? = some b
    let expected : Nat := d.rd (if d.rd (Reg.SU_WP_CUR_HALF.at wi) = 0 then Reg.SU_WP_EGEN0.at wi else Reg.SU_WP_EGEN1.at wi)
    (ifld w 0 8 = 0x08 →
      let n := ifld w 24 16 + 1
      let so (r : Nat) : Int := r * toSigned 32 (ifld w 64 32)
      let there (r : Nat) : Int := r * toSigned 32 (ifld w 96 32)
      (∀ r ≤ ifld w 40 12, readable (so r) n ∧ writable (there r) n ∧ (ifld w 21 2 ≠ 0 → (xs + so r) % 4 = 0 ∧ (xd + there r) % 4 = 0)) →
      starts (.move u) (fun t => t.aow = ifld w 21 2 ∧ t.gchk = (if ifld w 23 1 = 1 then some expected else none) ∧
        (∀ a, covers t a ↔ ∃ r ≤ ifld w 40 12, (src (so r)).toNat ≤ a ∧ a < (src (so r)).toNat + n) ∧
        (∀ r ≤ ifld w 40 12, ∀ i < n, takes t ((dst (there r)).toNat + i) (.byte ((src (so r)).toNat + i))))) ∧
    (ifld w 0 8 = 0x09 →
      let size := ifld w 27 1 + 1
      let so (y c px : Nat) : Int := if ifld w 21 1 = 1 then (movetOffsets x c y px).2 else (movetOffsets x c y px).1
      let there (y c px : Nat) : Int := if ifld w 21 1 = 1 then (movetOffsets x c y px).1 else (movetOffsets x c y px).2
      (∀ y c px, y ≤ ifld w 54 10 → c ≤ ifld w 45 9 → px ≤ ifld w 32 13 → readable (so y c px) size ∧ writable (there y c px) size) →
      starts (.movet u) (fun t => t.aow = 0 ∧ t.gchk = (if ifld w 22 1 = 1 then some expected else none) ∧ ∀ y c px i, y ≤ ifld w 54 10 → c ≤ ifld w 45 9 → px ≤ ifld w 32 13 → i < size →
        covers t ((src (so y c px)).toNat + i) ∧ takes t ((dst (there y c px)).toNat + i) (.byte ((src (so y c px)).toNat + i)))) ∧
    (ifld w 0 8 = 0x0A →
      let xv := q.ea (ifld w 11 3)
      let ch := ifld w 23 2 + 1
      let size := if ifld w 21 2 = 0 then 1 else 2
      let y0 := (q.nv (ifld w 27 2)).toNat
      let there (r : Nat) : Int := (r * ifld w 96 32 : Nat)
      inRange xv → (∀ r ≤ ifld w 58 6, writable (there r) ((ifld w 32 13 + 1) * ch * size)) →
      starts (.gather u) (fun t => t.vectors = true ∧ t.aow = 0 ∧ t.gchk = none ∧ ∀ r i c b, r ≤ ifld w 58 6 → i ≤ ifld w 32 13 → c < ch → b < size →
        covers t (xv.toNat + (y0 + r) / 8 * ifld w 64 32 + (ifld w 45 13 + i) / 8 * 4) ∧
        takes t ((dst (there r)).toNat + (i * ch + c) * size + b) (.sample (ifld w 45 13 + i) (y0 + r) c b)))

/-- SU_REQUEST (R167, R172, R182, R183, R186) at the first request of a transfer with the stripe cache off: one in LPDDR6 with a read tag and, where the unit is regulated, a token issues and queues at its channel
with the unit's deadline; otherwise STATE gives the reason. Where the transfer writes through a route, a request takes a credit of it for each transaction that it opens, and without them waits in WAIT_CREDIT. A request through a watch port
of the own cluster waits for its half to be FULL, faults GEN_AHEAD when the generation has gone past, and is served in the scratchpad. Of several reasons to wait STATE names the first in the
model's order (log 70); that a request is held back while a write of the unit to its granule is under way (R173) no clause says. -/
def Obligations.RequestsIssue : Prop :=
  ∀ (s : State) (u : Fin 128) (t : Transfer) (r : Req) (rest : List Req) (more : List SuItem), s.dev.held = false →
    let d := s.dev
    (d.su u).work = .xfer t :: more → t.toIssue = r :: rest → (∀ i ∈ more, i.ring = false) →
    (∀ port half, r.wp = none → t.dest = .route port half → d.region r.addr = .ddr → d.rd (Reg.CL_SC_EN.at [u / 16]) = 0 → d.rd (Reg.SU_REG_EN.at (six u)) = 0 →
      d.tagFree u = true → (d.chan (r.addr / 256 % 12)).reads.length < 64 →
      (∀ w ∈ (d.chan (r.addr / 256 % 12)).writes ++ (d.chan (r.addr / 256 % 12)).waitWrites, w.granule ≠ r.addr / 256) →
      let opens := t.opens r
      let cred (e : Dev) := e.rd (Reg.SU_RT_CRED.at (six u [port]))
      (cred d < opens.length → completes (.suRequest u) s (fun e =>
        e.rd (Reg.SU_STATE.at (six u)) = 2 ∧ e.rd (Reg.SU_RT_WAITING.at (six u [port])) = 1 ∧ (e.su u).work = (d.su u).work ∧ cred e = cred d ∧ e.ddr = d.ddr)) ∧
      (opens.length ≤ cred d → cred d < 16384 → completes (.suRequest u) s (fun e =>
        e.rd (Reg.SU_STATE.at (six u)) = 1 ∧ cred e = cred d - opens.length ∧ e.rd (Reg.SU_RT_WAITING.at (six u [port])) = 0 ∧
        (∃ t', (e.su u).work = .xfer t' :: more ∧ t'.toIssue = rest ∧
          t'.flying = t.flying ++ [{ r with deadline := d.rd (Reg.SU_DL.at (six u)), tag := true, served := false, data := none, line := none }] ∧
          ∀ i < t.txns.length, ∀ p, t.txns[i]? = some p → t'.txns[i]? = some { p with opened := p.opened || opens.contains i }) ∧
        (e.chan (r.addr / 256 % 12)).reads = (d.chan (r.addr / 256 % 12)).reads ++ [⟨0x100 + u, r.addr / 256, d.rd (Reg.SU_DL.at (six u)), false, false⟩] ∧
        e.mem = d.mem ∧ e.fabric = d.fabric))) ∧
    (r.wp = none → t.dest = .plain → d.region r.addr = .ddr → (∀ p ∈ t.txns, d.region p.off = .ddr) → d.rd (Reg.CL_SC_EN.at [u / 16]) = 0 →
      (d.chan (r.addr / 256 % 12)).reads.length < 64 → SuItem.writes (r.addr / 256) (r.addr / 256) (.xfer t) = false →
      (∀ w ∈ (d.chan (r.addr / 256 % 12)).writes ++ (d.chan (r.addr / 256 % 12)).waitWrites, w.granule ≠ r.addr / 256) →
      (d.tagFree u = false → completes (.suRequest u) s (fun e => e.rd (Reg.SU_STATE.at (six u)) = 4 ∧ suFrame u [] d e ∧ e.su u = d.su u)) ∧
      (d.tagFree u = true → d.rd (Reg.SU_REG_EN.at (six u)) = 1 →
        min (d.rd (Reg.SU_BURST.at (six u)) * 64000) ((d.su u).bucket + d.rd (Reg.SU_RATE.at (six u)) * (d.time - (d.su u).bucketAt)) < 64000 →
        completes (.suRequest u) s (fun e => e.rd (Reg.SU_STATE.at (six u)) = 5 ∧ (e.su u).work = (d.su u).work ∧ e.ddr = d.ddr)) ∧
      (d.tagFree u = true → d.rd (Reg.SU_REG_EN.at (six u)) = 0 → completes (.suRequest u) s (fun e =>
        e.rd (Reg.SU_STATE.at (six u)) = 1 ∧
        (∃ t', (e.su u).work = .xfer t' :: more ∧ t'.toIssue = rest ∧
          t'.flying = t.flying ++ [{ r with deadline := d.rd (Reg.SU_DL.at (six u)), tag := true, served := false, data := none, line := none }]) ∧
        (e.chan (r.addr / 256 % 12)).reads = (d.chan (r.addr / 256 % 12)).reads ++ [⟨0x100 + u, r.addr / 256, d.rd (Reg.SU_DL.at (six u)), false, false⟩] ∧
        e.mem = d.mem ∧ e.fabric = d.fabric))) ∧
    (∀ p c off, r.wp = some p → t.dest = .plain → (∀ p ∈ t.txns, d.region p.off = .ddr) → d.region r.addr = .sp c off → d.mcState c = 2 → d.anyShut c off r.len = false →
      let slot := 2 * d.rd (Reg.SU_WP_THANDLE.at (six u [p])) + d.rd (Reg.SU_WP_CUR_HALF.at (six u [p]))
      let core := d.rd (Reg.SU_WP_TCORE.at (six u [p]))
      let diff (g : Nat) : Int := toSigned 16 (d.rd (Reg.SLOT_GEN.at (cix core [slot])) + 65536 - g)
      (d.rd (Reg.SLOT_FULL.at (cix core [slot])) = 0 → completes (.suRequest u) s (fun e => e.rd (Reg.SU_STATE.at (six u)) = 3 ∧ suFrame u [] d e ∧ e.su u = d.su u)) ∧
      (∀ g, d.rd (Reg.SLOT_FULL.at (cix core [slot])) = 1 → t.gchk = some g → 0 < diff g → suFreezes (.suRequest u) s u t.pc 6) ∧
      (d.rd (Reg.SLOT_FULL.at (cix core [slot])) = 1 → (∀ g, t.gchk = some g → diff g = 0) → c / 9 = u / 16 → d.rd (Reg.SU_REG_EN.at (six u)) = 0 →
        completes (.suRequest u) s (fun e => e.rd (Reg.SU_STATE.at (six u)) = 1 ∧
          (∃ t', (e.su u).work = .xfer t' :: more ∧ t'.toIssue = rest ∧
            t'.flying = t.flying ++ [{ r with deadline := d.rd (Reg.SU_DL.at (six u)), tag := false, served := true, data := none, line := none }]) ∧
          e.mem = d.mem ∧ e.fabric = d.fabric ∧ suFrame u [] d e)))

/-- SU_READ_RETURN (R148, R167, R172): the data of the last request of a copy arrives and its one transaction goes out; the transfer is over. To LPDDR6, with room in the write queues and no earlier read of the unit outstanding, memory holds the source bytes
at the destination and no other byte changes; through a route, a write of the source bytes leaves for the half of the handle that the route leads to, and no byte changes yet. -/
def Obligations.ReadsReturn : Prop :=
  ∀ (s : State) (u : Fin 128) (t : Transfer) (r : Req) (p : TxnPlan) (ext : Bytes), s.dev.held = false →
    let d := s.dev
    (d.su u).work = [.xfer t] → t.flying = [r] → t.toIssue = [] → t.txns = [p] → t.gather = none → t.vectors = false → t.got = [] → t.bad = [] →
    p.opened = true → p.srcs = (List.range r.len).map (fun i => Source.byte (r.addr + i)) → 0 < r.len → r.served = true → r.data = none → r.tag = false →
    (∃ c off, d.region r.addr = .sp c off ∧ d.anyWaking c off r.len = false) → d.ecc = [] → d.suState u ≠ 7 →
    toSigned 32 (r.deadline + 2 ^ 32 - d.time % 2 ^ 32) ≥ 0 →
    (t.dest = .plain → d.region p.off = .ddr → d.cache = [] → d.roomFor (0x100 + u) p.off r.len = true → completes (.suReadReturn u 0 ext false) s (fun e =>
      e.bytes p.off r.len = d.bytes r.addr r.len ∧ bytesBut [(p.off, r.len)] d e ∧ (e.su u).work = [] ∧ regsBut [] d e ∧ e.fabric = d.fabric)) ∧
    (∀ port half, t.dest = .route port half → d.rd (Reg.SU_RT_TCORE.at (six u [port])) < 72 → completes (.suReadReturn u 0 ext false) s (fun e =>
      e.fabric = d.fabric ++ [⟨.su u, .core (d.rd (Reg.SU_RT_TCORE.at (six u [port]))), .write ⟨0x100 + u, t.aow, some (d.rd (Reg.SU_RT_ROUTE.at (six u [port]))),
        d.rd (Reg.SU_RT_TCORE.at (six u [port])), d.rd (Reg.SU_RT_THANDLE.at (six u [port])), half, p.off, d.bytes r.addr r.len, 0, t.pc, []⟩⟩] ∧
      e.mem = d.mem ∧ (e.su u).work = [] ∧ regsBut [] d e))

/-- Launches, drains and stalls of stream units (R174, R180, R181, R182, R194): a launch starts an enabled idle unit, is held by a running one, and sets REARM_OVERRUN where it replaces one or finds the unit not enabled; the drain after END
ends in IDLE or in the held launch; CREDIT_STALL is raised once and marks the pipeline for re-initialisation. REINIT_HANDLES_RESET (R150, R168, R181): once no transaction of the pipeline's writers is on its way, the ports of its stream units are reset, and the pipeline goes on with event 0x0211; before, nothing happens. -/
def Obligations.StreamUnitRuns : Prop :=
  (∀ (s : State) (i : Nat) (src : Node) (u : Fin 128) (t : Nat) (l : Launch), s.dev.held = false →
     let d := s.dev
     let st (e : Dev) := e.rd (Reg.SU_STATE.at (six u))
     let begun (q : Su) (l : Launch) (e : Dev) : Prop := st e = 1 ∧ e.rd (Reg.SU_PC.at (six u)) = d.rd (Reg.SU_ENTRY_PC.at (six u)) % 32 ∧
       e.rd (Reg.SU_DL.at (six u)) = l.deadline % 2 ^ 32 ∧ e.rd (Reg.SU_LAUNCH.at (six u)) = l.word.toNat ∧
       e.su u = { q with n := Tab.put 0 q.n 0 l.word, nest := [], shadow := none, fence := false, acks := [] }
     (d.arriving i = some ⟨src, .su u, .launch t l⟩ →
       (d.rd (Reg.SU_ENABLE.at (six u)) = 0 → completes (.suLaunch i) s (fun e =>
         e.rd (Reg.SU_REARM_OVERRUN.at (six u)) = 1 ∧ raised 0x0212 0 (0x100 + u) [] d e ∧ e.su u = d.su u ∧ st e = st d ∧ e.fabric = dropAt d.fabric i)) ∧
       (d.rd (Reg.SU_ENABLE.at (six u)) = 1 → st d = 0 → completes (.suLaunch i) s (fun e => begun (d.su u) l e ∧ e.fabric = dropAt d.fabric i)) ∧
       (d.rd (Reg.SU_ENABLE.at (six u)) = 1 → st d ≠ 0 → st d ≠ 7 → completes (.suLaunch i) s (fun e =>
         e.su u = { d.su u with shadow := some l } ∧ st e = st d ∧ ((d.su u).shadow ≠ none → e.rd (Reg.SU_REARM_OVERRUN.at (six u)) = 1)))) ∧
     (st d = 6 → d.suQuiet u = true → (d.su u).stale = 0 →
       ((d.su u).shadow = none → completes (.suDrainDone u) s (fun e => st e = 0 ∧ e.su u = { d.su u with ended := true } ∧ suFrame u [] d e)) ∧
       ((d.su u).shadow = some l → completes (.suDrainDone u) s (fun e => begun { d.su u with ended := true } l e))) ∧
     (st d = 6 → d.suQuiet u = true → (d.su u).stale ≠ 0 → (d.su u).shadow = none → completes (.suDrainDone u) s (fun e =>
       st e = 0 ∧ e.su u = { d.su u with stale := (d.su u).stale - 1 } ∧ suFrame u [] d e)) ∧
     (st d = 6 → d.suQuiet u = false → completes (.suDrainDone u) s (fun e => e = d)) ∧
     (∀ k < 8, st d = 2 → d.rd (Reg.SU_CSTALL_LIMIT.at (six u)) ≠ 0 → d.rd (Reg.SU_RT_WAITING.at (six u [k])) = 1 →
       (∀ j < k, d.rd (Reg.SU_RT_WAITING.at (six u [j])) = 0) →
       ((d.su u).stalled = false → completes (.creditStall u) s (fun e =>
         raised 0x0210 0 (0x100 + u) [k, d.rd (Reg.SU_RT_TCORE.at (six u [k])), d.rd (Reg.SU_RT_THANDLE.at (six u [k]))] d e ∧ (e.su u).stalled = true ∧
         (Tab.find d.reinitFrame (d.rd (Reg.SU_PIPELINE.at (six u))) = none → e.reinitMarked = d.reinitMarked ++ [d.rd (Reg.SU_PIPELINE.at (six u))]))) ∧
       ((d.su u).stalled = true → completes (.creditStall u) s (fun e => e = d)))) ∧
  (∀ (s : State) (p : Fin 64), s.dev.held = false →
     let d := s.dev
     (d.pipeWrites p = true → completes (.reinitHandlesReset p) s (fun e => e = d)) ∧
     (d.pipeWrites p = false → p.val ∈ d.reinitRunning → (∀ c i, d.rd (Reg.SP_INRT_ROUTE.at (cix c [i])) < 16) → (∀ u r, d.rd (Reg.SU_RT_ROUTE.at (six u [r])) < 16) →
       (∀ l ∈ d.plan.beLayers, l.inCore < 72 ∧ l.inHandle < 64 ∧ l.inHalo < 64) → completes (.reinitHandlesReset p) s (fun e =>
       p.val ∉ e.reinitRunning ∧ (∀ q ∈ d.reinitRunning, q ≠ p.val → q ∈ e.reinitRunning) ∧
       (p.val ∉ d.reinitQuiet → raised 0x0211 5 p [] d e ∧ Tab.find e.reinitFrame p = some d.pipeCount) ∧
       (p.val ∈ d.reinitQuiet → e.events = d.events ∧ e.reinitFrame = d.reinitFrame ∧ p.val ∉ e.reinitQuiet) ∧ e.mem = d.mem ∧
       (∀ u : Fin 128, d.rd (Reg.SU_PIPELINE.at (six u)) = p → (∀ r < 8, e.rd (Reg.SU_RT_CUR_HALF.at (six u [r])) = 0) ∧
         (∀ r < 4, e.rd (Reg.SU_WP_CUR_HALF.at (six u [r])) = 0 ∧ e.rd (Reg.SU_WP_EGEN0.at (six u [r])) = 1 ∧ e.rd (Reg.SU_WP_EGEN1.at (six u [r])) = 1)))))

/-! ### Memories -/

/-- Banks of a scratchpad (R154, R155, R157): a bank powers down once its outstanding-write count, less what reports of unused credits take off, is zero and no write for it is in flight, and loses its contents; a bank that waits too long stays powered and raises 0x0712; a woken bank, and a half after zero-fill,
hold zeros. Bytes outside the bank or half stay. SP_SCRUB (R158 to R160): the scrub of a bank goes on to its next physical row; a single-bit error of the row's word is corrected and counted, a double-bit error is reported as event 0x0720 and stays; memory does not change. So is a
physical row that holds no logical row, a spare not in use or a row that was replaced. -/
def Obligations.Scratchpads : Prop :=
  (∀ (s : State) (c : Fin 72) (b : Fin 48), s.dev.held = false →
     let d := s.dev
     let on (e : Dev) : Bool := if b.val < 32 then e.bitAt (Reg.SP_BANK_ON_LO.at (cix c)) b else e.bitAt (Reg.SP_BANK_ON_HI.at (cix c)) (b - 32)
     let lo := spAddr c (b * 65536)
     let zeroed (e : Dev) : Prop := (∀ a, lo ≤ a → a < lo + 65536 → e.byte a = 0) ∧ bytesBut [(lo, 65536)] d e
     (Tab.get 0 (d.core c).pgWait b = 1 → Tab.get 0 ((d.takeReports c).core c).owed b = 0 → (d.takeReports c).bankWrites c b = false → completes (.pgPowerDown c b) s (fun e =>
       on e = false ∧ zeroed e ∧ Tab.get 0 (e.core c).pgWait b = 0 ∧ regsBut [(Reg.SP_BANK_ON_LO.at (cix c)).key, (Reg.SP_BANK_ON_HI.at (cix c)).key] d e)) ∧
     ((Tab.get 0 (d.core c).pgWait b ≠ 1 ∨ Tab.get 0 ((d.takeReports c).core c).owed b ≠ 0 ∨ (d.takeReports c).bankWrites c b = true) →
       completes (.pgPowerDown c b) s (fun e => e = d.takeReports c)) ∧
     ((∀ m ∈ d.fabric, m.reportTo c = false) → d.takeReports c = d) ∧
     (Tab.get 0 (d.core c).pgWait b = 1 → completes (.pgTimeout c b) s (fun e =>
       on e = on d ∧ e.rd (Reg.SP_PG_TIMEOUT.at (cix c)) = 1 ∧ raised 0x0712 0 c [] d e ∧ Tab.get 0 (e.core c).pgWait b = 2 ∧ e.mem = d.mem)) ∧
     (b.val ∈ (d.core c).waking → completes (.bankFillDone c b) s (fun e =>
       on e = true ∧ zeroed e ∧ b.val ∉ (e.core c).waking ∧ (∀ k ∈ (d.core c).waking, k ≠ b.val → k ∈ (e.core c).waking))) ∧
     (∀ (slot : Fin 128) (z : ZFill) (rest : List ZFill), (d.core c).zfills = z :: rest → z.slot = slot.val → (∀ y ∈ rest, y.slot ≠ slot.val) →
       completes (.zfillDone c slot) s (fun e =>
         let r := d.halfBytes c (slot / 2) (slot % 2)
         (∀ a, spAddr c r.1 ≤ a → a < spAddr c r.1 + r.2 → e.byte a = 0) ∧ bytesBut [(spAddr c r.1, r.2)] d e ∧
         (z.queued = [] → e.rd (Reg.SLOT_FULL.at (cix c [slot])) = 0 ∧ e.rd (Reg.SLOT_GEN.at (cix c [slot])) = z.gen % 65536 ∧ (e.core c).zfills = rest)))) ∧
  (∀ (s : State) (c : Fin 72) (b : Fin 48) (j w : Nat), s.dev.held = false →
     let d := s.dev
     let p := Tab.get 0 (d.core c).scrubRow b
     let mark (e : Dev) (k : Nat) : Nat := Tab.get 0 e.ecc (spAddr c (b * 65536 + j * 512 + k * 8) / 8)
     d.bankGated c b = false → d.bankWaking c b = false → d.rowAt c b p = some j → j < 128 → w < 64 → (∀ k < 64, k ≠ w → mark d k = 0) →
     completes (.spScrub c b) s (fun e =>
       Tab.get 0 (e.core c).scrubRow b = (p + 1) % 132 ∧ e.mem = d.mem ∧
       (mark d w = 0 → regsBut [] d e ∧ e.ecc = d.ecc) ∧
       (mark d w = 1 → mark e w = 0 ∧ e.rd (Reg.SP_ECC_CORR.at (cix c)) = 1 ∧ e.rd (Reg.SP_ECC_WAS_DED.at (cix c)) = 0 ∧
         e.rd (Reg.SP_ECC_CORR_CNT.at (cix c)) = min (d.rd (Reg.SP_ECC_CORR_CNT.at (cix c)) + 1) (2 ^ 32 - 1) ∧ e.rd (Reg.SP_ECC_BANK.at (cix c)) = b ∧
         e.events = d.events) ∧
       (mark d w = 2 → mark e w = 2 ∧ e.rd (Reg.SP_ECC_DED.at (cix c)) = 1 ∧ e.rd (Reg.SP_ECC_WAS_DED.at (cix c)) = 1 ∧ e.rd (Reg.SP_ECC_BANK.at (cix c)) = b ∧
         raised 0x0720 8 0 [] d e))) ∧
  (∀ (s : State) (c : Fin 72) (b : Fin 48) (w : Nat), s.dev.held = false →
     let d := s.dev
     let p := Tab.get 0 (d.core c).scrubRow b
     let mark (e : Dev) (k : Nat) : Nat := Tab.get 0 (e.core c).ecc (rowKey b p + k)
     d.bankGated c b = false → d.bankWaking c b = false → d.rowAt c b p = none → w < 64 → (∀ k < 64, k ≠ w → mark d k = 0) →
     completes (.spScrub c b) s (fun e =>
       Tab.get 0 (e.core c).scrubRow b = (p + 1) % 132 ∧ e.mem = d.mem ∧ e.ecc = d.ecc ∧ e.corrRows = d.corrRows ∧
       (mark d w = 0 → regsBut [] d e) ∧
       (mark d w = 1 → mark e w = 0 ∧ e.rd (Reg.SP_ECC_CORR.at (cix c)) = 1 ∧ e.rd (Reg.SP_ECC_WAS_DED.at (cix c)) = 0 ∧
         e.rd (Reg.SP_ECC_CORR_CNT.at (cix c)) = min (d.rd (Reg.SP_ECC_CORR_CNT.at (cix c)) + 1) (2 ^ 32 - 1) ∧ e.events = d.events) ∧
       (mark d w = 2 → mark e w = 2 ∧ e.rd (Reg.SP_ECC_DED.at (cix c)) = 1 ∧ e.rd (Reg.SP_ECC_WAS_DED.at (cix c)) = 1 ∧ raised 0x0720 8 0 [] d e)))

/-- ROW_MAP_OUT (R161 to R163, R192, R379, R380): a scratchpad row that has met its criterion is replaced by a spare of its bank that is free, with an entry of the repair table and event 0x0721; an LPDDR6 row is entered for
post-package repair with event 0x0732; a row that has not met it, or has expired, stays. A command slot of an LPDDR6 channel (R185, R186): with reads only, none critical and none later than HIT_SLACK, it serves one with the earliest deadline, unless a refresh takes the slot; a read that is served takes its data then. (No stream unit has a transaction open that the slot could let go on.) -/
def Obligations.RowsAndSlots : Prop :=
  (∀ (s : State) (cls : Fin 4) (location : BitVec 27) (r : CorrRow), s.dev.held = false →
     let d := s.dev
     let loc := if cls = 3 then location.toNat % 2 ^ 26 else if cls = 0 then location.toNat % 2 ^ 20 else if cls = 1 then location.toNat % 2 ^ 17 else location.toNat % 2 ^ 15
     d.corrRows.find? (fun r => decide (r.cls = cls.val) && decide (r.loc = loc)) = some r →
     let met := r.ue = true ∨ (if cls = 3 then 16 else 4) ≤ r.count
     let live := d.time < r.first + 86400000000000
     ((¬ met ∨ ¬ live) → completes (.rowMapOut cls location) s (fun e => e = d)) ∧
     (met → live → d.repair.length < 65536 →
       (∀ (c : Fin 72) (b : Fin 48) (row i : Nat), cls = 0 → loc = c + b * 128 + row * 8192 → row < 128 → d.freeSpare 0 loc = some i → completes (.rowMapOut cls location) s (fun e =>
         e.rd (Reg.SP_REMAP_VALID.at (cix c [b, i])) = 1 ∧ e.rd (Reg.SP_REMAP_ROW.at (cix c [b, i])) = row ∧
         e.repair = d.repair ++ [⟨0, true, loc + i * 2 ^ 20, d.hours⟩] ∧ raised 0x0721 8 0 [loc + i * 2 ^ 20, 0] d e)) ∧
       (cls = 3 → (∀ x ∈ d.repair, x.cls ≠ 3) → completes (.rowMapOut cls location) s (fun e =>
         e.repair = d.repair ++ [⟨3, true, loc, d.hours⟩] ∧ raised 0x0732 8 0 [loc, 3] d e ∧ e.mem = d.mem ∧ e.ecc = d.ecc)))) ∧
  (∀ (s : State) (ch : Fin 12), s.dev.held = false →
     let d := s.dev
     let q := d.chan ch
     let left (x : DdrEntry) : Int := toSigned 32 (x.deadline + 2 ^ 32 - d.time % 2 ^ 32)
     q.writes = [] → q.reads ≠ [] → q.waitReads = [] → q.waitWrites = [] →
     (∀ x ∈ q.reads, x.critical = false ∧ d.criticalNow x = false ∧ left x ≤ (d.rd (Reg.DDR_HIT_SLACK.at []) : Int)) →
     (∀ v < 128, ∀ it ∈ (d.su v).work, ∃ t, it = .xfer t ∧ ∀ p ∈ t.txns, p.opened = false) →
     completes (.ddrCommandSlot ch) s (fun e =>
       e.mem = d.mem ∧ e.fabric = d.fabric ∧
       (((∀ k, e.chan k = d.chan k) ∧ e.sus = d.sus) ∨ ∃ x ∈ q.reads, (∀ y ∈ q.reads, left x ≤ left y) ∧ (e.chan ch).reads = q.reads.erase x ∧ (e.chan ch).writes = [] ∧
         (e.chan ch).lastMaster = x.master ∧
         ∀ (u : Fin 128) (t : Transfer) (r : Req), x.master = 0x100 + u → (d.su u).work = [.xfer t] → t.flying = [r] → r.served = false → r.addr / 256 = x.granule →
           (e.su u).work = [.xfer { t with flying := [{ r with served := true, data := some (d.bytes r.addr r.len), line := some (d.scLine (r.addr / 256)) }] }])))

/-! ### The sequencer -/

/-- SOURCE_LATCH (R28 to R30, R206, R484): the first latch of an enhancement pipeline whose raster runs is for the frame after the last boundary and fixes the newest input frame, the one before it, REPEAT and PHASE; with no input
frame yet it is not live. Flips and their fences (R289 to R292): a fence is met when the word read is at least FENCE_VAL; once the last fence of the raster is read, a layer in no group whose fence is met takes its pending flip, and one whose fence is not met keeps showing its front
buffer; a fence not read in time counts as not met. -/
def Obligations.LatchesAndFlips : Prop :=
  (∀ (s : State) (p : Fin 64) (r : PipeRec), s.dev.held = false → s.dev.pipeRec p = some r → r.analysis = false → r.output ≠ 3 →
     s.dev.outRuns (s.dev.pipeRaster r) = true → (s.dev.pipe p).latches = [] → (s.dev.pipe p).todo = [] →
     let d := s.dev
     let frame := d.outFrame (d.pipeRaster r) + 1
     ((d.stream r.stream).done = [] → completes (.sourceLatch p) s (fun e => ∃ l : Latch,
       (e.pipe p).latches = [l] ∧ (e.pipe p).todo = [l] ∧ l.frame = frame ∧ l.live = false ∧ (e.pipe p).lastCount = (d.pipe p).lastCount)) ∧
     (∀ f old more, (d.stream r.stream).done = f :: old :: more → completes (.sourceLatch p) s (fun e => ∃ l : Latch,
       (e.pipe p).latches = [l] ∧ (e.pipe p).todo = [l] ∧ l.frame = frame ∧ l.live = true ∧ l.src = f ∧
       l.newer = d.bufBase r.stream f.buf ∧ l.older = d.bufBase r.stream old.buf ∧
       (l.rep = true ↔ (d.pipe p).lastCount = some f.count) ∧ (r.retime = false → l.phase = 0) ∧
       (r.retime = true → old.time < f.time → f.time ≤ d.time → l.phase = min 255 (256 * (d.time - f.time) / (f.time - old.time))) ∧
       (e.pipe p).lastCount = some f.count ∧ e.mem = d.mem ∧ e.fabric = d.fabric))) ∧
  (∀ (s : State) (j : Fin 16) (f : Flip), s.dev.held = false →
     let d := s.dev
     let q := d.layer j
     let o := d.rasterOf j
     let met : Prop := f.fenceVal ≤ d.readLe f.fenceAddr 8
     let front (l h q : Nat) (e : Dev) : Prop := holds e (Reg.LAY_FRONT_ADDR_LO.at [j.val]) l ∧ holds e (Reg.LAY_FRONT_ADDR_HI.at [j.val]) h ∧ holds e (Reg.LAY_FRONT_SEQ.at [j.val]) q
     let stays (e : Dev) : Prop := ∀ r ∈ [Reg.LAY_FRONT_ADDR_LO, Reg.LAY_FRONT_ADDR_HI, Reg.LAY_FRONT_SEQ, Reg.LAY_PENDING, Reg.LAY_FLIPS], e.rd (r.at [j.val]) = d.rd (r.at [j.val])
     (q.pend = some f → q.fence = 1 → d.asking (fenceMaster j) = true → completes (.fenceReadReturn j) s (fun e => e = d)) ∧
     (q.pend = some f → q.fence = 1 → f.fenceEn = true → d.ecc = [] → d.asking (fenceMaster j) = false →
       ((∃ i ∈ d.rasterLayers o, i ≠ j.val ∧ (d.layer i).fence = 1) → completes (.fenceReadReturn j) s (fun e =>
         (met → e.layer j = { q with fence := 2 }) ∧ (¬ met → e.layer j = { q with fence := 3 }) ∧ e = { d with layers := e.layers } ∧ ∀ i, i ≠ j.val → e.layer i = d.layer i)) ∧
       ((∀ i ∈ d.rasterLayers o, i ≠ j.val → (d.layer i).fence ≠ 1) → d.rd (Reg.LAY_KIND.at [j.val]) = 1 → d.rd (Reg.LAY_GROUP.at [j.val]) = 0 →
         completes (.fenceReadReturn j) s (fun e =>
           (met → front f.addr (f.addr / 2 ^ 32) f.seq e ∧ e.rd (Reg.LAY_PENDING.at [j.val]) = 0 ∧ counted (Reg.LAY_FLIPS.at [j.val]) d e ∧ (e.layer j).pend = none ∧
             (e.layer j).frontPitch = f.pitch ∧ e.rd (Reg.LAY_FENCE_MET.at [j.val]) = 1) ∧
           (¬ met → stays e ∧ (e.layer j).pend = some f ∧ e.rd (Reg.LAY_FENCE_MET.at [j.val]) = 0) ∧ e.mem = d.mem))) ∧
     (q.fence ≠ 1 → completes (.fenceReadReturn j) s (fun e => e = d)) ∧
     (∀ p : Fin 2, (d.split = false ∨ p = 0) → j.val ∈ d.rasterLayers p → q.pend = some f → q.fence = 1 → f.fenceEn = true → completes (.fenceTimeout p) s (fun e =>
       counted (Reg.LAY_FENCE_TIMEOUT.at [j.val]) d e ∧ stays e ∧ (e.layer j).pend = some f ∧ (e.layer j).fence = 0 ∧ e.mem = d.mem)) ∧
     (∀ p : Fin 2, (∀ i ∈ d.rasterLayers p, (d.layer i).fence ≠ 1) → completes (.fenceTimeout p) s (fun e => e = d)))

/-- CHAIN_COMMAND and LAUNCH_DEQUEUE (R202 to R205, R229, R372): the sequencer takes the next latched frame, or the next stripe of the frame in progress, and queues one launch for every member it names, the frame members at stripe 0 only, each with the fields of its launch word; no other
queue changes. With the queue of one member full, or a work counter that holds a queued arm, no member is launched, 0x0152 is raised, the pipeline is marked for re-initialisation and its lines come from the guard path; Q counts either way. A launch leaves its queue for a member that holds none.
(The members are cores and stream units; the jobs of boundary engines are BoundaryEngineRows.) -/
def Obligations.ChainCommands : Prop :=
  ∀ (s : State) (p : Fin 64) (r : PipeRec) (l : Latch) (i : Nat), s.dev.held = false →
    let d := s.dev
    let k := d.pipe p
    let taken := r.members.filter (fun m => !m.frameMember || i = 0)
    let queue (m : MemberRec) (e : Dev) : List Launch := Tab.get [] e.launchQ (if m.master < 72 then m.master * 8 + m.task else 0x1000 + m.master)
    let armHeld (m : MemberRec) : Bool := m.armsWc && (Tab.get {} d.wcs (m.wcCluster * 32 + m.wc)).queuedArm.isSome
    let begun (e : Dev) : Prop := (e.pipe p).cur = some l ∧ (e.pipe p).stripe = i + 1 ∧ (e.pipe p).q = k.q + 1 ∧ (i = 0 → (e.pipe p).todo = k.todo.drop 1) ∧ (i ≠ 0 → (e.pipe p).todo = k.todo)
    let stripeFields (m : MemberRec) (w : Word) : Prop :=
      (w.getLsbD 0 = true ↔ i = 0 ∧ m.topPad = true) ∧ (w.getLsbD 1 = true ↔ m.botFrom ≤ i) ∧
      (d.rd (Reg.BCN_W_PRESENT.at []) = 1 → w.getLsbD 2 = m.edgeL) ∧ (d.rd (Reg.BCN_E_PRESENT.at []) = 1 → w.getLsbD 3 = m.edgeR) ∧
      w.toNat / 16 % 2 = (if m.twoHalves then k.q % 2 else 0) ∧ w.toNat / 32 % 128 = (min ((i + 1) * m.hi + m.delta) m.y - (if i = 0 then 0 else min (i * m.hi + m.delta) m.y)) % 128 ∧
      (w.getLsbD 12 = true ↔ i + 1 = r.stripes) ∧ w.toNat / 65536 = (if m.twoHalves then k.q / 2 + 1 else k.q + 1) % 65536
    let frameFields (w : Word) : Prop := w.toNat % 256 = l.phase ∧ w.getLsbD 8 = l.rep ∧ w.toNat / 512 % 128 = 0 ∧ w.toNat / 65536 = l.frame % 65536
    (d.seqRun = true → d.pipeRec p = some r → r.pipe = p → (∀ m ∈ r.members, m.master < 0x180 ∧ m.task < 8) → l.phase < 256 →
      (i = 0 → (k.cur = none ∨ r.stripes ≤ k.stripe) ∧ k.todo.head? = some l ∧ l.live = true) →
      (i ≠ 0 → k.cur = some l ∧ k.stripe = i ∧ i < r.stripes ∧ k.wait0 = false) →
      d.parked p = false → p.val ∉ d.stopped → p.val ∉ d.reinitRunning →
      ((∀ m ∈ taken, (queue m d).length < 16 ∧ armHeld m = false) → (r.members.map (fun m => if m.master < 72 then m.master * 8 + m.task else 0x1000 + m.master)).Nodup → completes (.chainCommand p) s (fun e => begun e ∧
        (∀ m ∈ taken, ∃ x : Launch, queue m e = queue m d ++ [x] ∧ (m.frameMember = false → stripeFields m x.word) ∧ (m.frameMember = true → frameFields x.word)) ∧
        (∀ key, (∀ m ∈ taken, (if m.master < 72 then m.master * 8 + m.task else 0x1000 + m.master) ≠ key) → Tab.get [] e.launchQ key = Tab.get [] d.launchQ key) ∧ e.mem = d.mem)) ∧
      ((∃ m ∈ taken, 16 ≤ (queue m d).length ∨ armHeld m = true) → completes (.chainCommand p) s (fun e => begun e ∧ e.launchQ = d.launchQ ∧ e.fabric = d.fabric ∧
        raised 0x0152 5 p [] d e ∧ p.val ∈ e.reinitMarked ∧ (e.pipe p).guarded = 1))) ∧
    (d.seqRun = false → completes (.chainCommand p) s (fun e => e = d)) ∧
    (∀ (c : Fin 72) (t : Fin 8) (x : Launch) (more : List Launch), Tab.get [] d.launchQ (c * 8 + t) = x :: more → (d.task c t).pending = none →
      (∀ y ∈ d.fabric, ∀ z, y ≠ ⟨y.src, .core c, .launch t z⟩) → completes (.launchDequeue (.core c t)) s (fun e =>
        e.fabric = d.fabric ++ [⟨.seq, .core c, .launch t x⟩] ∧ Tab.get [] e.launchQ (c * 8 + t) = more ∧ e = { d with fabric := e.fabric, launchQ := e.launchQ })) ∧
    (∀ (u : Fin 128) (x : Launch) (more : List Launch), Tab.get [] d.launchQ (0x1100 + u) = x :: more → (d.su u).shadow ≠ none →
      completes (.launchDequeue (.su u)) s (fun e => e = d))

/-! ### The boundary engines -/

/-- BE_ROW and BE_ROW_DONE (R14, R125, R126, R128 to R130, R201, R282): an engine takes the job that comes first of those that can start a row and computes its next row; a finished row of a first layer leaves as writes and takes their credits, one of a last layer
becomes a line of its layer with its completion tag, or counts as late, or stops the engine where it does not fit its slot (R131); after the last row the halves are released. Waiting jobs change nothing. A row is computed from the input rows the job
holds: those it held before and those it reads now (R125). -/
def Obligations.BoundaryEngineRows : Prop :=
  ∀ (s : State) (e : Fin 4) (b : BeJob) (l : BeLayer) (data : Bytes), s.dev.held = false → s.dev.jobLayer b = some l →
    let d := s.dev
    let k := d.be e
    let runs := beOutRuns l b b.next data
    let writes : List Msg := runs.map (fun r => ⟨.be e, .core r.tcore, .write ⟨0x180 + e, 0, some r.route, r.tcore, r.handle, r.half, r.off, r.data, 0, 0, []⟩⟩)
    let rel (route : Option Nat) (core handle half gmode gen : Nat) (full : Bool) : Msg := ⟨.be e, .core core, .tag ⟨0x180 + e, route, core, handle, half, full, gmode, gen, 0, 0⟩⟩
    let half := b.word.toNat / 16 % 2
    let gen := b.word.toNat / 65536 % 65536
    (k.stopped = false → k.retired = false → k.row = none → k.ded = false →
      ((∀ q ∈ k.job.toList ++ k.queue, d.canStart e q = false) → completes (.beRow e) s (fun t => t = d)) ∧
      (k.job = none → b ∈ k.queue → d.canStart e b = true → (∀ q ∈ k.queue, d.canStart e q = true → q = b ∨ b.before d.time q = true) →
        b.last = false → b.next < b.stop → d.ecc = [] → 0 ≤ (beCols l b).1 → (beCols l b).2 ≤ d.rd (Reg.STR_W.at [l.stream]) →
        (∀ y ∈ beInputRows l b.next, y < d.rd (Reg.STR_H.at [l.stream])) → completes (.beRow e) s (fun t =>
          ∃ b' : BeJob, b' = { b with window := b'.window } ∧
            (∀ y ∈ beInputRows l b.next, b'.window.find? (fun r => r.1 = y) =
              some (match b.window.find? (fun r => r.1 = y) with
                | some r => r
                | none => (y, d.firstInput e l b y))) ∧
          (t.be e).job = some b' ∧ (t.be e).queue = k.queue.erase b ∧ (t.be e).row = some (d.firstRow e l b' b.next) ∧
          t = { d with bes := t.bes, ddr := t.ddr, power := t.power } ∧ onlyEnergy d t ∧ ∀ i, i ≠ e.val → t.be i = d.be i))) ∧
    (k.row = some data → k.job = some b → k.stopped = false →
      (b.last = false → (∀ r ∈ runs, r.tcore < 72) → b.next + 1 < b.stop → completes (.beRowDone e) s (fun t =>
        t.fabric = d.fabric ++ writes ∧ t.be e = { k with row := none, job := some { b with next := b.next + 1 } } ∧
        (∀ r, t.beCredit e r = d.beCredit e r - (runs.filter (fun q => q.route = r)).length) ∧ t = { d with fabric := t.fabric, bes := t.bes, beCredits := t.beCredits })) ∧
      (b.last = false → l.tcore < 72 → (∀ r ∈ runs, r.tcore < 72) → b.next + 1 = b.stop → (b.word.getLsbD 12 = true ∨ l.eta = 0) → completes (.beRowDone e) s (fun t =>
        t.fabric = d.fabric ++ writes ++ [rel (some l.route) l.tcore l.thandle half 2 gen true] ∧ t.be e = { k with row := none, job := none })) ∧
      (b.last = true → b.next < b.stop → linePitch (d.rd (Reg.LAY_W.at [l.layer])) < data.length → completes (.beRowDone e) s (fun t =>
        (t.be e).stopped = true ∧ (t.be e).job = none ∧ (t.be e).queue = [] ∧ raised 0x0160 0 (0x180 + e.val) [] d t ∧ t.mem = d.mem ∧ t.layers = d.layers ∧ t.fabric = d.fabric)) ∧
      (b.last = true → b.next + 1 < b.stop → data.length ≤ linePitch (d.rd (Reg.LAY_W.at [l.layer])) → d.lineDecided l.layer b.frame b.next = true → completes (.beRowDone e) s (fun t =>
        counted (Reg.GP_LATE_CNT.at [l.layer]) d t ∧ t.mem = d.mem ∧ t.layers = d.layers ∧ regsBut [(Reg.GP_LATE_CNT.at [l.layer]).key] d t ∧
        (t.be e).job = some { b with next := b.next + 1 } ∧ t.fabric = d.fabric)) ∧
      (b.last = true → b.next + 1 < b.stop → data.length ≤ linePitch (d.rd (Reg.LAY_W.at [l.layer])) → d.lineDecided l.layer b.frame b.next = false → d.rd (Reg.LAY_KIND.at [l.layer]) = 2 →
        d.outRuns (d.rasterOf l.layer) = true → d.rd (Reg.LAY_Y.at [l.layer]) + b.next < d.vactive (d.rasterOf l.layer) → completes (.beRowDone e) s (fun t =>
        t.bytes (d.slotAddr l.layer b.next) data.length = data ∧ bytesBut [(d.slotAddr l.layer b.next, data.length)] d t ∧
        t.neuralDone l.layer b.frame b.next = true ∧ (∀ j, j ≠ l.layer → t.layer j = d.layer j) ∧ regsBut [] d t ∧ t.fabric = d.fabric)) ∧
      (b.last = true → b.next + 1 = b.stop → data.length ≤ linePitch (d.rd (Reg.LAY_W.at [l.layer])) → completes (.beRowDone e) s (fun t =>
        t.fabric = d.fabric ++ (l.inHandle :: beSideHandles l b).map (fun h => rel none l.inCore h half 0 0 false) ∧ t.be e = { k with row := none, job := none })))

/-! ### The display -/

/-- Guard paths and line buffers (R260, R261, R283 to R286): a guard path starts on the latched input frame of the coming output frame, completes its lines in order and holds at most 8, those taken and not yet composed among them, but none whose deadline has passed; a read engine completes the next
row of the front buffer while it has room. LINE_DEADLINE (R12 to R15, R262, R288): the next line in sequence is decided once. A memory-fed layer takes the row its line buffer holds; an enhanced layer takes the line of its line buffer, else its guard line, and counts it; with neither, the layer is off for the
rest of the frame and the loss is counted. During a cut-over, and for a pipeline that has overrun, was halted or is parked, an enhanced line comes from the guard path (R181, R205, R233, R375). Neither engine completes a line or row while LPDDR6 still owes it a read. (What is taken at a deadline stays: log 76; the reads' checks: log 82;
a guard line that is not taken is freed at D(y): log 179.) -/
def Obligations.LinesFetchedAndDecided : Prop :=
  (∀ (s : State) (j : Fin 16) (l : Latch), s.dev.held = false →
     let d := s.dev
     let q := d.layer j
     let o := d.rasterOf j
     let onlyLayer (x : Layer) (e : Dev) : Prop := e.layer j = x ∧ e = { d with layers := e.layers, ddr := e.ddr, power := e.power } ∧ onlyEnergy d e ∧ ∀ i, i ≠ j.val → e.layer i = d.layer i
     ((d.outRuns o = false ∨ d.rd (Reg.LAY_KIND.at [j.val]) ≠ 2) →
       completes (.guardPathStart j) s (fun e => e = d) ∧ completes (.guardLine j) s (fun e => e = d)) ∧
     (d.outRuns o = true → d.rd (Reg.LAY_KIND.at [j.val]) = 2 →
       (d.guardLatch j (d.outFrame o + 1) = some l → l.live = true → q.guardFor.map Latch.frame ≠ some (d.outFrame o + 1) → completes (.guardPathStart j) s (onlyLayer { q with guardFor := some l, guardNext := 0, glines := [] })) ∧
       (q.guardFor = some l → l.frame = d.outFrame o + 1 → d.ecc = [] → q.guardNext < min (d.rd (Reg.LAY_H.at [j.val])) (d.vactive o - d.rd (Reg.LAY_Y.at [j.val])) →
         ((8 ≤ d.guardLevel j ∨ d.asking (guardMaster j) = true) → completes (.guardLine j) s (fun e => e = d)) ∧
         (d.guardLevel j < 8 → d.asking (guardMaster j) = false → d.lineDecided j l.frame q.guardNext = true → completes (.guardLine j) s (onlyLayer { q with guardNext := q.guardNext + 1 })) ∧
         (d.guardLevel j < 8 → d.asking (guardMaster j) = false → d.lineDecided j l.frame q.guardNext = false → completes (.guardLine j) s (onlyLayer { q with
           guardNext := q.guardNext + 1
           glines := q.glines ++ [⟨q.guardNext, (d.guardPixels j l q.guardNext).flatMap (fun p => leBytes 4 p.word.toNat), false⟩] })))) ∧
     (d.outRuns o = true → d.rd (Reg.LAY_KIND.at [j.val]) = 1 → d.fencesOut o = false → d.ecc = [] →
       q.nextRow < min (d.rd (Reg.LAY_H.at [j.val])) (d.vactive o - d.rd (Reg.LAY_Y.at [j.val])) →
       (d.rd (Reg.OUT_LB_LINES.at [j / 8, j % 8]) ≤ q.rows.length → completes (.lbRowFetch j) s (fun e => e = d)) ∧
       (q.rows.length < d.rd (Reg.OUT_LB_LINES.at [j / 8, j % 8]) → q.asked = false → completes (.lbRowFetch j) s (onlyLayer { q with asked := true })) ∧
       (q.rows.length < d.rd (Reg.OUT_LB_LINES.at [j / 8, j % 8]) → q.asked = true → d.asking (lbMaster j) = true → completes (.lbRowFetch j) s (fun e => e = d)) ∧
       (q.rows.length < d.rd (Reg.OUT_LB_LINES.at [j / 8, j % 8]) → q.asked = true → d.asking (lbMaster j) = false → completes (.lbRowFetch j) s (fun e => onlyLayer { q with
         nextRow := q.nextRow + 1
         asked := (e.layer j).asked
         rows := q.rows ++ [⟨q.nextRow, d.bytes (d.rd (Reg.LAY_FRONT_ADDR_LO.at [j.val]) + d.rd (Reg.LAY_FRONT_ADDR_HI.at [j.val]) * 2 ^ 32 + q.nextRow * q.frontPitch)
           (d.rd (Reg.LAY_W.at [j.val]) * (if d.rd (Reg.LAY_FMT.at [j.val]) = 0 then 2 else if d.rd (Reg.LAY_FMT.at [j.val]) = 1 then 3 else 4)), false⟩] } e)))) ∧
  (∀ (s : State) (o : Fin 2) (j : Fin 16) (ly : Nat), s.dev.held = false →
     let d := s.dev
     let q := d.out o
     let x := d.layer j
     let y := q.decided
     let f := q.decFrame
     let guarded : Prop := (d.cut.kind ≠ 0 ∧ d.cut.step ≠ 0) ∨ ∃ r, d.pipeOfLayer j = some r ∧ ((d.pipe r.pipe).guarded ≠ 0 ∨ d.parked r.pipe = true)
     d.outRuns o = true → (d.split = false ∨ o = 0) → f ≤ d.outFrame o + 1 →
     completes (.lineDeadline o) s (fun e =>
       e.out o = (if y + 1 < d.vactive o then { q with decided := y + 1 } else { q with decided := 0, decFrame := f + 1 }) ∧ e.mem = d.mem ∧ e.fabric = d.fabric ∧
       (j.val ∈ d.rasterLayers o → d.layerLine j y = some ly → x.off ≠ some f →
         (d.rd (Reg.LAY_KIND.at [j.val]) = 1 → x.rowsFor = f →
           (∀ r, x.rows.find? (fun r => r.line = ly) = some r → (e.layer j).takes = x.takes ++ [(y, .row r.data)] ∧ (e.layer j).off = x.off) ∧
           (x.rows.find? (fun r => r.line = ly) = none → (e.layer j).takes = x.takes ∧ (e.layer j).off = some f ∧ counted (Reg.OUT_LB_UNDERRUN.at [j / 8, j % 8]) d e)) ∧
         (∀ l, d.rd (Reg.LAY_KIND.at [j.val]) = 2 → d.guardLatch j f = some l → l.live = true → d.guardForced j = false →
           (d.neuralDone j f ly = true → ¬ guarded → (e.layer j).takes = x.takes ++ [(y, .neural)] ∧ (e.layer j).off = x.off) ∧
           ((d.neuralDone j f ly = false ∨ guarded) → x.guardFor.map Latch.frame = some f →
             (∀ g, x.glines.find? (fun g => g.line = ly) = some g → (e.layer j).takes = x.takes ++ [(y, .guardLine g.data)] ∧ counted (Reg.GP_GUARD_CNT.at [j.val]) d e) ∧
             (x.glines.find? (fun g => g.line = ly) = none → (e.layer j).takes = x.takes ∧ (e.layer j).off = some f ∧ counted (Reg.GP_OFF_CNT.at [j.val]) d e))))))

/-- Boundaries (R25, R193, R235, R280): a frame boundary gives its output the next frame number, with LINE at VACTIVE, and starts the announced blanking; the one that paces PIPE, or an idle boundary with no output to pace it, numbers the PIPE frame and empties
the stripe caches. LINE_START and WB_FRAME_DONE (R279, R280, R293): blanking lines pass one by one; an active line starts only once it is decided, and before STARTED it shows BGCOLOUR alone. A write-back buffer, as it stood when it was chosen, passes to the host once every granule of the
frame has its place in a write queue (R171). -/
def Obligations.BoundariesAndLines : Prop :=
  (∀ (s : State) (o : Fin 2), s.dev.held = false → quiet s.dev →
     let d := s.dev
     let q := d.out o
     let numbered (f : Nat) (e : Dev) : Prop := e.pipeFrame = some f ∧ e.pipeCount = d.pipeCount + 1 ∧ e.cache = []
     let unnumbered (e : Dev) : Prop := e.pipeFrame = d.pipeFrame ∧ e.pipeCount = d.pipeCount ∧ e.cache = d.cache
     let frame := d.rd (Reg.OUT_FRAME.at [o.val]) + 1
     (d.outRuns o = true → d.split = false → q.inBlank = none → d.rd (Reg.OUT_LINE.at [o.val]) + 1 = d.vactive o → completes (.frameBoundary o) s (fun e =>
       counted (Reg.OUT_FRAME.at [o.val]) d e ∧ e.rd (Reg.OUT_LINE.at [o.val]) = d.vactive o % 2 ^ (Reg.OUT_LINE.at [o.val]).width ∧
       (e.out o).inBlank = some 0 ∧ (e.out o).blank = q.announced ∧ (e.out o).at_ = d.time ∧ d.outFrame o + 1 < (e.out o).decFrame ∧ e.outFrame o = d.outFrame o + 1 ∧
       (q.startAsked = true → e.rd (Reg.CMP_STARTED.at [o.val]) = 1) ∧ (q.startAsked = false → e.rd (Reg.CMP_STARTED.at [o.val]) = d.rd (Reg.CMP_STARTED.at [o.val])) ∧
       (d.pipePacer = some o.val → numbered (frame % 2 ^ 32) e) ∧ (d.pipePacer ≠ some o.val → unnumbered e) ∧ e.mem = d.mem)) ∧
     ((d.outRuns o = false ∨ q.inBlank ≠ none) → completes (.frameBoundary o) s (fun e => e = d)) ∧
     (d.pipePacer = none → completes .idleBoundary s (fun e =>
       numbered (match d.pipeFrame with | none => 0 | some f => (f + 1) % 2 ^ 32) e ∧ e.mem = d.mem ∧ e.fabric = d.fabric ∧
       regsBut (keysOf [Reg.OUT_GL_STATE.at [0], Reg.OUT_GL_STATE.at [1]]) d e)) ∧
     (d.pipePacer ≠ none → completes .idleBoundary s (fun e => e = d))) ∧
  (∀ (s : State) (o : Fin 2) (k : Nat) (f : WbFrame) (rest : List WbFrame), s.dev.held = false →
     let d := s.dev
     let q := d.out o
     let line := d.rd (Reg.OUT_LINE.at [o.val])
     (d.outRuns o = true → d.split = false → d.beacon.handOff = false →
       (q.inBlank = some k → k + 1 < q.blank → completes (.lineStart o) s (fun e =>
         counted (Reg.OUT_LINE.at [o.val]) d e ∧ (e.out o).inBlank = some (k + 1) ∧ e.mem = d.mem)) ∧
       (q.inBlank = none → line + 1 < d.vactive o →
         ((q.decFrame < d.outFrame o + 1 ∨ q.decFrame = d.outFrame o + 1 ∧ q.decided ≤ line + 1) → completes (.lineStart o) s (fun e => e = d)) ∧
         ((d.outFrame o + 1 < q.decFrame ∨ q.decFrame = d.outFrame o + 1 ∧ line + 1 < q.decided) → completes (.lineStart o) s (fun e =>
           counted (Reg.OUT_LINE.at [o.val]) d e ∧ (e.out o).inBlank = none ∧
           (d.rd (Reg.CMP_STARTED.at [o.val]) = 0 → d.rd (Reg.CMP_OCURVE_EN.at [o.val]) = 0 → d.rd (Reg.WEAR_COMP_MODE.at [o.val]) = 0 → d.rd (Reg.OUT_SR_ACTIVE.at [o.val]) = 0 → q.resend = false →
             (e.out o).sent = List.replicate (d.hactive o) (BitVec.ofNat 32 (d.rd (Reg.CMP_BGCOLOUR.at [o.val]) % 2 ^ 30))))))) ∧
     (d.outRuns o = false → completes (.lineStart o) s (fun e => e = d)) ∧
     (let waits : Prop := ∃ g ∈ d.wbQueued o, f.base ≤ g * 256 ∧ g * 256 < f.base + f.size
      q.wbWait.filter (fun g => g.whole) = f :: rest → f.buf < 4 →
       (¬ waits → completes (.wbFrameDone o) s (fun e =>
         (e.rd (Reg.CMP_WB_OWN.at [o.val])).testBit f.buf = true ∧ (∀ b < 4, b ≠ f.buf → (e.rd (Reg.CMP_WB_OWN.at [o.val])).testBit b = (d.rd (Reg.CMP_WB_OWN.at [o.val])).testBit b) ∧
         holds e (Reg.CMP_WB_LAST.at [o.val]) f.buf ∧ holds e (Reg.CMP_WB_FRAME.at [o.val]) f.frame ∧ e.out o = { q with wbWait := q.wbWait.erase f } ∧
         regsBut (keysOf [Reg.CMP_WB_OWN.at [o.val], Reg.CMP_WB_LAST.at [o.val], Reg.CMP_WB_FRAME.at [o.val]]) d e ∧ e.mem = d.mem)) ∧
       (waits → completes (.wbFrameDone o) s (fun e => e = d))))

/-! ### Outputs and links -/

/-- Hot plug and training (R263, R266, R273, R319, R435): HPD is reported and makes Keeper train the link unless the device is a STANDBY; a trained link is up with its rate, lanes and FEC and names its panel, and an owner tells its twin; a lower
combination that carries the timing is taken and reported where FALLBACK_EN allows it; a failed training counts, and is tried again. (What a link without TMDS says of scrambling
is log 158, LINK_UP during a training log 108, a panel read that fails log 189.) -/
def Obligations.Links : Prop :=
  ∀ (s : State) (o : Fin 2) (rate lanes : Nat) (fec : Bool) (id : Option Bytes), s.dev.held = false →
    let d := s.dev
    let q := d.out o
    let hpd := d.rd (Reg.OUT_HPD.at [o.val])
    let up (e : Dev) : Nat := e.rd (Reg.OUT_LINK_UP.at [o.val])
    let keys := keysOf [Reg.OUT_HPD.at [o.val], Reg.OUT_LINK_UP.at [o.val]] ++ eventKeys
    let linked (e : Dev) : Prop := up e = 1 ∧ holds e (Reg.OUT_LINK_RATE.at [o.val]) rate ∧ holds e (Reg.OUT_LINK_LANES.at [o.val]) lanes ∧
      e.rd (Reg.OUT_FEC_ACTIVE.at [o.val]) = (if fec then 1 else 0) ∧
      e.out o = { q with training := false, retry := false, dsc := d.bit (Reg.OUT_DSC_EN.at [o.val]), scrambled := d.scrambles o } ∧
      (d.rd (Reg.BCN_ROLE.at []) = 4 → d.partner 0 = true → d.beacon.sick = false → BcnMsg.keeper (e.linkMsg o) ∈ e.bcnSent) ∧
      (d.selMine o = false → raised 0x0332 1 o [rate, lanes] d e) ∧
      (d.selMine o = true → (∀ b, id = some b → e.rd (Reg.WEAR_PANEL_ID_VALID.at [o.val]) = 1 ∧ e.rd (Reg.WEAR_PANEL_ID.at [o.val]) = (crc32 b).toNat) ∧
        (id = none → ∀ r ∈ [Reg.WEAR_PANEL_ID_VALID, Reg.WEAR_PANEL_ID], e.rd (r.at [o.val]) = d.rd (r.at [o.val])))
    (hpd ≠ 0 → completes (.hpdAssert o) s (fun e => e = d)) ∧
    (hpd = 0 → completes (.hpdAssert o) s (fun e => e.rd (Reg.OUT_HPD.at [o.val]) = 1 ∧ raised 0x0331 1 o [] d e ∧ regsBut keys d e ∧ e.mem = d.mem ∧
      (d.rd (Reg.BCN_ROLE.at []) ≠ 3 → up e = 0 ∧ e.out o = { q with training := true, retry := false }) ∧ (d.rd (Reg.BCN_ROLE.at []) = 3 → up e = up d ∧ e.out o = q))) ∧
    (hpd = 0 → completes (.hpdDeassert o) s (fun e => e = d)) ∧
    (hpd ≠ 0 → completes (.hpdDeassert o) s (fun e => e.rd (Reg.OUT_HPD.at [o.val]) = 0 ∧ up e = 0 ∧ raised 0x0330 1 o [] d e ∧ regsBut keys d e ∧
      e.out o = { q with training := false, retry := false } ∧ e.mem = d.mem)) ∧
    (∀ r, q.training = false → completes (.linkTrained o r id) s (fun e => e = d)) ∧
    (q.training = true → d.committedLink o rate lanes = true → completes (.linkTrained o (.trained rate lanes fec) id) s linked) ∧
    (q.training = true → d.committedLink o rate lanes = false → completes (.linkTrained o (.trained rate lanes fec) id) s (fun e => e = d)) ∧
    (q.training = true →
      let allowed : Prop := d.rd (Reg.OUT_FALLBACK_EN.at [o.val]) ≠ 0 ∧ d.fallbackLink o rate lanes = true ∧ d.linkFits o rate lanes = true
      (allowed → roomForEvents d → completes (.linkTrained o (.fallback rate lanes fec) id) s (fun e => up e = 1 ∧ holds e (Reg.OUT_LINK_RATE.at [o.val]) rate ∧
        holds e (Reg.OUT_LINK_LANES.at [o.val]) lanes ∧ (e.out o).training = false ∧ ∃ x ∈ e.events.store, x.code = 0x0333 ∧ x.kind = 1 ∧ x.index = o)) ∧
      (¬ allowed → completes (.linkTrained o (.fallback rate lanes fec) id) s (fun e => e = d))) ∧
    (q.training = true → completes (.linkTrained o .failed id) s (fun e => counted (Reg.OUT_LINK_FAILS.at [o.val]) d e ∧ raised 0x0334 1 o [] d e ∧
      e.out o = { q with training := false, retry := true } ∧ regsBut ((Reg.OUT_LINK_FAILS.at [o.val]).key :: eventKeys) d e ∧ e.mem = d.mem)) ∧
    (q.retry = false → completes (.linkRetry o) s (fun e => e = d)) ∧
    (q.retry = true → hpd ≠ 0 → d.rd (Reg.BCN_ROLE.at []) ≠ 3 → completes (.linkRetry o) s (fun e => up e = 0 ∧ e.out o = { q with training := true, retry := false } ∧
      regsBut [(Reg.OUT_LINK_UP.at [o.val]).key] d e ∧ e = { d with regs := e.regs, live := e.live, outs := e.outs }))

/-- Genlock (R251 to R256): each edge gives the reference period and the signed phase error of R252; a slew that has brought the error below one pixel ends in LOCKED with event 0x0310, an error of UNLOCK_PX or more in LOCKED is reported as 0x0313, and a reference lost ends in
HOLDOVER with event 0x0314. (Where the phase is measured and when the period is checked are log 107.) -/
def Obligations.Genlock : Prop :=
  ∀ (s : State) (o : Fin 2) (phase periodNs : Nat), s.dev.held = false →
    let d := s.dev
    let st := d.rd (Reg.OUT_GL_STATE.at [o.val])
    let t : Int := 16 * d.rd (Reg.OUT_VTOTAL.at [o.val]) * d.rd (Reg.OUT_HTOTAL.at [o.val])
    let e0 : Int := ((phase : Int) - 16 * toSigned 32 (d.rd (Reg.OUT_REF_OFFSET.at [o.val]))) % t
    let err : Int := if 2 * e0 ≤ t then e0 else e0 - t
    ((d.referenced o = false ∨ d.holdsOwn o = true) → completes (.referenceEdge o phase periodNs) s (fun e => e = d)) ∧
    (d.referenced o = true → d.holdsOwn o = false → d.tokenPort o = none → (d.out o).waitLock = false → 0 < t → completes (.referenceEdge o phase periodNs) s (fun e =>
      e.rd (Reg.OUT_REF_PRESENT.at [o.val]) = 1 ∧ holds e (Reg.OUT_GL_REF_PERIOD.at [o.val]) periodNs ∧ holds e (Reg.OUT_GL_PHASE.at [o.val]) (err % 2 ^ 32).toNat ∧
      (st = 3 → (d.out o).slew = 0 → err.natAbs < 16 → e.rd (Reg.OUT_GL_STATE.at [o.val]) = 4 ∧ raised 0x0310 1 o [] d e ∧ e.outs = d.outs) ∧
      (st = 3 → (d.out o).slew ≠ 0 → e.rd (Reg.OUT_GL_STATE.at [o.val]) = 3 ∧ e.events = d.events ∧ e.outs = d.outs) ∧
      (st = 4 → err.natAbs < 16 → err.natAbs < 16 * d.rd (Reg.OUT_UNLOCK_PX.at [o.val]) → e.rd (Reg.OUT_GL_STATE.at [o.val]) = 4 ∧ e.events = d.events ∧ e.outs = d.outs) ∧
      (st = 4 → 16 * d.rd (Reg.OUT_UNLOCK_PX.at [o.val]) ≤ err.natAbs → raised 0x0313 1 o [] d e) ∧
      (st = 4 → 16 ≤ err.natAbs → err.natAbs < 16 * d.rd (Reg.OUT_UNLOCK_PX.at [o.val]) → e.rd (Reg.OUT_GL_STATE.at [o.val]) = 4 ∧ e.out o = { d.out o with slew := err }) ∧
      (st = 1 → d.periodFits o periodNs = false → e.rd (Reg.OUT_FREQ_LOCK.at [o.val]) = 0 ∧ ((d.out o).rangeTold = false → raised 0x0315 1 o [] d e)) ∧
      e.mem = d.mem)) ∧
    ((st = 0 ∨ st = 5) → completes (.glRefLost o) s (fun e => e = d)) ∧
    (st ≠ 0 → st ≠ 5 → completes (.glRefLost o) s (fun e => e.rd (Reg.OUT_GL_STATE.at [o.val]) = 5 ∧ e.rd (Reg.OUT_REF_PRESENT.at [o.val]) = 0 ∧
      (d.holdsOwn o = false → raised 0x0314 1 o [] d e) ∧ (d.holdsOwn o = true → e.events = d.events) ∧
      regsBut (keysOf [Reg.OUT_GL_STATE.at [o.val], Reg.OUT_REF_PRESENT.at [o.val]] ++ eventKeys) d e ∧ e.out o = { d.out o with edges := 0 } ∧ e.mem = d.mem))

/-- AUXP in COMMAND mode (R269, R270): a period reads the plane and finds the bands whose CRC-32 differs from that of their last push; the first TE after it, or the second period without one, starts the push of those bands. (The push sends
the rows that memory then holds: log 35.) -/
def Obligations.AuxiliaryOutput : Prop :=
  ∀ (s : State), s.dev.held = false →
    let d := s.dev
    let a := d.auxp
    let running := d.rd (Reg.AUXP_RUNNING.at []) ≠ 0
    let pushed (e : Dev) : Prop := counted (Reg.AUXP_BANDS_PUSHED.at []) d e a.bands.length ∧ e.auxp.bands = [] ∧ e.auxp.waiting = false ∧
      (∀ b ∈ a.bands, Tab.find e.auxp.crcs b = some (Tab.get 0 a.pending b)) ∧ (∀ b, b ∉ a.bands → Tab.find e.auxp.crcs b = Tab.find a.crcs b) ∧
      e.auxp.sent = (a.bands.flatMap d.bandRows).flatMap (fun y => d.auxpPixels (d.bytes (d.auxpRowAddr y) d.auxpRow)) ∧ e.mem = d.mem
    ((¬ running ∨ d.ax (Reg.AUXP_MODE.at []) ≠ 1) → completes .auxpPeriod s (fun e => e = d)) ∧
    (running → d.ax (Reg.AUXP_MODE.at []) = 1 → a.live = d.live.filter (fun e => auxpKey e.1) → d.ax (Reg.AUXP_ENABLE.at []) = 1 → d.ax (Reg.AUXP_FULL_EVERY.at []) = 0 → d.ecc = [] →
      completes .auxpPeriod s (fun e => counted (Reg.AUXP_FRAME.at []) d e ∧ e.rd (Reg.AUXP_TE_SEEN.at []) = 0 ∧ e.mem = d.mem ∧
        (∀ b, b ∈ e.auxp.bands ↔ b < (d.ax (Reg.AUXP_VACTIVE.at []) + 63) / 64 ∧ (b ∈ a.bands ∨ Tab.find a.crcs b ≠ some (d.bandCrc b))) ∧
        (∀ b ∈ e.auxp.bands, Tab.get 0 e.auxp.pending b = d.bandCrc b) ∧ (e.auxp.waiting = true ↔ a.waiting = true ∨ e.auxp.bands ≠ []) ∧ e.auxp.crcs = a.crcs)) ∧
    ((¬ running ∨ 2 ≤ d.ax (Reg.AUXP_TE_SRC.at [])) → completes .auxpTe s (fun e => e = d)) ∧
    (running → d.ax (Reg.AUXP_TE_SRC.at []) < 2 → completes .auxpTe s (fun e => e.rd (Reg.AUXP_TE_SEEN.at []) = 1 ∧ (a.waiting = true → pushed e) ∧ (a.waiting = false → e.auxp = a) ∧
      regsBut (keysOf [Reg.AUXP_TE_SEEN.at [], Reg.AUXP_BANDS_PUSHED.at []]) d e)) ∧
    ((a.waiting = false ∨ a.noTe < 2) → completes .auxpTeTimeout s (fun e => e = d)) ∧
    (a.waiting = true → 2 ≤ a.noTe → completes .auxpTeTimeout s (fun e => pushed e ∧ counted (Reg.AUXP_TE_TIMEOUT.at []) d e ∧ raised 0x0350 1 2 [] d e ∧
      regsBut (keysOf [Reg.AUXP_TE_TIMEOUT.at [], Reg.AUXP_BANDS_PUSHED.at []] ++ eventKeys) d e))

/-! ### The Lantern layer -/

/-- The Lantern window (R297): in CLOSED a read of NONCE0 draws a nonce and a write of AUTH11 starts a verification; a good one opens the window and counts, a bad one counts and is reported, and the fourth in a row locks it for 60 s; CLOSE and the timeout close it. (The nonce is free and the HMAC opaque: logs 4, 6; when FAILS returns to 0 is log 104, what a
copy that a close stops has moved log 105.) -/
def Obligations.LanternWindow : Prop :=
  ∀ (s : State) (v : Word) (auth : Bytes), s.dev.held = false →
    let d := s.dev
    let l := d.lantern
    let st (e : Dev) : Nat := e.rd (Reg.LAN_STATE.at [])
    let fails := d.rd (Reg.LAN_FAILS.at [])
    (d.hostOpen = true →
      (st d = 0 → completes .nonceRead s (fun e => (∀ i < 4, e.rd (Reg.LAN_NONCE.at [i]) = Config.freeBits (d.free + i) % 2 ^ 32) ∧ e.free = d.free + 4 ∧
        e.lantern = { l with nonce := some ((List.range 4).flatMap (fun i => leBytes 4 (e.rd (Reg.LAN_NONCE.at [i])))) } ∧ e.host.lastRead = e.rd (Reg.LAN_NONCE.at [0]) ∧
        regsBut (keysOf ((List.range 4).map (fun i => Reg.LAN_NONCE.at [i]))) d e)) ∧
      (st d ≠ 0 → completes .nonceRead s (fun e => e = { d with host := { d.host with lastRead := d.rd (Reg.LAN_NONCE.at [0]) } })) ∧
      (st d = 2 → completes (.authWrite v) s (fun e => regsBut eventKeys d e ∧ e.lantern = l ∧ e.mem = d.mem)) ∧
      (st d ≠ 2 → completes (.authWrite v) s (fun e => e.rd (Reg.LAN_AUTH.at [11]) = v.toNat ∧ regsBut [(Reg.LAN_AUTH.at [11]).key] d e ∧
        (st d = 0 → e.lantern = { l with auth := some ((List.range 12).flatMap (fun i => leBytes 4 (e.rd (Reg.LAN_AUTH.at [i])))) }) ∧ (st d ≠ 0 → e.lantern = l))) ∧
      (st d = 1 → l.copy = none → completes .close s (fun e => st e = 0 ∧ regsBut [(Reg.LAN_STATE.at []).key] d e ∧ e = { d with regs := e.regs })) ∧
      (st d ≠ 1 → completes .close s (fun e => regsBut eventKeys d e ∧ e.lantern = l ∧ e.mem = d.mem))) ∧
    (l.auth = none → completes .authVerified s (fun e => e = d)) ∧
    (l.auth = some auth → completes .authVerified s (fun e => e.lantern = { l with auth := none, nonce := none } ∧ e.mem = d.mem ∧
      regsBut (keysOf [Reg.LAN_STATE.at [], Reg.LAN_OPEN_COUNT.at [], Reg.LAN_FAILS.at []] ++ eventKeys) d e ∧
      (d.authGood auth = true → st e = 1 ∧ counted (Reg.LAN_OPEN_COUNT.at []) d e ∧ e.rd (Reg.LAN_FAILS.at []) = 0 ∧ e.events = d.events) ∧
      (d.authGood auth = false → fails < 15 → e.rd (Reg.LAN_FAILS.at []) = fails + 1 ∧ e.rd (Reg.LAN_OPEN_COUNT.at []) = d.rd (Reg.LAN_OPEN_COUNT.at []) ∧
        (fails < 3 → st e = st d ∧ raised 0x0421 8 0 [] d e) ∧ (3 ≤ fails → st e = 2 ∧ (e.events.store.getLast?).map EventRec.code = some 0x0422)))) ∧
    (st d ≠ 1 → completes .lanWindowTimeout s (fun e => e = d)) ∧
    (st d = 1 → completes .lanWindowTimeout s (fun e => st e = 0 ∧ e.lantern.copy = none ∧ (l.copy ≠ none → e.rd (Reg.LAN_CSTATE.at []) = 3) ∧
      (∀ w ∈ e.lantern.queue, l.copy ≠ none → w.copied = false) ∧ ((l.copy = none ∨ d.ecc = []) → regsBut (keysOf [Reg.LAN_STATE.at [], Reg.LAN_CSTATE.at []]) d e))) ∧
    (st d = 2 → completes .lanLockoutEnd s (fun e => st e = 0 ∧ e.rd (Reg.LAN_FAILS.at []) = 0 ∧ regsBut (keysOf [Reg.LAN_STATE.at [], Reg.LAN_FAILS.at []]) d e ∧ e = { d with regs := e.regs })) ∧
    (st d ≠ 2 → completes .lanLockoutEnd s (fun e => e = d))

/-- The Lantern store (R298 to R300, R473): WDATA writes 4 bytes at WADDR, which moves on; a copy brings its bytes in and is over once they have landed; a write that meets a line being scanned out is held, in order, and lands once it is not, while others go past it; APPLY keeps every staged value
for both outputs, behind the writes that wait. (CSRC, CDST and CLEN in multiples of 256: log 45; WADDR at a full queue: log 104; the values APPLY takes: log 105.) -/
def Obligations.LanternStore : Prop :=
  ∀ (s : State) (v : Word) (w : LanWrite) (host : Bytes) (src dst len : Nat), s.dev.held = false → s.dev.ecc = [] →
    let d := s.dev
    let l := d.lantern
    let base := 0x004200000000
    let wa := d.rd (Reg.LAN_WADDR.at [])
    let lands (a : Nat) (bs : Bytes) (e : Dev) : Prop := e.bytes (base + a) bs.length = bs ∧ bytesBut [(base + a, bs.length)] d e
    (l.queue = [] → completes .lanHeldWrite s (fun e => e = d)) ∧
    (l.queue = [w] → d.lanHeld w.off w.data.length = false → w.bad = [] → completes .lanHeldWrite s (fun e => lands w.off w.data e ∧ e.lantern.queue = [] ∧
      (l.copyRead = false → regsBut [] d e ∧ e.lantern.copy = l.copy) ∧ (l.copyRead = true → e.lantern.copy = none ∧ e.rd (Reg.LAN_CSTATE.at []) = 2 ∧ regsBut [(Reg.LAN_CSTATE.at []).key] d e))) ∧
    (l.queue = [w] → d.lanHeld w.off w.data.length = true → (l.copyRead = true → w.copied = true) → completes .lanHeldWrite s (fun e => e = d)) ∧
    ((l.copy = none ∨ l.copyRead = true) → completes (.lanCopyDone host) s (fun e => e = d)) ∧
    (l.copy = some (src, dst, len) → l.copyRead = false → l.queue = [] → len % 256 = 0 → dst + len ≤ 0x1000000 →
      ((∀ i < len / 256, d.lanHeld (dst + i * 256) 256 = false) → len ≤ host.length → completes (.lanCopyDone host) s (fun e =>
        e.bytes (base + dst) len = (if 0x008000000000 ≤ src ∧ src < 0x010000000000 then host.take len else d.bytes src len) ∧ bytesBut [(base + dst, len)] d e ∧
        e.lantern.copy = none ∧ e.rd (Reg.LAN_CSTATE.at []) = 2 ∧ regsBut [(Reg.LAN_CSTATE.at []).key] d e)) ∧
      (0 < len → (∀ i < len / 256, d.lanHeld (dst + i * 256) 256 = true) → completes (.lanCopyDone host) s (fun e =>
        e.mem = d.mem ∧ e.lantern.copy = l.copy ∧ e.lantern.copyRead = true ∧ e.lantern.queue.length = len / 256 ∧ regsBut [] d e))) ∧
    (d.hostOpen = true →
      (d.rd (Reg.LAN_STATE.at []) ≠ 1 → ∀ i ∈ [Instr.wdata v, .cgo, .apply], completes i s (fun e => e.mem = d.mem ∧ e.lantern = l ∧ regsBut eventKeys d e)) ∧
      (d.rd (Reg.LAN_STATE.at []) = 1 →
        ((∀ x ∈ l.queue, d.lanHeld x.off x.data.length = true) → (l.copyRead = true → ∃ x ∈ l.queue, x.copied = true) → 4 * (l.queue.filter (fun x => !x.copied)).length + 4 ≤ 4096 →
          (d.lanHeld wa 4 = false → completes (.wdata v) s (fun e => lands wa (leBytes 4 v.toNat) e ∧ e.lantern = l ∧ e.rd (Reg.LAN_WADDR.at []) = (wa + 4) % 2 ^ 24 ∧
            regsBut [(Reg.LAN_WADDR.at []).key] d e)) ∧
          (d.lanHeld wa 4 = true → completes (.wdata v) s (fun e => e.lantern = { l with queue := l.queue ++ [{ off := wa, data := leBytes 4 v.toNat }] } ∧ e.mem = d.mem ∧
            e.rd (Reg.LAN_WADDR.at []) = (wa + 4) % 2 ^ 24 ∧ regsBut [(Reg.LAN_WADDR.at []).key] d e))) ∧
        (4096 < 4 * (l.queue.filter (fun x => !x.copied)).length + 4 → completes (.wdata v) s (fun e => e.rd (Reg.LAN_WQ_OVF.at []) = 1 ∧ regsBut [(Reg.LAN_WQ_OVF.at []).key] d e ∧
          e.lantern = l ∧ e.mem = d.mem)) ∧
        (l.copy ≠ none → completes .cgo s (fun e => e = d)) ∧
        (l.copy = none → completes .cgo s (fun e => ∃ c : Nat × Nat × Nat, e.lantern = { l with copy := some c } ∧ c.1 % 256 = 0 ∧ c.2.1 % 256 = 0 ∧ c.2.2 % 256 = 0 ∧
          c.1 / 256 = (d.rd (Reg.LAN_CSRC_LO.at []) + d.rd (Reg.LAN_CSRC_HI.at []) * 2 ^ 32) / 256 ∧ c.2.1 / 256 = d.rd (Reg.LAN_CDST.at []) / 256 ∧
          (d.rd (Reg.LAN_CLEN.at []) ≤ 0x1000000 → c.2.2 / 256 = d.rd (Reg.LAN_CLEN.at []) / 256) ∧ e.rd (Reg.LAN_CSTATE.at []) = 1 ∧ regsBut [(Reg.LAN_CSTATE.at []).key] d e ∧ e.mem = d.mem)) ∧
        ((d.badPlane 0 = true ∨ d.split = false ∧ d.badPlane 1 = true) → completes .apply s (fun e => e.rd (Reg.LAN_APPLY_ERR.at []) = 1 ∧ e.lantern = l ∧ regsBut [(Reg.LAN_APPLY_ERR.at []).key] d e)) ∧
        (d.badPlane 0 = false → (d.split = true ∨ d.badPlane 1 = false) → completes .apply s (fun e => e.lantern.applyFor = [0, 1] ∧ e.lantern.queue = l.queue.map (fun x => { x with before := true }) ∧
          (∀ o < 2, ∀ f ∈ stagedFields o, Tab.get f.reset e.lantern.staged f.key = d.rd f) ∧ e.lantern.live = l.live ∧ e = { d with lantern := e.lantern }))))

/-! ### Inputs -/

/-- Frames of input ports and host copies (R399, R401, R406, R407): the first line of a frame whose geometry fits takes a buffer that is not held, which WRITING then shows, or the frame is dropped; once it is over it goes into that buffer, row by row, and counts; one whose geometry differs, one
that no stream names and one the port cannot use are discarded and counted; a completed host copy counts and frees WRITING. (That a frame's first line and its end are two commands is log 111, the free value of LINK_ERRS log 161, the 10-bit value of a 12-bit code above 4,093 log 162.) -/
def Obligations.FramesComplete : Prop :=
  ∀ (s : State) (m : Fin 4) (i : Fin 16) (b : Nat) (rows : List (Nat × Nat × Bytes)) (desc : Bytes), s.dev.held = false →
    (∀ r ∈ s.dev.plan.pipes, r.analysis = true → r.stream ≠ i.val) → s.dev.rd (Reg.BCN_MIR_TX.at [i.val]) = 0 →
    let d := s.dev
    let x := d.stream i
    let w := d.rd (Reg.STR_W.at [i.val])
    let h := d.rd (Reg.STR_H.at [i.val])
    let st := d.rd (Reg.IN_STATE.at [m.val])
    let counts (b : Nat) (e : Dev) : Prop := counted (Reg.STR_FRAMES.at [i.val]) d e ∧ holds e (Reg.STR_LAST.at [i.val]) b ∧ holds e (Reg.STR_LAST_TIME_LO.at [i.val]) d.time ∧
      (e.stream i).done = (⟨b, d.time, e.rd (Reg.STR_FRAMES.at [i.val])⟩ :: x.done).take 2 ∧ e.rd (Reg.STR_DROPPED.at [i.val]) = d.rd (Reg.STR_DROPPED.at [i.val])
    let fits := d.rd (Reg.IN_HACTIVE.at [m.val]) = w ∧ d.rd (Reg.IN_VACTIVE.at [m.val]) = h
    let named (k : Nat) : Prop := d.rd (Reg.STR_SRC.at [k]) = 2 ∧ d.rd (Reg.STR_PORT.at [k]) = m
    let discarded (keys : List Nat) (e : Dev) : Prop := counted (Reg.IN_DISCARDED.at [m.val]) d e ∧ regsBut ((Reg.IN_DISCARDED.at [m.val]).key :: (Reg.IN_LINK_ERRS.at [m.val]).key :: keys) d e ∧ e.mem = d.mem
    (named i → (∀ k < i.val, ¬ named k) →
      (st = 3 → fits → x.capBuf = 15 →
        (d.freeBuf i = some b → completes (.inputFrameComplete (.port m) none) s (fun e => holds e (Reg.STR_WRITING.at [i.val]) b ∧ e.stream i = { x with capBuf := b } ∧
          regsBut [(Reg.STR_WRITING.at [i.val]).key] d e ∧ e.mem = d.mem)) ∧
        (d.freeBuf i = none → completes (.inputFrameComplete (.port m) none) s (fun e => counted (Reg.STR_DROPPED.at [i.val]) d e ∧ e.stream i = x ∧
          regsBut ((Reg.STR_DROPPED.at [i.val]).key :: eventKeys) d e ∧ e.mem = d.mem)) ∧
        completes (.inputFrameComplete (.port m) (some rows)) s (fun e => regsBut [(Reg.IN_LINK_ERRS.at [m.val]).key] d e ∧ e.streams = d.streams ∧ e.mem = d.mem)) ∧
      ((st ≠ 3 ∨ ¬ fits) → completes (.inputFrameComplete (.port m) none) s (fun e => e = d)) ∧
      (st = 3 → fits → x.capBuf = b → b ≠ 15 → completes (.inputFrameComplete (.port m) (some rows)) s (fun e => counts b e ∧ counted (Reg.IN_FRAMES_RX.at [m.val]) d e ∧
        (e.stream i).capBuf = 15 ∧ (d.rd (Reg.STR_WRITING.at [i.val]) = b → e.rd (Reg.STR_WRITING.at [i.val]) = 15) ∧
        (d.rd (Reg.STR_FMT.at [i.val]) = 2 → 4 * w ≤ d.rd (Reg.STR_PITCH0.at [i.val]) → ∀ y < h, e.bytes (d.bufBase i b + y * d.rd (Reg.STR_PITCH0.at [i.val])) (4 * w) = d.portRow m w y rows))) ∧
      (st = 3 → ¬ fits → completes (.inputFrameComplete (.port m) (some rows)) s (fun e => discarded ((Reg.STR_WRITING.at [i.val]).key :: eventKeys) e ∧
        (m.val ∉ d.host.badGeom → raised 0x023A 2 m [m.val] d e) ∧ (e.stream i).capBuf = 15))) ∧
    (st = 3 → (∀ k < 16, ¬ named k) → completes (.inputFrameComplete (.port m) (some rows)) s (fun e => discarded [] e ∧ e.streams = d.streams)) ∧
    ((st = 4 ∨ st = 5) → completes (.inputFrameComplete (.port m) (some rows)) s (fun e => discarded [] e ∧ e.streams = d.streams)) ∧
    (st < 3 → completes (.inputFrameComplete (.port m) (some rows)) s (fun e => e = d)) ∧
    completes (.inputFrameComplete (.host i) none) s (fun e => e = d) ∧
    (d.rd (Reg.STR_SRC.at [i.val]) = 1 →
      (x.desc = some desc → x.aborted = false → d.rd (Reg.STR_WRITING.at [i.val]) = x.copyBuf → x.copyBuf < 15 → completes (.inputFrameComplete (.host i) (some rows)) s (fun e =>
        counts x.copyBuf e ∧ e.rd (Reg.STR_WRITING.at [i.val]) = 15)) ∧
      ((x.desc = none ∨ x.aborted = true) → completes (.inputFrameComplete (.host i) (some rows)) s (fun e => e = d)))

/-- Input ports and mirrored streams (R324, R326, R399, R405, R407, R408, R410): an enabled port takes the state and the measures of its source, UNSUPPORTED where R405 or the port does not take its timing; EDID_DONE holds HPD low; a mirrored frame takes a buffer at its first row and waits for its hold
time, or counts late. (The model's choices: a frame's first row and its end are two commands, and its completion time is the sender's, log 111; LAST moves when the frame has been written and FRAMES when it counts, log 114; a source that an EN bit shuts out is UNSUPPORTED, log 185.) -/
def Obligations.PortsAndMirrors : Prop :=
  ∀ (s : State) (m : Fin 4) (sig : InSignal) (i : Fin 16) (b c : Nat) (rows : List (Nat × Nat × Bytes)) (rest : List (Nat × Nat)), s.dev.held = false → s.dev.rd (Reg.HST_IRQ_VECTOR.at [18 + m]) < 64 →
    let d := s.dev
    let x := d.stream i
    let en := d.rd (Reg.IN_EN.at [m.val])
    let low := m.val ∈ d.host.hpdLow
    let mirrored : Prop := d.rd (Reg.STR_SRC.at [i.val]) = 3 ∧ d.rd (Reg.BCN_MIR_RX.at [i.val]) ≠ 0
    let counts (c : Nat) (e : Dev) : Prop := counted (Reg.STR_FRAMES.at [i.val]) d e ∧ (e.stream i).done = (⟨b, c, e.rd (Reg.STR_FRAMES.at [i.val])⟩ :: x.done).take 2
    ((en ≠ 0 ∧ sig.state.val = 0 ∨ en = 0 ∧ sig.state.val ≠ 0 ∨ low ∧ 1 < sig.state.val) → completes (.inStateChange m sig) s (fun e => e = d)) ∧
    (en ≠ 0 → sig.state.val ≠ 0 → (¬ low ∨ sig.state.val = 1) → completes (.inStateChange m sig) s (fun e =>
      e.rd (Reg.IN_STATE.at [m.val]) = (if sig.state.val = 3 ∧ d.accepts m sig = false then 5 else sig.state.val) ∧ holds e (Reg.IN_HACTIVE.at [m.val]) sig.hactive ∧ holds e (Reg.IN_VACTIVE.at [m.val]) sig.vactive ∧
      holds e (Reg.IN_RATE_MHZ.at [m.val]) sig.rateMhz ∧ holds e (Reg.IN_ENCODING.at [m.val]) sig.encoding ∧ holds e (Reg.IN_BPC.at [m.val]) sig.bpc ∧ e.mem = d.mem)) ∧
    (d.hostOpen = true → en = 0 → completes (.edidDone m) s (fun e => e = d)) ∧
    (d.hostOpen = true → en ≠ 0 → completes (.edidDone m) s (fun e => m.val ∈ e.host.hpdLow ∧ e.pinInHpd m = false ∧ e.rd (Reg.IN_STATE.at [m.val]) = 1 ∧ e.mem = d.mem)) ∧
    completes (.edidHpdRestore m) s (fun e => m.val ∉ e.host.hpdLow ∧ (e.pinInHpd m = true ↔ en ≠ 0) ∧ (∀ k, k ≠ m.val → (k ∈ e.host.hpdLow ↔ k ∈ d.host.hpdLow)) ∧ e = { d with host := { d.host with hpdLow := e.host.hpdLow } }) ∧
    (∀ rs, ¬ mirrored → completes (.mirrorFrameArrival i c rs) s (fun e => e = d.linkFrame 0)) ∧
    (mirrored → x.capBuf = 15 →
      (d.freeBuf i = none → completes (.mirrorFrameArrival i c none) s (fun e => counted (Reg.STR_DROPPED.at [i.val]) d e ∧ e.stream i = x ∧ e.mem = d.mem)) ∧
      (d.freeBuf i = some b → completes (.mirrorFrameArrival i c none) s (fun e => holds e (Reg.STR_WRITING.at [i.val]) b ∧ e.stream i = { x with capBuf := b } ∧ e.mem = d.mem)) ∧
      completes (.mirrorFrameArrival i c (some rows)) s (fun e => e = d.linkFrame 0)) ∧
    (mirrored → x.capBuf = b → b ≠ 15 → x.fallback = false → (∀ r ∈ d.plan.pipes, r.analysis = true → r.stream ≠ i.val) → completes (.mirrorFrameArrival i c (some rows)) s (fun e =>
      holds e (Reg.STR_LAST.at [i.val]) b ∧ (e.stream i).capBuf = 15 ∧
      (d.time ≤ c + 1000 * d.rd (Reg.BCN_MIR_HOLD_US.at [i.val]) → e.stream i = { x with held := x.held ++ [(b, c)], capBuf := 15 } ∧ e.rd (Reg.STR_FRAMES.at [i.val]) = d.rd (Reg.STR_FRAMES.at [i.val])) ∧
      (c + 1000 * d.rd (Reg.BCN_MIR_HOLD_US.at [i.val]) < d.time → counts c e ∧ counted (Reg.BCN_MIR_LATE.at [i.val]) d e))) ∧
    (x.held = [] → completes (.mirrorHoldExpiry i) s (fun e => e = d)) ∧
    (x.held = (b, c) :: rest → (∀ r ∈ d.plan.pipes, r.analysis = true → r.stream ≠ i.val) → completes (.mirrorHoldExpiry i) s (fun e => counts c e ∧ (e.stream i).held = rest ∧
      regsBut [(Reg.STR_FRAMES.at [i.val]).key] d e ∧ e.mem = d.mem)) ∧
    completes (.mirrorSendDone i) s (fun e => e.stream i = { x with sending := x.sending.drop 1 } ∧ (∀ k, k ≠ i.val → e.stream k = d.stream k) ∧
      e = { d with streams := e.streams, power := e.power } ∧ onlyEnergy d e)

/-- Descriptors (R399, R401): a descriptor that is fetched starts its copy in a buffer that is not held; one whose planes break R401 is finished with RESULT 3, one whose copy failed with 2, one that a commit abandoned with 4; with WB_EN = 0 and no interrupt asked, the host's memory changes in the 16 bytes from
0x30 of the entry that it was fetched from only. (DIDX moves on from that entry alone: log 184.) -/
def Obligations.Descriptors : Prop :=
  ∀ (s : State) (i : Fin 16) (desc : Bytes) (b : Nat), s.dev.held = false → s.dev.rd (Reg.DSC_WB_EN.at [i.val]) = 0 → desc.length = 64 → (leNat (desc.take 4)).testBit 0 = false →
    let d := s.dev
    let x := d.stream i
    let didx := d.rd (Reg.DSC_DIDX.at [i.val])
    let next := d.rd (Reg.DSC_BASE_LO.at [i.val]) * 4096 + d.rd (Reg.DSC_BASE_HI.at [i.val]) * 2 ^ 32 + didx % 2 ^ d.rd (Reg.DSC_LOG2.at [i.val]) * 64
    let finished (at_ idx result buf : Nat) (e : Dev) : Prop :=
      (idx = didx → counted (Reg.DSC_DIDX.at [i.val]) d e ∧ counted (Reg.DSC_COUNT.at [i.val]) d e) ∧
      (idx ≠ didx → e.rd (Reg.DSC_DIDX.at [i.val]) = didx ∧ e.rd (Reg.DSC_COUNT.at [i.val]) = d.rd (Reg.DSC_COUNT.at [i.val])) ∧
      Tab.getList 0 e.hostMem (at_ + 0x30) 4 = leBytes 4 (1 + 2 * result + 65536 * buf) ∧ Tab.getList 0 e.hostMem (at_ + 0x38) 8 = leBytes 8 d.time ∧
      (∀ a, (a < at_ + 0x30 ∨ at_ + 0x40 ≤ a) → Tab.get 0 e.hostMem a = Tab.get 0 d.hostMem a) ∧ e.mem = d.mem
    ((d.fetches i = false ∨ x.desc ≠ none ∨ d.rd (Reg.DSC_HIDX.at [i.val]) = didx) → completes (.descFetch i desc) s (fun e => e = d)) ∧
    (d.fetches i = true → x.desc = none → d.rd (Reg.DSC_HIDX.at [i.val]) ≠ didx →
      (d.badDesc i desc = true → completes (.descFetch i desc) s (fun e => finished next didx 3 0 e ∧ e.stream i = x)) ∧
      (d.badDesc i desc = false → d.freeBuf i = some b → completes (.descFetch i desc) s (fun e => holds e (Reg.STR_WRITING.at [i.val]) b ∧
        e.stream i = { x with desc := some desc, aborted := false, copyBuf := b, descAt := next, descIdx := didx } ∧ regsBut [(Reg.STR_WRITING.at [i.val]).key] d e ∧ e.hostMem = d.hostMem ∧ e.mem = d.mem)) ∧
      (d.badDesc i desc = false → d.freeBuf i = none → completes (.descFetch i desc) s (fun e => finished next didx 1 0 e ∧ counted (Reg.STR_DROPPED.at [i.val]) d e))) ∧
    (∀ ok, x.desc = none → completes (.descCopyDone i ok) s (fun e => e = d)) ∧
    (∀ ok, x.desc = some desc →
      let done (result : Nat) (e : Dev) : Prop := finished x.descAt x.descIdx result x.copyBuf e ∧ e.stream i = { x with desc := none, aborted := false, copyBuf := 15 }
      (x.aborted = true → completes (.descCopyDone i ok) s (done 4)) ∧
      (x.aborted = false → ok = true → d.rd (Reg.STR_WRITING.at [i.val]) ≠ x.copyBuf → completes (.descCopyDone i ok) s (done 0)) ∧
      (x.aborted = false → ok = true → d.rd (Reg.STR_WRITING.at [i.val]) = x.copyBuf → completes (.descCopyDone i ok) s (fun e => e = d)) ∧
      (x.aborted = false → ok = false → completes (.descCopyDone i ok) s (fun e => done 2 e ∧
        (d.rd (Reg.STR_WRITING.at [i.val]) = x.copyBuf → e.rd (Reg.STR_WRITING.at [i.val]) = 15))))

/-! ### The host -/

/-- MSI-X sources and rings (R391 to R395): a failed request of the host window counts, and a write that waits for the link is not sent; a ring signals when its timer ends, sending the message of its vector or marking it pending; an event goes to the entry at DIDX; HIDX is bounded while EN = 1; EN is set only with LOG2 in range, and DIDX then takes HIDX. RESULT_EMIT (R402, R403): the run of the one analysis pipeline of a result writer emits a record for each of its entries whose word 15 is not 0: all of them when the result ring has room, none when it has not; the job ends. (A disabled
result ring counts as full: log 114; disabled MSI-X signals nothing: log 182; the layout of the vectors: log 14; the word with EN, LOG2 and WB_EN is one command: log 118.) -/
def Obligations.Rings : Prop :=
  (∀ (s : State) (q : Fin 18) (v : Word) (addr : BitVec 48) (r : EventRec) (rest : List EventRec), s.dev.held = false →
     let d := s.dev
     let vec := d.rd (Reg.HST_IRQ_VECTOR.at [q.val])
     let masked (v : Nat) : Prop := d.host.cfg.funcMask = true ∨ d.rd (Reg.HST_MSIX_MASK.at [v]) ≠ 0
     let signals : Prop := d.rd (Reg.HST_IRQ_EN.at [q.val]) ≠ 0 ∧ d.host.cfg.msixEn = true
     let en := d.rd (ringEn q)
     let didx := d.rd (ringDidx q)
     let unsent := Tab.get 0 d.host.unsent q
     let us := d.rd (ringFld Reg.EVT_COAL_US Reg.RES_COAL_US Reg.DSC_COAL_US q)
     let log2 := v.toNat % 32
     let inRange := if q.val < 2 then 8 ≤ log2 ∧ log2 ≤ 16 else 4 ≤ log2 ∧ log2 ≤ 12
     let far := 2 ^ d.rd (ringLog2 q) < (if q.val < 2 then gap32 didx v.toNat else gap32 v.toNat didx)
     completes (.hwinFail addr) s (fun e => (d.hostReady = false → e.hostMem = d.hostMem ∧ e.host.failing = none) ∧
       ((d.hostReady = true ∨ ∀ u < 128, (d.su u).work = []) → counted (Reg.HST_HWIN_ERR.at []) d e ∧ regsBut ((Reg.HST_HWIN_ERR.at []).key :: eventKeys) d e ∧ e.mem = d.mem ∧
         (Tab.get 0 d.limits (0x0234 * 65536) = 0 → raised 0x0234 8 0 [addr.toNat % 2 ^ 32, addr.toNat / 2 ^ 32] d e))) ∧
     ((unsent = 0 ∨ us = 0) → completes (.coalTimer q) s (fun e => e = d)) ∧
     (unsent ≠ 0 → us ≠ 0 → vec < 64 → completes (.coalTimer q) s (fun e => e.host.unsent = Tab.put 0 d.host.unsent q 0 ∧ e.mem = d.mem ∧
       ((d.rd (Reg.HST_IRQ_EN.at [q.val]) = 0 ∨ d.host.cfg.msixEn = false) → e = { d with host := { d.host with unsent := e.host.unsent } }) ∧
       (signals → masked vec → e.rd (Reg.HST_MSIX_PBA.at [vec / 32, vec % 32]) = 1 ∧
         regsBut [(Reg.HST_MSIX_PBA.at [vec / 32, vec % 32]).key] d e ∧ e.hostMem = d.hostMem ∧ e.host.irqs = d.host.irqs) ∧
       (signals → ¬ masked vec → e.host.irqs = d.host.irqs ++ [vec] ∧ regsBut [] d e ∧
         Tab.getList 0 e.hostMem (d.rd (Reg.HST_MSIX_ADDR_LO.at [vec]) + d.rd (Reg.HST_MSIX_ADDR_HI.at [vec]) * 2 ^ 32) 4 = leBytes 4 (d.rd (Reg.HST_MSIX_DATA.at [vec]))))) ∧
     (let h := gap32 (d.rd (Reg.EVT_DIDX.at [])) (d.rd (Reg.EVT_HIDX.at []))
      let size := 2 ^ d.rd (Reg.EVT_LOG2.at [])
      ((d.events.store = [] ∨ d.rd (Reg.EVT_EN.at []) = 0 ∨ size ≤ h) → completes .eventDeliver s (fun e => e = d)) ∧
      (d.events.store = r :: rest → d.rd (Reg.EVT_EN.at []) ≠ 0 → h < size → d.rd (Reg.HST_IRQ_VECTOR.at [0]) < 64 → completes .eventDeliver s (fun e =>
        e.events.store = rest ∧ e.events.gapOwed = false ∧ counted (Reg.EVT_DIDX.at []) d e ∧ counted (Reg.EVT_COUNT.at []) d e ∧ e.mem = d.mem ∧
        (d.rd (Reg.EVT_WB_EN.at []) = 0 → d.rd (Reg.HST_IRQ_EN.at [0]) = 0 →
          Tab.getList 0 e.hostMem (d.rd (Reg.EVT_BASE_LO.at []) * 4096 + d.rd (Reg.EVT_BASE_HI.at []) * 2 ^ 32 + d.rd (Reg.EVT_DIDX.at []) % size * 32) 32 =
            EventRec.toBytes { r with gap := d.events.gapOwed } ∧ regsBut (keysOf [Reg.EVT_DIDX.at [], Reg.EVT_COUNT.at []]) d e) ∧
        (d.rd (Reg.EVT_COAL_CNT.at []) ≤ 1 → d.rd (Reg.HST_IRQ_EN.at [0]) ≠ 0 → d.host.cfg.msixEn = true → ¬ masked (d.rd (Reg.HST_IRQ_VECTOR.at [0])) →
          e.host.irqs = d.host.irqs ++ [d.rd (Reg.HST_IRQ_VECTOR.at [0])])))) ∧
     (en ≠ 0 → far → completes (.hidxWrite q v) s (fun e => e.rd (ringFld Reg.EVT_IDX_ERR Reg.RES_IDX_ERR Reg.DSC_IDX_ERR q) = 1 ∧ raised 0x0233 8 0 [q.val] d e ∧
       regsBut ((ringFld Reg.EVT_IDX_ERR Reg.RES_IDX_ERR Reg.DSC_IDX_ERR q).key :: eventKeys) d e ∧ e.mem = d.mem)) ∧
     ((en = 0 ∨ ¬ far) → completes (.hidxWrite q v) s (fun e => e.rd (ringHidx q) = v.toNat ∧ regsBut [(ringHidx q).key] d e ∧ e = { d with regs := e.regs })) ∧
     (en ≠ 0 → completes (.ringEnWrite q v) s (fun e => holds e (ringEn q) (v.toNat / 32 % 2) ∧ regsBut [(ringEn q).key] d e ∧ e = { d with regs := e.regs })) ∧
     (en = 0 → completes (.ringEnWrite q v) s (fun e => e.rd (ringLog2 q) = log2 ∧ e.rd (ringWbEn q) = v.toNat / 64 % 2 ∧ e = { d with regs := e.regs } ∧
       ((v.toNat / 32 % 2 = 1 ∧ inRange) → e.rd (ringEn q) = 1 ∧ holds e (ringDidx q) (d.rd (ringHidx q)) ∧
         regsBut (keysOf [ringLog2 q, ringWbEn q, ringEn q, ringDidx q]) d e) ∧
       (¬ (v.toNat / 32 % 2 = 1 ∧ inRange) → e.rd (ringEn q) = 0 ∧ regsBut (keysOf [ringLog2 q, ringWbEn q]) d e)))) ∧
  (∀ (s : State) (u : Fin 128) (p : PipeRec) (a : AnalysisRec), s.dev.held = false →
     let d := s.dev
     let n := ((List.range a.records).filter (fun k => leNat (d.bytes (a.stage + 64 * k + 60) 4) ≠ 0)).length
     let free := 2 ^ d.rd (Reg.RES_LOG2.at []) - gap32 (d.rd (Reg.RES_DIDX.at [])) (d.rd (Reg.RES_HIDX.at []))
     ((d.su u).ended = false → completes (.resultEmit u) s (fun e => e = d)) ∧
     ((d.su u).ended = true → d.ecc = [] → d.analysis = [a] → a.writer / 16 % 8 * 16 + a.writer % 16 = u.val → a.pipe = p.pipe → p.pipe < 64 → p.analysis = true →
       d.plan.pipes = [p] → (d.stream p.stream).runs.any (fun x => x.1 = p.pipe) = true → d.parked p.pipe = false →
       completes (.resultEmit u) s (fun e => e.su u = { d.su u with ended := false } ∧ (∀ x ∈ (e.stream p.stream).runs, x.1 ≠ p.pipe) ∧ e.mem = d.mem ∧
         counted (Reg.PWR_JOB_SEQ.at [p.pipe]) d e ∧ e.rd (Reg.PWR_JOB_ABANDONED.at [p.pipe]) = 0 ∧
         (n = 0 → e.hostMem = d.hostMem ∧ e.rd (Reg.RES_DIDX.at []) = d.rd (Reg.RES_DIDX.at [])) ∧
         (0 < n → (d.rd (Reg.RES_EN.at []) = 0 ∨ free < n) → counted (Reg.HST_RES_DROPPED.at []) d e n ∧ e.host.resGap = true ∧ e.hostMem = d.hostMem ∧
           e.rd (Reg.RES_DIDX.at []) = d.rd (Reg.RES_DIDX.at [])) ∧
         (0 < n → d.rd (Reg.RES_EN.at []) ≠ 0 → n ≤ free → d.rd (Reg.HST_IRQ_EN.at [1]) = 0 → counted (Reg.RES_DIDX.at []) d e n ∧ counted (Reg.HST_RES_SEQ.at []) d e n ∧
           e.host.resGap = false ∧ e.rd (Reg.HST_RES_DROPPED.at []) = d.rd (Reg.HST_RES_DROPPED.at [])))))

/-- BAR2, BAR0 writes, the link and resets of the endpoint (R8, R31, R236, R238, R369, R387, R389, R393, R421). Before RUNNING a host access outside TOP, KPR, SEC and HST has no effect, and a read answers 0. A BAR2 write leaves nothing
waiting for a place in a write queue (R390; log 183), a BAR2 read of a bank that wakes waits (R157). (Configuration space comes with HOST_LINK_UP: log 112; what an endpoint reset resets: log 113; what a BAR2 read of a gated bank delivers: log 112.) -/
def Obligations.HostAccess : Prop :=
  ∀ (s : State) (off len i : Nat) (data : Bytes) (w : BitVec 26) (v : Word) (g : RegDef) (idx : List Nat) (c : Fin 72) (u : Fin 128) (n : Fin 8) (m : Fin 4) (o : Fin 2) (r : Fin 16) (mask : BitVec 16)
    (wb : BitVec 4) (two : BitVec 2) (b : Bool), s.dev.held = false →
    let d := s.dev
    let a := d.rd (Reg.HST_BAR2_BASE.at []) * 2 ^ 28 + off
    let inBar (n : Nat) : Prop := 0 < n ∧ off + n ≤ 2 ^ d.host.bar2Log2
    let open_ : Prop := d.hostOpen = true ∧ d.rd (Reg.TOP_FROZEN_BAR2.at []) = 0
    let image := d.rd (Reg.TOP_ACT_ADDR_LO.at []) + d.rd (Reg.TOP_ACT_ADDR_HI.at []) * 2 ^ 32
    let imageEnd := image + (d.rd (Reg.TOP_ACT_LEN_LO.at []) + d.rd (Reg.TOP_ACT_LEN_HI.at []) * 2 ^ 32)
    let writable (x : Nat) : Prop := d.region x = .ddr ∧ ¬ (image ≤ x ∧ x < imageEnd)
    let frozenBy (code : Nat) (args : List Nat) (e : Dev) : Prop := e.rd (Reg.TOP_FROZEN_BAR2.at []) = 1 ∧ raised code 7 2 args d e ∧ e.mem = d.mem
    let f := g.at idx
    let x := v.toNat / 2 ^ g.lowBit idx % 2 ^ g.width
    let word : Prop := fieldsAt w.toNat = [(g, idx)] ∧ d.hostReaches w.toNat = true ∧ w.toNat ≠ Reg.KPR_OPCODE.base ∧
      (w.toNat < 0x02500000 ∨ 0x02600000 ≤ w.toNat) ∧ imageOwned w.toNat = false
    let plain : Prop := word ∧ d.notHere g idx = false
    -- BAR2
    ((¬ open_ ∨ ¬ inBar data.length) → completes (.bar2Write off data) s (fun e => e = d)) ∧
    (open_ → inBar data.length → (∀ j < data.length, writable (a + j)) → completes (.bar2Write off data) s (fun e => e.bytes a data.length = data ∧
      bytesBut [(a, data.length)] d e ∧ (∀ ch, ∀ q ∈ (e.chan ch).waitWrites, q.master ≠ hostMaster) ∧
      (d.ecc = [] → e = { d with mem := e.mem, ddr := e.ddr, power := e.power } ∧ onlyEnergy d e))) ∧
    (open_ → inBar data.length → i < data.length → (∀ j < i, writable (a + j)) →
      (d.region (a + i) = .ddr → image ≤ a + i → a + i < imageEnd → completes (.bar2Write off data) s (fun e => frozenBy 0x0910 [] e)) ∧
      ((∃ z, d.region (a + i) = .lantern z) → completes (.bar2Write off data) s (fun e => frozenBy 0x0420 [] e ∧ counted (Reg.LAN_DENIED.at []) d e)) ∧
      (d.region (a + i) ≠ .ddr → (∀ z, d.region (a + i) ≠ .lantern z) → completes (.bar2Write off data) s (fun e =>
        frozenBy 0x0710 [(a + i) % 2 ^ 32, (a + i) / 2 ^ 32 % 2 ^ 16] e))) ∧
    (¬ inBar len → completes (.bar2Read off len) s (fun e => e = d)) ∧
    (inBar len → ¬ open_ → completes (.bar2Read off len) s (fun e => e = { d with host := { d.host with answer := none } })) ∧
    (inBar len → open_ → d.ecc = [] →
      ((∀ j < len, d.region (a + j) = .ddr) → completes (.bar2Read off len) s (fun e =>
        e = { d with host := { d.host with answer := some (d.bytes a len, []) }, ddr := e.ddr, power := e.power } ∧ onlyEnergy d e)) ∧
      (∀ k z, (∀ j < len, d.region (a + j) = .sp k (z + j)) →
        (d.anyWaking k z len = false → d.anyShut k z len = false → completes (.bar2Read off len) s (fun e => e = { d with host := { d.host with answer := some (d.bytes a len, []) } })) ∧
        (d.anyWaking k z len = true → completes (.bar2Read off len) s (fun e => e = { d with host := { d.host with reads := d.host.reads ++ [(k, z, len)] } }))) ∧
      ((d.region a = .unmapped ∨ ∃ z, d.region a = .host z) → completes (.bar2Read off len) s (fun e => e.host.answer = none ∧
        raised 0x0710 7 2 [a % 2 ^ 32, a / 2 ^ 32 % 2 ^ 16] d e ∧ regsBut eventKeys d e ∧ e.mem = d.mem))) ∧
    -- BAR0
    (d.hostReaches w.toNat = false → completes (.registerWrite w v) s (fun e => e = d)) ∧
    (word → g.acc = .ro → completes (.registerWrite w v) s (fun e => e = d)) ∧
    (plain → g.acc = .rw → ringOf g idx = none → g.base ≠ Reg.HST_MSIX_MASK.base → completes (.registerWrite w v) s (fun e => e.rd f = x ∧ regsBut [f.key] d e ∧
      e = { d with regs := e.regs, live := e.live })) ∧
    (plain → g.acc = .rw → (∃ q, ringOf g idx = some q ∧ d.rd (ringEn q) ≠ 0) → completes (.registerWrite w v) s (fun e => e = d)) ∧
    (plain → g.acc = .w1c → f.rws = false → d.rd f < 2 ^ f.width → completes (.registerWrite w v) s (fun e => (∀ k, (e.rd f).testBit k = ((d.rd f).testBit k && !x.testBit k)) ∧ regsBut [f.key] d e ∧
      e = { d with regs := e.regs })) ∧
    (plain → g.acc = .rws → (d.rd (Reg.TOP_ARMED.at [])).testBit (domainOf f.key) = false → completes (.registerWrite w v) s (fun e => e.rdS f = x ∧ (∀ h : Fld, h.key ≠ f.key → e.rdS h = d.rdS h) ∧
      e = { d with shadow := e.shadow })) ∧
    (plain → g.acc = .rws → (d.rd (Reg.TOP_ARMED.at [])).testBit (domainOf f.key) = true → domainOf f.key < 3 → completes (.registerWrite w v) s (fun e => e.shadow = d.shadow ∧ e.mem = d.mem ∧
      (e.rd (Reg.TOP_LATE.at [])).testBit (domainOf f.key) = true ∧ (domainOf f.key ∉ d.lateTold → raised 0x0902 8 0 [domainOf f.key, w.toNat] d e))) ∧
    -- The link and resets of the endpoint
    (∀ cause, completes (.endpointReset cause) s (fun e => (∀ h : Fld, endpointReg h.key = true → h.rws = false → e.rd h = h.reset) ∧ e.mem = d.mem ∧ e.hostMem = d.hostMem ∧
      e.live = d.live ∧ e.shadow = d.shadow ∧ (∀ k < 16, (e.stream k).desc = none) ∧ e.host.unsent = [] ∧ e.host.bar2Log2 = 28 ∧
      (cause ≠ .flr → e.rd (Reg.HST_UP.at []) = 0 ∧ (d.rd (Reg.HST_UP.at []) ≠ 0 → e.rd (Reg.HST_GEN.at []) = 0 ∧ e.rd (Reg.HST_WIDTH.at []) = 0 ∧ raised 0x0230 8 0 [] d e)) ∧
      (cause = .flr → e.rd (Reg.HST_UP.at []) = d.rd (Reg.HST_UP.at []) ∧ e.events = d.events))) ∧
    (∀ gen width log2 cfg, let i := Instr.hostLinkUp gen width log2 cfg
      let due (v : Nat) : Prop := d.rd (Reg.HST_MSIX_PBA.at [v / 32, v % 32]) ≠ 0 ∧ cfg.msixEn = true ∧ cfg.funcMask = false ∧ d.rd (Reg.HST_MSIX_MASK.at [v]) = 0
      (i.wf = true → completes i s (fun e => e.rd (Reg.HST_UP.at []) = 1 ∧ e.rd (Reg.HST_GEN.at []) = gen ∧ e.rd (Reg.HST_WIDTH.at []) = width ∧ e.host.bar2Log2 = log2 ∧ holds e (Reg.HST_BAR2_LOG2.at []) log2 ∧
        ((∀ k < 128, (d.su k).work = []) → e.host.cfg = cfg ∧ raised 0x0236 8 0 [gen, width] d e ∧ (∀ v < 64, due v → v ∈ e.host.irqs ∧ e.rd (Reg.HST_MSIX_PBA.at [v / 32, v % 32]) = 0) ∧
          ((∀ v < 64, ¬ due v) → regsBut (keysOf [Reg.HST_UP.at [], Reg.HST_GEN.at [], Reg.HST_WIDTH.at [], Reg.HST_BAR2_LOG2.at []] ++ eventKeys) d e)))) ∧
      (i.wf = false → exec i s = .fault .illFormed)) ∧
    -- Before RUNNING
    (d.hostOpen = false →
      (∀ j ∈ [Instr.macLoRead c, .bytesLoRead u, .curveDataRead c, .sigRead o r, .zoneLtLoRead, .nonceRead],
        completes j s (fun e => e = { d with host := { d.host with lastRead := 0 } })) ∧
      (∀ j ∈ [Instr.wbOwn o wb, .start o, .forceBg o b, .forceGuard mask, .gforced o r, .mcCntClear c, .suCntClear u, .clCntClear n, .ddrCntClear, .inCntClear m, .peakClear, .edidDone m, .wdata v,
        .cgo, .apply, .close, .authWrite v, .handover, .rescan two, .resetZones v], completes j s (fun e => e = d)))

/-- Derived, with log 86 (SIG_FRAME), log 115 (the latches that CNT_CLEAR leaves) and log 145 (a double-bit error that CURVE_DATA meets) as the model's choices. TOP_ID reads 0x0DF8_7201 (R5); reads that latch or step, and writes that clear or set one thing (R8, R65, R66, R194, R195, R225, R240, R280, R301, R304, R353, R412, R444, R480). -/
def Obligations.ReadsAndWrites : Prop :=
  ∀ (s : State) (c : Fin 72) (u : Fin 128) (n : Fin 8) (m : Fin 4) (o : Fin 2) (r : Fin 16) (on : Bool) (guard : BitVec 16) (wb : BitVec 4), s.dev.held = false →
    let d := s.dev
    let entry := Tab.get 0 d.wear.ledger (zoneKey (d.rd (Reg.WEAR_ZSEL_OUT.at [])) (d.rd (Reg.WEAR_ZSEL_ZONE.at [])))
    let latches (f : Fld) (x : Nat) (e : Dev) : Prop := holds e f (x / 2 ^ 32) ∧ e.host.lastRead = x % 2 ^ 32 ∧ regsBut [f.key] d e ∧
      e = { d with regs := e.regs, host := { d.host with lastRead := x % 2 ^ 32 } }
    let clears (l : List Fld) (e : Dev) : Prop := (∀ f ∈ l, e.rd f = 0) ∧ regsBut (keysOf l) d e
    let sets (f : Fld) (x : Nat) (e : Dev) : Prop := holds e f x ∧ regsBut [f.key] d e ∧ e = { d with regs := e.regs }
    d.readWord 0 = 0x0DF87201 ∧
    completes .tbLoRead s (latches (Reg.TOP_TB_HI.at []) d.time) ∧
    (d.hostOpen = true →
      completes (.macLoRead c) s (latches (Reg.MC_MAC_HI.at (cix c)) (d.core c).mac) ∧
      completes (.bytesLoRead u) s (latches (Reg.SU_BYTES_HI.at (six u)) (d.su u).bytes) ∧
      completes .zoneLtLoRead s (latches (Reg.WEAR_ZONE_LT_HI.at []) entry) ∧
      (Tab.get 0 (d.core c).ecc (0x20000 + d.rd (Reg.MC_CURVE_ADDR.at (cix c))) < 2 →
        completes (.curveDataRead c) s (fun e => e.host.lastRead = (Tab.get (0 : Word) (d.core c).curve (d.rd (Reg.MC_CURVE_ADDR.at (cix c)))).toNat ∧
          counted (Reg.MC_CURVE_ADDR.at (cix c)) d e ∧ regsBut (keysOf [Reg.MC_CURVE_ADDR.at (cix c), Reg.MC_ECC_CORR.at (cix c)]) d e ∧
          e.rd (Reg.MC_ECC_CORR.at (cix c)) = (if Tab.get 0 (d.core c).ecc (0x20000 + d.rd (Reg.MC_CURVE_ADDR.at (cix c))) = 1 then 1 else d.rd (Reg.MC_ECC_CORR.at (cix c))))) ∧
      (Tab.get 0 (d.core c).ecc (0x20000 + d.rd (Reg.MC_CURVE_ADDR.at (cix c))) = 2 → d.coreUp c = true → d.dedAt = [] → roomForEvents d →
        completes (.curveDataRead c) s (fun e => e.rd (Reg.MC_STATE.at (cix c)) = 3 ∧ e.rd (Reg.MC_FAULT_CODE.at (cix c)) = 9 ∧
          ∃ r ∈ e.events.store, r.code = 0x0109 ∧ r.kind = 0 ∧ r.index = c)) ∧
      completes (.sigRead o r) s (fun e => e.host.lastRead = d.rd (Reg.WL_SIG.at [o.val, r.val]) ∧ holds e (Reg.WL_SIG_FRAME.at [o.val, r.val]) (Tab.get 0 (d.out o).sigFrame r) ∧
        r.val ∈ (e.out o).sigHeld ∧ (∀ k, k ≠ r.val → (k ∈ (e.out o).sigHeld ↔ k ∈ (d.out o).sigHeld)) ∧ regsBut [(Reg.WL_SIG_FRAME.at [o.val, r.val]).key] d e) ∧
      completes (.mcCntClear c) s (fun e => e.core c = { d.core c with mac := 0 } ∧ onlyCore c d e ∧ clears [Reg.MC_SP_ACCESS.at (cix c), Reg.MC_BUSY.at (cix c)] e ∧
        e = { d with regs := e.regs, cores := e.cores }) ∧
      completes (.suCntClear u) s (fun e => e.su u = { d.su u with bytes := 0 } ∧ (∀ k, k ≠ u.val → e.su k = d.su k) ∧
        clears [Reg.SU_MVCLAMP_CNT.at (six u), Reg.SU_LATE_CNT.at (six u)] e ∧ e = { d with regs := e.regs, sus := e.sus }) ∧
      completes (.clCntClear n) s (fun e => clears ([Reg.CL_SC_HIT.at [n.val], Reg.CL_SC_MISS.at [n.val], Reg.CL_RING_BYTES.at [n.val]] ++
        (List.range 32).flatMap (fun w => [Reg.CL_WC_EXPIRED.at [n.val, w], Reg.CL_WC_DISCARDED.at [n.val, w]])) e ∧ e = { d with regs := e.regs }) ∧
      completes .ddrCntClear s (fun e => clears [Reg.DDR_ECC_CE_CNT.at [], Reg.DDR_ECC_UE_CNT.at [], Reg.DDR_REF_POSTPONED.at [], Reg.DDR_HIT_PROMOTED.at []] e ∧ e = { d with regs := e.regs }) ∧
      completes (.inCntClear m) s (fun e => clears [Reg.IN_FRAMES_RX.at [m.val], Reg.IN_DISCARDED.at [m.val], Reg.IN_LINK_ERRS.at [m.val]] e ∧ e = { d with regs := e.regs }) ∧
      completes .peakClear s (sets (Reg.THM_PEAK.at []) (d.rd (Reg.THM_MAX.at []))) ∧
      completes (.start o) s (fun e => e.out o = { d.out o with startAsked := true } ∧ (∀ k, k ≠ o.val → e.out k = d.out k) ∧ e = { d with outs := e.outs }) ∧
      completes (.forceBg o on) s (sets (Reg.OUT_FORCE_BG.at [o.val]) (if on then 1 else 0)) ∧
      completes (.forceGuard guard) s (sets (Reg.GP_FORCE_GUARD.at []) guard.toNat) ∧
      completes (.gforced o r) s (sets (Reg.WL_GFORCED.at [o.val, r.val]) 0) ∧
      completes (.wbOwn o wb) s (fun e => (∀ i < 4, (e.rd (Reg.CMP_WB_OWN.at [o.val])).testBit i = ((d.rd (Reg.CMP_WB_OWN.at [o.val])).testBit i && !wb.getLsbD i)) ∧
        regsBut [(Reg.CMP_WB_OWN.at [o.val]).key] d e ∧ e = { d with regs := e.regs }))

/-! ### Commits and images -/

/-- A write to TOP_COMMIT (R235, R237, R238, R245): the ARM bits are checked together, and all of them arm or none does; a rejection is reported and changes neither live values nor shadows; DISCARD takes the live values into the shadows of a domain that is not armed. With
log 88, 89, 90, 154 and 156: which rules look at what, which code stands first, and a partner's slot size. -/
def Obligations.Commits : Prop :=
  ∀ (s : State) (v : Word) (i : Instr), s.dev.held = false → i ∈ [Instr.armOut0 v, .armOut1 v, .armPipe v, .discard v] →
    let d := s.dev
    let n := v.toNat
    let ms := (List.range 3).filter (fun m => n.testBit m)
    let armed (e : Dev) (m : Nat) : Bool := (e.rd (Reg.TOP_ARMED.at [])).testBit m
    let d1 := upTo 3 (fun m e => if n.testBit (4 + m) && !armed d m then e.reloadShadows m else e) d
    let c := ms.foldl (fun c m => c.loadDomain m) d1
    let r := d1.checkCommit ms true
    (i.wf = false → exec i s = .fault .illFormed) ∧
    (i.wf = true → n % 8 ≠ 0 →
      (r.code = 0 → completes i s (fun e => (∀ m < 3, armed e m = (armed d m || n.testBit m)) ∧ (∀ g : Fld, g.key ≠ (Reg.TOP_ARMED.at []).key → e.rd g = d.rd g) ∧
        (∀ m, m ∈ e.lateTold ↔ m ∈ d.lateTold ∧ (m ∉ ms ∨ armed d m = true)) ∧ e = { d with regs := e.regs, lateTold := e.lateTold, shadow := d1.shadow })) ∧
      (r.code ≠ 0 → completes i s (fun e => (∀ m < 3, n.testBit m = true → (e.rd (Reg.TOP_REJECT.at [])).testBit m = true) ∧ (∀ m, armed e m = armed d m) ∧
        holds e (Reg.TOP_ERR_CODE.at []) r.code ∧ holds e (Reg.TOP_ERR_DETAIL.at []) r.detail ∧ e.rd (Reg.TOP_ERR_DOMAINS.at []) = n % 8 ∧
        raised 0x0901 8 0 [r.code, r.detail, n % 8] d e ∧ e.live = d.live ∧ e.shadow = d1.shadow ∧ e.mem = d.mem)) ∧
      (n.testBit 0 = true → c.rd (Reg.OUT_HACTIVE.at [0]) < 640 ∨ 7680 < c.rd (Reg.OUT_HACTIVE.at [0]) → r.code ≠ 0) ∧
      (n % 8 = 1 → c.rd (Reg.OUT_GUARD_LINES.at [0]) ≠ d.rd (Reg.OUT_GUARD_LINES.at [0]) → r.code = 1 ∧ r.detail = 2) ∧
      (n % 8 = 5 → c.split ≠ d.split → r.code = 2) ∧
      (n % 8 = 5 → c.split = true → d.split = true → (∃ f ∈ timingRegs, c.rd (f.at [0]) ≠ d.rd (f.at [0])) → r.code = 1 ∧ r.detail = 3)) ∧
    (∀ m < 3, i.wf = true → n % 8 = 0 → n / 16 % 8 = 2 ^ m → (d.live.map Prod.fst).Nodup →
      (armed d m = true → completes i s (fun e => e = d)) ∧
      (armed d m = false → completes i s (fun e => (∀ f : Fld, f.rws = true → e.rdS f = if domainOf f.key = m then d.rd f else d.rdS f) ∧ e = { d with shadow := e.shadow })))

/-- Image commands, the cut-over, spares and releases (R231 to R234, R371, R372, R483): Keeper checks one image at a time and refuses it with the first code that fails, changing no plan; of a cut-over, step 2 brings the cores the new plan uses out of OFF and turns the idle rest off, and step 3 takes the plan once no write is on its way; a spare takes the place of a lost core; TOP_UNFREEZE releases a unit or says why not. With log 41, 42, 98, 100 and 150 to 153: fields that a
refusal does not name, what an installation leaves, and the form of an image's sections. -/
def Obligations.Images : Prop :=
  ∀ (s : State) (rep : ImgFound) (n : Fin 8) (u : UnitId) (k : Nat), s.dev.held = false →
    let d := s.dev
    let st := d.rd (Reg.TOP_IMG_STATE.at [])
    let state (e : Dev) : Nat := e.rd (Reg.TOP_IMG_STATE.at [])
    let addr := d.rd (Reg.TOP_IMG_ADDR_LO.at []) + d.rd (Reg.TOP_IMG_ADDR_HI.at []) * 2 ^ 32
    let len := d.rd (Reg.TOP_IMG_LEN_LO.at []) + d.rd (Reg.TOP_IMG_LEN_HI.at []) * 2 ^ 32
    let started (kind : Nat) (e : Dev) : Prop := state e = 1 ∧ e.inst = { kind := kind, addr := addr, len := len } ∧ regsBut [(Reg.TOP_IMG_STATE.at []).key] d e ∧
      e = { d with regs := e.regs, inst := e.inst }
    let refused (x : ImgFault) (e : Dev) : Prop := state e = 5 ∧ holds e (Reg.TOP_IMG_REFUSE.at []) x.code ∧ holds e (Reg.TOP_DET_PIPE.at []) x.pipe ∧
      holds e (Reg.TOP_DET_STAGE.at []) x.stage ∧ holds e (Reg.TOP_DET_CORE.at []) x.core ∧ holds e (Reg.TOP_DET_PLAN.at []) x.plan ∧ holds e (Reg.TOP_DET_ITEM.at []) x.item ∧
      raised 0x0904 8 0 [] d e ∧ e.inst = {} ∧ e.plan = d.plan ∧ e.cut = d.cut ∧ e.mem = d.mem
    let content := d.imgContent d.inst.addr rep
    let bad := d.imgFault d.inst.addr d.inst.len rep
    let accept := (leNat (d.bytes (d.inst.addr + 0x0C) 4)).testBit 0
    let writes := d.fabric.any (fun m => match m.body with
      | .write _ => true
      | _ => false)
    let next := variant (d.cut.rep.plans.getD d.cut.plan d.plan) d.cut.ks
    let res := d.unfreezeResult u.kind u.index
    let i := u.index.val
    -- Commands
    ((st = 1 ∨ st = 2 ∨ st = 3) → completes .install s (fun e => e = d) ∧ completes .validate s (fun e => e = d)) ∧
    (st ≠ 1 → st ≠ 2 → st ≠ 3 → completes .install s (started 1) ∧ completes .validate s (started 2)) ∧
    (st ≠ 1 → st ≠ 2 → completes .cancel s (fun e => e = d)) ∧
    ((st = 1 ∨ st = 2 ∧ (d.rd (Reg.TOP_ARMED.at [])).testBit 2 = false) → completes .cancel s (refused { code := 0x15 })) ∧
    (st ≠ 1 → completes (.imgChecksDone rep) s (fun e => e = d)) ∧
    (st = 1 →
      (∀ c, d.choosePlan content.phases content.plans accept = .error c →
        (bad = none → completes (.imgChecksDone rep) s (refused (d.choiceFault content c))) ∧
        (∀ x, bad = some x → completes (.imgChecksDone rep) s (refused (if (d.choiceFault content c).code < x.code then d.choiceFault content c else x)))) ∧
      (∀ x y, d.choosePlan content.phases content.plans accept = .ok y → bad = some x → completes (.imgChecksDone rep) s (refused x)) ∧
      ((d.inst.addr % 4096 ≠ 0 ∨ leNat (d.bytes d.inst.addr 4) ≠ 0x1A4B4449) → completes (.imgChecksDone rep) s (refused { code := 1 })) ∧
      (∀ p g, d.choosePlan content.phases content.plans accept = .ok (p, g) → bad = none →
        (d.inst.kind = 2 → completes (.imgChecksDone rep) s (fun e => state e = 4 ∧ holds e (Reg.TOP_IMG_PLAN.at []) p ∧ e.inst = {} ∧ e.plan = d.plan ∧
          regsBut (keysOf [Reg.TOP_IMG_STATE.at [], Reg.TOP_IMG_PLAN.at []]) d e)) ∧
        (d.inst.kind ≠ 2 → completes (.imgChecksDone rep) s (fun e => state e = 2 ∧ e.inst = { d.inst with rep := content, plan := p, degraded := g, digest := d.bytes (d.inst.addr + 0x30) 48 } ∧
          e.plan = d.plan ∧ regsBut [(Reg.TOP_IMG_STATE.at []).key] d e)))) ∧
    -- The cut-over
    ((d.cut.kind = 0 ∨ d.cut.step ≠ 1) → completes .cutoverMembersIdle s (fun e => e = d)) ∧
    (d.cut.kind ≠ 0 → d.cut.step = 1 → completes .cutoverMembersIdle s (fun e => e.cut = { d.cut with step := 2 } ∧ e.plan = d.plan ∧ e.mem = d.mem ∧
      ∀ c < 72, e.mcState c ≠ (if planUses next c then 0 else 1))) ∧
    ((d.cut.kind = 0 ∨ d.cut.step ≠ 2 ∨ writes = true) → completes .cutoverWriteDone s (fun e => e = d)) ∧
    (d.cut.kind ≠ 0 → d.cut.step = 2 → writes = false → d.cut.plan < d.cut.rep.plans.length → completes .cutoverWriteDone s (fun e => e.cut = { d.cut with step := 3 } ∧ e.plan = next ∧
      e.planNo = d.cut.plan ∧ e.image = d.cut.rep ∧ (∀ m ∈ e.fabric, ∃ l k, m.body = .unused l k) ∧ e.launchQ = [] ∧ holds e (Reg.TOP_IMG_CUTOVER_US.at []) ((d.time - d.cut.b0) / 1000) ∧
      (d.cut.kind ≠ 4 → holds e (Reg.TOP_IMG_PLAN.at []) d.cut.plan) ∧
      ∀ v < 128, (e.su v).prog = (next.suPrograms.filter (fun x => x.1 = v)).foldl (fun t x => Tab.put 0 t x.2.1 x.2.2) [])) ∧
    -- Spares
    (d.spareJobs.find? (fun j => j.1 = n.val) = none → completes (.spareEngaged n) s (fun e => e = d)) ∧
    (d.spareJobs.find? (fun j => j.1 = n.val) = some (n.val, k) →
      ((d.stopped.filter (fun p => d.pipeTouches p k)).any d.pipeWrites = true → completes (.spareEngaged n) s (fun e => e = d)) ∧
      ((d.stopped.filter (fun p => d.pipeTouches p k)).any d.pipeWrites = false → d.ecc = [] → completes (.spareEngaged n) s (fun e =>
        e.rd (Reg.CL_SPARE_FOR.at [n.val]) = k % 9 ∧ raised 0x0171 4 n [n.val, k % 9] d e ∧ e.plan = variant d.plan [k] ∧ ∀ j ∈ e.spareJobs, j.1 ≠ n.val))) ∧
    -- Releases
    (3 < u.kind.val → completes (.unfreeze u) s (fun e => e = d)) ∧
    (u.kind.val ≤ 3 → res ≠ 0 → completes (.unfreeze u) s (fun e => holds e (Reg.TOP_UNFREEZE_RESULT.at []) res ∧ regsBut [(Reg.TOP_UNFREEZE_RESULT.at []).key] d e ∧ e = { d with regs := e.regs })) ∧
    (u.kind.val = 0 → d.mcState i ≠ 3 → res ≠ 0) ∧
    (u.kind.val ≤ 3 → res = 0 → completes (.unfreeze u) s (fun e => e.rd (Reg.TOP_UNFREEZE_RESULT.at []) = 0 ∧ e.mem = d.mem ∧
      (u.kind.val = 0 → e.mcState i = 1 ∧ (∀ t < 8, e.tstate i t = 0) ∧ raised 0x0174 0 i [] d e) ∧
      (u.kind.val = 1 → e.rd (Reg.SU_STATE.at (six i)) = 0 ∧ raised 0x0174 0 (0x100 + i) [] d e) ∧
      (u.kind.val = 2 → (e.be i).stopped = false ∧ (e.be i).resting = true ∧ raised 0x0174 0 (0x180 + i) [] d e) ∧
      (u.kind.val = 3 → e.rd (Reg.TOP_FROZEN_BAR2.at []) = 0 ∧ raised 0x0174 7 2 [] d e)))

/-! ### Keeper, firmware and boot -/

/-- The Keeper mailbox (R163, R376, R384, R385, R423, R425, R426): a command written while one is being carried out is ignored with BUSY_WRITE; else STATE is BUSY and TAG the command's, and MAILBOX_COMPLETE gives its answer, DONE or ERROR, and its effect; a command of the owner record
rewrites both of its copies, and one that fails is no copy any more. (The answer is computed when the command is written: log 50. The key of an unowned device: log 51. What the reads answer out of range: log 119. BODY_DIGEST before a package runs: log 187. Slack outside the plan: log 120.) -/
def Obligations.Mailbox : Prop :=
  ∀ (s : State) (tag : BitVec 16) (owner key nonce : Bytes) (ok ok0 ok1 : Bool), s.dev.held = false → owner.length = 0x340 + 16224 → key.length = 96 → nonce.length = 32 →
    let d := s.dev
    let busy := d.rd (Reg.KPR_STATE.at []) = 1
    let arg0 := d.rd (Reg.KPR_ARG0.at [])
    let arg1 := d.rd (Reg.KPR_ARG1.at [])
    let arg2 := d.rd (Reg.KPR_ARG2.at [])
    let started (e : Dev) : Prop := e.rd (Reg.KPR_STATE.at []) = 1 ∧ e.rd (Reg.KPR_TAG.at []) = tag.toNat ∧ regsBut (keysOf [Reg.KPR_STATE.at [], Reg.KPR_TAG.at []]) d e ∧
      e = { d with regs := e.regs, mail := e.mail, free := e.free }
    let answers (resp : Bytes) (e : Dev) : Prop := started e ∧ e.mail = { resp := resp }
    let fails (err : Nat) (e : Dev) : Prop := started e ∧ e.mail = { err := err }
    let refused (e : Dev) : Prop := started e ∧ e.mail = { err := 4, event := some 0x0811 }
    let ownerSeq := match d.flash.owner with
      | none => 0
      | some o => o.seq
    let part (b : Bytes) (off n : Nat) : Bytes := (b.drop off).take n
    let orderly : Prop := leNat (owner.take 4) = 0x4F574E52 ∧ leNat (part owner 4 4) = (ownerSeq + 1) % 2 ^ 32
    let policy := leNat (part owner 8 4)
    let accepted (e : Dev) : Prop := started e ∧ ∃ o, e.mail = { owner := some o, event := some 0x0810 } ∧ o.rsa = part owner 0x10 384 ∧
      o.slh = part owner 0x190 48 ∧ o.seq = leNat (part owner 4 4) ∧ o.opsig = policy.testBit 0 ∧ o.store = policy.testBit 1 ∧ (policy.testBit 2 = true → o.lkey = none) ∧
      (policy.testBit 2 = false → o.lkey = d.lanternKey)
    let keyed (e : Dev) : Prop := started e ∧ e.mail = (match d.flash.owner with
      | some w => { owner := some { w with lkey := some (key.take 48) }, event := some 0x0813, closeWin := true }
      | none => { lkey := some (key.take 48), event := some 0x0813, closeWin := true })
    let m := d.mail
    (∀ i ∈ [Instr.repairCount tag, .repairRead tag, .logRead tag ok, .healthRead tag, .slackRead tag, .certRead tag, .ownerSet tag owner, .lkeySet tag key, .attest tag nonce],
      (busy → completes i s (fun e => e.rd (Reg.KPR_BUSY_WRITE.at []) = 1 ∧ regsBut [(Reg.KPR_BUSY_WRITE.at []).key] d e ∧ e = { d with regs := e.regs })) ∧
      (¬ busy → completes i s started)) ∧
    (∀ bad : Bytes, (bad.length ≠ owner.length → exec (.ownerSet tag bad) s = .fault .illFormed) ∧ (bad.length ≠ 96 → exec (.lkeySet tag bad) s = .fault .illFormed) ∧
      (bad.length ≠ 32 → exec (.attest tag bad) s = .fault .illFormed)) ∧
    (¬ busy →
      completes (.repairCount tag) s (answers (leBytes 4 d.repair.length ++ leBytes 4 (65536 - d.repair.length))) ∧
      (¬ (1 ≤ arg1 ∧ arg1 ≤ 256 ∧ arg0 + arg1 ≤ 65536) → completes (.repairRead tag) s (fails 2)) ∧
      (1 ≤ arg1 → arg1 ≤ 256 → arg0 + arg1 ≤ 65536 → completes (.repairRead tag) s (fun e => started e ∧ e.mail.err = 0 ∧ e.mail.resp.length = 8 * arg1 ∧
        ∀ k < arg1, part e.mail.resp (8 * k) 8 = match d.repair[arg0 + k]? with
          | none => leBytes 8 0
          | some x => leBytes 4 (1 + 2 * x.cls + (if x.field then 16 else 0) + 32 * x.loc) ++ leBytes 4 x.stamp)) ∧
      (¬ (1 ≤ arg1 ∧ arg1 ≤ 64 ∧ arg2 ≤ 1) → completes (.logRead tag ok) s (fails 2)) ∧
      (1 ≤ arg1 → arg1 ≤ 64 → arg2 = 1 → ok = false → completes (.logRead tag ok) s (fails 3)) ∧
      (arg1 = 1 → (arg2 = 0 ∨ arg2 = 1 ∧ ok = true) → completes (.logRead tag ok) s (answers
        (match (if arg2 = 0 then d.events.ram else d.flash.log).find? (fun r => r.seq = arg0 % 2 ^ 32) with
          | none => []
          | some r => r.toBytes))) ∧
      completes (.healthRead tag) s (fun e => started e ∧ e.mail.err = 0 ∧ e.mail.resp.length = 28 ∧
        (∀ c < 72, (leNat (part e.mail.resp 0 12)).testBit c = d.retired.contains c) ∧ (∀ b < 4, (leNat (part e.mail.resp 12 4)).testBit b = d.retired.contains (0x180 + b)) ∧
        (∀ n < 8, part e.mail.resp (16 + n) 1 = leBytes 1 (d.rd (Reg.CL_SPARE_FOR.at [n]))) ∧ part e.mail.resp 24 4 = leBytes 4 d.planNo) ∧
      (¬ (1 ≤ arg1 ∧ arg1 ≤ 64 ∧ arg0 + arg1 ≤ 64) → completes (.slackRead tag) s (fails 2)) ∧
      (1 ≤ arg1 → arg1 ≤ 64 → arg0 + arg1 ≤ 64 → completes (.slackRead tag) s (fun e => started e ∧ e.mail.err = 0 ∧ e.mail.resp.length = 16 * arg1 ∧
        ∀ k < arg1, ∀ x, d.plan.pipes.find? (fun y => y.pipe = arg0 + k && timedPipe y) = some x →
          part e.mail.resp (16 * k) 16 = leBytes 8 (ofSigned 64 (d.pipeSlack d.plan x (d.pipeLimit (arg0 + k)) d.planClock)) ++ leBytes 8 (ofSigned 64 (Tab.get 0 d.slack (arg0 + k))))) ∧
      completes (.certRead tag) s (fun e => if Config.identityBad = true then fails 5 e
        else if arg0 ≤ 3 ∧ arg1 ≤ (Config.certificate arg0).length then answers (leBytes 4 (Config.certificate arg0).length ++ part (Config.certificate arg0) arg1 2044) e
        else fails 2 e) ∧
      completes (.attest tag nonce) s (fun e => if Config.identityBad = true then fails 5 e else started e ∧ ∃ r, e.mail = { hostOut := [(arg0 + arg1 * 2 ^ 32 + 64, r)] } ∧
        r.take 4 = leBytes 4 0x41545354 ∧ part r 8 32 = nonce ∧ part r 0x30 8 = leBytes 8 d.time) ∧
      (¬ orderly → completes (.ownerSet tag owner) s refused) ∧
      (orderly → d.flash.owner = none → completes (.ownerSet tag owner) s accepted) ∧
      (∀ o, orderly → d.flash.owner = some o → completes (.ownerSet tag owner) s (fun e =>
        if Config.rsaVerify o.rsa (part owner 0 0x1C0) (part owner 0x1C0 384) = true ∧ Config.slhVerify o.slh (part owner 0 0x1C0) (part owner 0x340 16224) = true then accepted e else refused e)) ∧
      (d.lanternKey = none → completes (.lkeySet tag key) s keyed) ∧
      (∀ k, d.lanternKey = some k → completes (.lkeySet tag key) s (fun e =>
        if part key 48 48 = Config.hmacSha384 k (key.take 48 ++ leBytes 4 (d.rd (Reg.LAN_OPEN_COUNT.at []))) then keyed e else refused e))) ∧
    (¬ busy → completes (.mailboxComplete ok0 ok1) s (fun e => e = d)) ∧
    (busy → m.resp.length ≤ 2048 → d.rd (Reg.HST_IRQ_VECTOR.at [22]) < 64 → completes (.mailboxComplete ok0 ok1) s (fun e =>
      e.rd (Reg.KPR_STATE.at []) = (if m.err = 0 then 2 else 3) ∧ holds e (Reg.KPR_ERR.at []) m.err ∧ holds e (Reg.KPR_RLEN.at []) m.resp.length ∧ e.mail = {} ∧
      (∀ k < (m.resp.length + 3) / 4, e.rd (Reg.KPR_RESP.at [k]) = leNat (part m.resp (4 * k) 4)) ∧
      (m.closeWin = false → e.mem = d.mem) ∧ (m.closeWin = true → d.rd (Reg.LAN_STATE.at []) = 1 → e.rd (Reg.LAN_STATE.at []) = 0) ∧
      (∀ o, m.owner = some o → e.flash = { d.flash with owners := e.flash.owners } ∧ e.boot.lkey = none ∧
        (∀ k < 2, 66 + k ∉ d.boot.bad → ((if k = 0 then ok0 else ok1) = true → Tab.get none e.flash.owners k = some o) ∧
          ((if k = 0 then ok0 else ok1) = false → Tab.get none e.flash.owners k = none ∧ 66 + k ∈ e.boot.bad)) ∧
        (∀ k < 2, 66 + k ∈ d.boot.bad → Tab.get none e.flash.owners k = Tab.get none d.flash.owners k) ∧
        (e.flash.owner = some o → e.rd (Reg.SEC_OWNED.at []) = 1 ∧ holds e (Reg.SEC_OWNER_SEQ.at []) o.seq ∧ e.rd (Reg.SEC_OPSIG_REQ.at []) = (if o.opsig then 1 else 0) ∧
          e.rd (Reg.SEC_STORE_IMG.at []) = (if o.store then 1 else 0) ∧ e.rd (Reg.SEC_LKEY_SET.at []) = (if o.lkey = none then 0 else 1))) ∧
      (m.owner = none → e.flash = d.flash ∧ ∀ k, m.lkey = some k → e.boot.lkey = some k ∧ (d.flash.owner = none → e.rd (Reg.SEC_LKEY_SET.at []) = 1)) ∧
      (∀ c, m.event = some c → (m.owner = none ∨ ok0 = true ∧ ok1 = true) → (m.closeWin = false ∨ d.lantern.copy = none ∨ d.ecc = []) → raised c 8 0 [] d e) ∧
      (∀ a b, m.hostOut = [(a, b)] → d.rd (Reg.HST_IRQ_EN.at [22]) = 0 → Tab.getList 0 e.hostMem a b.length = b)))

/-- Firmware (R414, R415, R419, R422, R428, R429): staging refuses a package with the first check that fails, or writes it to the slot not running, on trial; ACTIVATE is refused with the first reason of its table, or resets the device; CONFIRM, COMMIT_SVN, ABORT and the recovery registers. A warm reset keeps the flash. (ACTIVE and TRY while
a package is staged: log 186; the bytes of a slot whose write failed: log 163; when a write of the recovery buffer ends: log 188; ignored and refused commands: log 125; a record pending at a reset: log 169.) -/
def Obligations.Firmware : Prop :=
  ∀ (s : State) (ok force : Bool), s.dev.held = false →
    let d := s.dev
    let err (e : Dev) : Nat := e.rd (Reg.SEC_FW_ERR.at [])
    let st := d.rd (Reg.SEC_FW_STATE.at [])
    let len := d.rd (Reg.SEC_FW_LEN.at [])
    let p := d.bytes (d.rd (Reg.SEC_FW_ADDR_LO.at []) + d.rd (Reg.SEC_FW_ADDR_HI.at []) * 2 ^ 32) len
    let c := packageCode p (d.rd (Reg.SEC_FUSED_SVN.at []))
    let code := if c ≠ 0 then c else if ok then 0 else 7
    let only (f : Fld) (v : Nat) (e : Dev) : Prop := e.rd f = v ∧ regsBut [f.key] d e ∧ e = { d with regs := e.regs }
    let kept := keysOf [Reg.SEC_FUSED_SVN.at [], Reg.THM_TRIP_STICKY.at [], Reg.TOP_GPIO_STRAP.at [], Reg.TOP_GPIO_IN.at [], Reg.SEC_FLASH_MIB.at [], Reg.SEC_BOOT_STATE.at []]
    let reset (e : Dev) : Prop := (∀ f : Fld, f.key ∉ kept → e.rd f = f.reset) ∧ (e.rd (Reg.SEC_BOOT_STATE.at []) = 0 ∨ e.rd (Reg.SEC_BOOT_STATE.at []) = 4) ∧
      e.rd (Reg.SEC_FUSED_SVN.at []) = d.rd (Reg.SEC_FUSED_SVN.at []) ∧ e.rd (Reg.THM_TRIP_STICKY.at []) = d.rd (Reg.THM_TRIP_STICKY.at []) ∧ e.mem = [] ∧ e.fabric = [] ∧ e.cores = [] ∧ e.time = 0 ∧
      e.flash.slots = d.flash.slots ∧ e.flash.owners = d.flash.owners ∧ e.boot.staged = none
    let owner := d.rd (Reg.BCN_ROLE.at []) = 4 ∧ 0 ∈ d.beacon.present ∧ (∃ h, Tab.get none d.beacon.heard 0 = some h ∧ h.ready = true) ∧ force = false
    let img := d.rd (Reg.TOP_IMG_STATE.at []) = 2 ∨ d.rd (Reg.TOP_IMG_STATE.at []) = 3
    let confirms (i : Instr) : Prop :=
      (d.rd (Reg.SEC_TRYING.at []) = 0 → completes i s (fun e => e = d)) ∧
      (d.rd (Reg.SEC_TRYING.at []) ≠ 0 → completes i s (fun e => e.rd (Reg.SEC_TRYING.at []) = 0 ∧ regsBut [(Reg.SEC_TRYING.at []).key] d e ∧
        e = { d with regs := e.regs, flash := d.flash.putBoot (d.rd (Reg.SEC_SLOT.at [])) d.boot.staged.isSome 0 }))
    let recovery := d.rd (Reg.SEC_BOOT_STATE.at []) = 4
    let off := d.rd (Reg.SEC_RECOV_OFF.at [])
    let slotA := d.slotBytes 0
    -- STAGE
    ((st = 1 ∨ st = 2) → completes .stage s (fun e => e = d)) ∧
    (st ≠ 1 → st ≠ 2 → completes .stage s (fun e => e.rd (Reg.SEC_FW_STATE.at []) = 1 ∧ err e = 0 ∧ e.boot = { d.boot with staged := none } ∧ e.flash = d.flash ∧
      regsBut (keysOf [Reg.SEC_FW_STATE.at [], Reg.SEC_FW_ERR.at []]) d e)) ∧
    (st ≠ 1 → st ≠ 2 → completes (.fwStageDone ok) s (fun e => e = d)) ∧
    ((st = 1 ∨ st = 2) → d.ecc = [] →
      (leNat (p.take 4) ≠ 0x46574450 → code = 1) ∧
      completes (.fwStageDone ok) s (fun e =>
        if code ≠ 0 then e.rd (Reg.SEC_FW_STATE.at []) = 4 ∧ err e = code ∧ raised 0x0803 8 0 [code] d e ∧ e.flash.boots = d.flash.boots ∧
          e.slotBytes (d.rd (Reg.SEC_SLOT.at [])) = d.slotBytes (d.rd (Reg.SEC_SLOT.at [])) ∧ (code ≠ 7 → e.flash = d.flash) ∧ e.boot = d.boot
        else e.rd (Reg.SEC_FW_STATE.at []) = 3 ∧ holds e (Reg.SEC_STAGED_VERSION.at []) (leNat ((p.drop 8).take 4)) ∧ raised 0x0802 8 0 [] d e ∧
          e.slotBytes (1 - d.rd (Reg.SEC_SLOT.at [])) = p.take 6291456 ∧ (∃ k < 2, (∀ j, j ≠ k → Tab.get none e.flash.boots j = Tab.get none d.flash.boots j) ∧
            Tab.get none e.flash.boots k = some { seq := d.flash.boot.seq + 1, active := 1 - (1 - d.rd (Reg.SEC_SLOT.at [])), trying := true, count := 0 }) ∧ d.flash.boot.seq < e.flash.boot.seq ∧
          e.boot = { d.boot with staged := some p })) ∧
    -- ACTIVATE, RESET
    (owner → completes (.activate force) s (only (Reg.SEC_FW_ERR.at []) 8)) ∧
    (¬ owner → img → completes (.activate force) s (only (Reg.SEC_FW_ERR.at []) 9)) ∧
    (¬ owner → ¬ img → d.boot.staged = none → completes (.activate force) s (only (Reg.SEC_FW_ERR.at []) 10)) ∧
    (¬ owner → ¬ img → d.boot.staged ≠ none → completes (.activate force) s (fun e => reset e ∧ e.flash.boots = d.flash.boots)) ∧
    completes .fwReset s (fun e => reset e ∧ e.flash.boots = d.flash.boots) ∧
    -- CONFIRM, COMMIT_SVN, ABORT
    confirms .confirm ∧
    ((d.hostOpen = false ∨ d.rd (Reg.BCN_PAIR_EN.at []) ≠ 0) → completes .trialConfirmTimeout s (fun e => e = d)) ∧
    (d.hostOpen = true → d.rd (Reg.BCN_PAIR_EN.at []) = 0 → confirms .trialConfirmTimeout) ∧
    (d.rd (Reg.SEC_TRYING.at []) ≠ 0 → completes .commitSvn s (only (Reg.SEC_FW_ERR.at []) 8)) ∧
    (d.rd (Reg.SEC_TRYING.at []) = 0 → completes .commitSvn s (fun e => holds e (Reg.SEC_FUSED_SVN.at []) (max (d.rd (Reg.SEC_FUSED_SVN.at [])) (d.rd (Reg.SEC_FW_SVN.at []))) ∧ raised 0x0805 8 0 [] d e ∧
      regsBut ((Reg.SEC_FUSED_SVN.at []).key :: eventKeys) d e ∧ e.flash = d.flash)) ∧
    (d.boot.staged = none → completes .abort s (fun e => e = d)) ∧
    (d.boot.staged ≠ none → completes .abort s (fun e => e.boot = { d.boot with staged := none } ∧ e.flash = d.flash.putBoot d.flash.boot.active false 0 ∧
      e.rd (Reg.SEC_FW_STATE.at []) = 0 ∧ e.rd (Reg.SEC_STAGED_VERSION.at []) = 0 ∧ regsBut (keysOf [Reg.SEC_FW_STATE.at [], Reg.SEC_STAGED_VERSION.at []]) d e)) ∧
    -- Recovery
    (¬ recovery → completes .recovProgram s (fun e => e = d) ∧ completes .recovReboot s (fun e => e = d)) ∧
    (recovery → d.boot.prog ≠ none → completes .recovProgram s (fun e => e = d)) ∧
    (recovery → d.boot.prog = none → 6291456 < off + 4096 → completes .recovProgram s (only (Reg.SEC_RECOV_STATUS.at []) 3)) ∧
    (recovery → d.boot.prog = none → off + 4096 ≤ 6291456 → completes .recovProgram s (fun e => e.rd (Reg.SEC_RECOV_STATUS.at []) = 1 ∧ regsBut [(Reg.SEC_RECOV_STATUS.at []).key] d e ∧ e.flash = d.flash ∧
      ∃ x, e.boot = { d.boot with prog := some (off, x) } ∧ ∀ k < 1024, (x.drop (4 * k)).take 4 = leBytes 4 (d.rd (Reg.SEC_RECOV_BUF.at [k])))) ∧
    (∀ at_ x, d.boot.prog = some (at_, x) → ∃ e, step { pending := [], dev := d } = .next { pending := [], dev := e } ∧ e.flash.boots = d.flash.boots ∧
      (e.boot.prog = d.boot.prog ∧ e.flash = d.flash ∨ e.boot.prog = none ∧ (e.rd (Reg.SEC_RECOV_STATUS.at []) = 3 ∨ e.rd (Reg.SEC_RECOV_STATUS.at []) = 2 ∧
        ((e.slotBytes 0).drop at_).take x.length = x ∧ (∀ k < at_, (e.slotBytes 0)[k]? = if k < slotA.length then slotA[k]? else some 0xFF#8) ∧
        (e.slotBytes 0).drop (at_ + x.length) = slotA.drop (at_ + x.length)))) ∧
    (recovery → completes .recovReboot s (fun e => reset e ∧ e.flash = d.flash.putBoot 0 false 0))

/-- Resets and the boot (R187, R243, R315, R358, R413, R414, R420, R421, R423, R454, R456, R457, R460): what a reset clears and what outlives it; a trip holds the device until a reset ends it; the ROM boots the slot the record names, tries the other, then waits in RECOVERY; LPDDR6 training with a channel missing halts the device; after RESTORE it is RUNNING. What the pins show after a reset, a trip and a loss of health (R456). (What outlives a reset: logs
15, 17; the straps: logs 13, 16; an undervoltage that keeps the trip: log 190; the test access port: log 53; the order of the ROM's checks: log 122; when the record counts as restored: log 97; a device without an owner: log 51.) -/
def Obligations.ResetsAndBoot : Prop :=
  ∀ (s : State) (straps : BitVec 16) (rail : WatchedRail) (level tms tdi trstN high : Bool) (balls : List Signal) (ready : BitVec 12) (rate cap cols : Nat) (rec_ : GoodRec),
    let d := s.dev
    let boot (e : Dev) : Nat := e.rd (Reg.SEC_BOOT_STATE.at [])
    let cleared (e : Dev) : Prop := e.live = [] ∧ e.shadow = [] ∧ e.mem = [] ∧ e.ecc = [] ∧ e.cores = [] ∧ e.fabric = [] ∧ e.sus = [] ∧ e.wcs = [] ∧ e.events = {} ∧ e.beacon = {} ∧ e.time = 0 ∧ e.flash = d.flash ∧
      e.hostMem = d.hostMem ∧ e.selB = d.selB ∧ e.rd (Reg.SEC_FUSED_SVN.at []) = d.rd (Reg.SEC_FUSED_SVN.at [])
    let kept := keysOf [Reg.SEC_FUSED_SVN.at [], Reg.THM_TRIP_STICKY.at [], Reg.TOP_GPIO_STRAP.at [], Reg.TOP_GPIO_IN.at [], Reg.SEC_FLASH_MIB.at [], Reg.SEC_BOOT_STATE.at []]
    let out (e : Dev) : Prop := cleared e ∧ (∀ f : Fld, f.key ∉ kept → e.rd f = f.reset) ∧ holds e (Reg.SEC_FLASH_MIB.at []) Config.flashMib ∧
      e.rd (Reg.TOP_GPIO_IN.at []) = e.rd (Reg.TOP_GPIO_STRAP.at []) ∧ boot e = if (e.rd (Reg.TOP_GPIO_STRAP.at [])).testBit 0 then 4 else 0
    let sticky (e : Dev) : Nat := e.rd (Reg.THM_TRIP_STICKY.at [])
    let b := d.flash.boot
    let slot := if d.boot.second then d.boot.slot else if b.trying ∧ b.count < 2 then 1 - b.active else b.active
    let p := d.slotBytes slot
    -- Pins (R456)
    (∀ i ∈ [Instr.powerOnReset straps, .supplyUndervoltage rail straps, .systemReset straps], completes i s (fun e => e.pinFaultN = none ∧ e.pinAuxpRstN = false ∧
      (∀ n < 2, e.pinTwinOwn n = false) ∧ (∀ n < 16, e.pinGpio n = none) ∧ (∀ n < 4, e.pinInHpd n = false) ∧ (e.power.tripped = false → e.pinThermtripN = none))) ∧
    completes .thermalTrip s (fun e => e.pinThermtripN = some false ∧ ∀ n < 2, e.pinTwinOwn n = false) ∧
    (d.held = false → completes .lossOfHealth s (fun e => (∀ n < 2, e.pinTwinOwn n = false) ∧ e.pinThermtripN = d.pinThermtripN)) ∧
    -- Resets
    (∀ i ∈ [Instr.powerOnReset straps, .supplyUndervoltage rail straps], completes i s (fun e => out e ∧ e.rd (Reg.TOP_GPIO_STRAP.at []) = straps.toNat ∧ sticky e = 0 ∧ e.jtag = {} ∧ e.boot.testEn = d.boot.testEn ∧
      ((i = .powerOnReset straps ∨ rail = .io18) → e.power = {}) ∧ (i ≠ .powerOnReset straps → rail ≠ .io18 → e.power = { tripped := d.power.tripped }))) ∧
    completes (.systemReset straps) s (fun e => out e ∧ e.power = {} ∧ e.rd (Reg.TOP_GPIO_STRAP.at []) = straps.toNat ∧ sticky e = sticky d ∧ e.jtag = { d.jtag with low := false } ∧ e.boot.testEn = d.boot.testEn) ∧
    (d.held = false → completes .watchdogExpiry s (fun e => out e ∧ e.power = {} ∧ e.rd (Reg.TOP_GPIO_STRAP.at []) = Config.freeBits d.free % 2 ^ 16 ∧ e.free = d.free + 1 ∧ sticky e = sticky d ∧ e.jtag = d.jtag)) ∧
    (level = d.boot.testEn → completes (.testEnChange level) s (fun e => e = d)) ∧
    (level ≠ d.boot.testEn → completes (.testEnChange level) s (fun e => cleared e ∧ e.boot.testEn = level ∧ e.power.tripped = d.power.tripped ∧ sticky e = sticky d ∧ e.jtag = d.jtag ∧
      (level = false → boot e = if (e.rd (Reg.TOP_GPIO_STRAP.at [])).testBit 0 then 4 else 0))) ∧
    completes .thermalTrip s (fun e => sticky e = 1 ∧ e.power = { d.power with tripped := true } ∧ e.beacon = { d.beacon with sick := true } ∧ regsBut [(Reg.THM_TRIP_STICKY.at []).key] d e ∧
      e = { d with regs := e.regs, power := e.power, beacon := e.beacon }) ∧
    (d.held = false → completes .lossOfHealth s (fun e => e = { d with beacon := { d.beacon with sick := true } })) ∧
    completes (.jtagTck tms tdi trstN high balls) s (fun e =>
      let j := d.jtag
      let next := j.st.next tms
      let scan : Prop := high = false ∧ (j.inst = 2 ∨ j.inst = 3)
      e = { d with jtag := e.jtag, free := d.free + 1 } ∧ e.jtag.low = !high ∧
      (trstN = false → e.jtag.st = .reset ∧ e.jtag.inst = 1) ∧
      (trstN = true → e.jtag.st = next ∧
        (j.st = .captureDr → (j.inst = 1 → e.jtag.dr = (List.range 32).map (Nat.testBit 0x0DF87A4D)) ∧ (scan → e.jtag.dr = d.scanCapture balls) ∧ (j.inst ≠ 1 → ¬ scan → e.jtag.dr = [false])) ∧
        (j.st = .shiftDr → e.jtag.tdo = j.dr.headD false ∧ e.jtag.dr = j.dr.drop 1 ++ [tdi]) ∧
        (j.st = .captureIr → e.jtag.ir.take 2 = [true, false]) ∧
        (j.st = .shiftIr → e.jtag.tdo = j.ir.headD false ∧ e.jtag.ir = j.ir.drop 1 ++ [tdi]) ∧
        (next = .updateDr → scan → e.jtag.latch = j.dr) ∧ (next = .updateDr → ¬ scan → e.jtag.latch = j.latch) ∧
        (next = .updateIr → (∀ b ∈ j.ir, b = true) → e.jtag.inst = 0) ∧ (next = .reset → e.jtag.inst = 1) ∧ (next ≠ .updateIr → next ≠ .reset → e.jtag.inst = j.inst))) ∧
    (d.jtag.low = true → ∀ g own, (d.jtag.inst = 4 → d.ball g own = none) ∧ (d.jtag.inst = 2 → d.ball g own = own)) ∧
    (d.jtag.low = false → ∀ g own, d.ball g own = own) ∧
    -- The ROM
    (d.held = false →
      (boot d ≠ 0 → completes .packageChecked s (fun e => e = d)) ∧
      (boot d = 0 → completes .packageChecked s (fun e =>
        if Config.flashMib < 32 then boot e = 5 ∧ e.rd (Reg.SEC_HALT_CODE.at []) = 1 ∧ e.flash = d.flash
        else if packageCode p (d.rd (Reg.SEC_FUSED_SVN.at [])) = 0 then
          boot e = 1 ∧ holds e (Reg.SEC_SLOT.at []) slot ∧ e.boot.running = p ∧ holds e (Reg.SEC_FW_VERSION.at []) (leNat ((p.drop 8).take 4)) ∧
          holds e (Reg.SEC_FW_SVN.at []) (leNat ((p.drop 12).take 2)) ∧ e.repair = d.flash.health?.repair ∧ e.retired = d.flash.health?.retired ∧ e.boot.bad = d.flash.health?.bad ∧
          (slot = 1 - b.active → d.boot.second = false → e.flash.boot = { b with seq := b.seq + 1, count := b.count + 1 }) ∧ e.mem = d.mem
        else if d.boot.second = true then boot e = 4 ∧ e.flash = d.flash
        else boot e = 0 ∧ e.boot.second = true ∧ e.boot.slot = 1 - slot ∧ e.flash.slots = d.flash.slots)) ∧
      -- INIT and RESTORE
      (Instr.wf (.ddrTrainingDone ready rate cap cols) = false → exec (.ddrTrainingDone ready rate cap cols) s = .fault .illFormed) ∧
      (Instr.wf (.ddrTrainingDone ready rate cap cols) = true →
        (boot d ≠ 1 → completes (.ddrTrainingDone ready rate cap cols) s (fun e => e = d)) ∧
        (boot d = 1 → ready.toNat ≠ 0xFFF → completes (.ddrTrainingDone ready rate cap cols) s (fun e => boot e = 5 ∧ e.rd (Reg.SEC_HALT_CODE.at []) = 2 ∧ e.rd (Reg.DDR_CH_READY.at []) = ready.toNat ∧
          (e.events.store.getLast?).map EventRec.code = some 0x0735)) ∧
        (boot d = 1 → ready.toNat = 0xFFF →
          (d.flash.newest = none → completes (.ddrTrainingDone ready rate cap cols) s (fun e => boot e = 2 ∧ e.rd (Reg.DDR_CH_READY.at []) = 0xFFF ∧ holds e (Reg.DDR_DATARATE.at []) rate ∧
            holds e (Reg.DDR_CAP_GIB.at []) cap ∧ holds e (Reg.DDR_COLBITS.at []) cols ∧ e.rd (Reg.TOP_LG_NO_RECORD.at []) = 1 ∧ (e.events.store.getLast?).map EventRec.code = some 0x0363 ∧
            (d.flash.owner = none → e.rd (Reg.SEC_OWNED.at []) = 0) ∧ (∀ o, d.flash.owner = some o → e.rd (Reg.SEC_OWNED.at []) = 1 ∧ holds e (Reg.SEC_OWNER_SEQ.at []) o.seq) ∧ e.boot = d.boot)) ∧
          (d.flash.newest = some rec_ → completes (.ddrTrainingDone ready rate cap cols) s (fun e => e.hoursBase = rec_.hours ∧ e.boot.lgSeq = some rec_.seq ∧ e.boot.pairs = some (rec_.digest, rec_.pairs))))) ∧
      (boot d ≠ 2 → completes .restoreDone s (fun e => e = d)) ∧
      (boot d = 2 → completes .restoreDone s (fun e => boot e = 3 ∧ e.rd (Reg.SEC_BOOT_MS.at []) = min (d.time / 1000000) 65535)) ∧
      (boot d = 2 → d.boot.lgSeq = none → completes .restoreDone s (fun e => e.mem = d.mem ∧
        e.rd (Reg.BCN_ROLE.at []) = if d.beacon.sick = true then d.rd (Reg.BCN_ROLE.at []) else if d.rd (Reg.BCN_PAIR_EN.at []) = 0 then 0 else 1)) ∧
      (∀ n, boot d = 2 → d.boot.lgSeq = some n → completes .restoreDone s (fun e => holds e (Reg.TOP_LG_SEQ_LO.at []) n ∧
        (d.rd (Reg.BCN_PAIR_EN.at []) = 0 → (e.events.store.getLast?).map EventRec.code = some 0x0907))))

/-! ### The twin and the Beacon link -/

/-- Roles of a twin (R314 to R323, R429): heartbeats are sent and heard, a partner is present from its sixteenth in a row and lost without them; the roles that follow; claim, takeover and split; READY; the end of WAIT; the selection, a handover, and what the owner tells its twin. With log 43, 101, 102, 103 and 155: when a role is taken up, what a claim and a heartbeat carry, the
messages of Keeper to Keeper. -/
def Obligations.TwinRoles : Prop :=
  ∀ (s : State) (p : Fin 3) (h : Heartbeat) (sel0 sel1 : Bool) (m : KeeperMsg) (o : Fin 2), s.dev.held = false →
    let d := s.dev
    let role := d.rd (Reg.BCN_ROLE.at [])
    let becomes (r : Nat) (e : Dev) : Prop := e.rd (Reg.BCN_ROLE.at []) = r
    let here := 0 ∈ d.beacon.present
    let paired := d.rd (Reg.BCN_PAIR_EN.at []) ≠ 0
    let conflict (h : Heartbeat) : Prop := h.sideB = decide (d.rd (Reg.BCN_SIDE.at []) ≠ 0)
    let last := Tab.get none d.beacon.heard 0
    let twinReady := here ∧ ∃ x, last = some x ∧ x.ready = true
    let claims (e : Dev) : Prop := e.beacon.claim = some d.time ∧ counted (Reg.BCN_TAKEOVERS.at []) d e
    let healthy : Prop := d.beacon.sick = false
    let ports := (List.range 3).filter (fun q => d.portUsed q = true ∧ d.rd (Reg.BCNP_UP.at [q]) ≠ 0)
    let beats := Tab.get 0 d.beacon.beats p
    let partner := d.rd (Reg.BCNP_PARTNER.at [p.val])
    let shown := decide (0 ∈ d.selB) = decide (d.rd (Reg.BCN_SIDE.at []) ≠ 0)
    let ready : Prop := (role = 2 ∨ role = 3 ∧ d.rd (Reg.BCN_READY.at []) = 0) ∧ here ∧ d.rd (Reg.BCN_TWIN_ROLE.at []) = 4 ∧ d.sameImage = true ∧ d.beacon.valsApplied = true ∧
      (∀ k < 2, d.split = true ∧ k = 1 ∨ d.rd (Reg.OUT_GL_STATE.at [k]) = 4) ∧ healthy ∧ ∃ x, last = some x ∧ x.epoch = d.rd (Reg.BCN_EPOCH.at [])
    -- Heartbeats
    ((d.beacon.sick = true ∨ d.hostOpen = false) → completes .heartbeatSend s (fun e => e = d)) ∧
    (healthy → d.hostOpen = true →
      (d.faultN = false → d.planAbove = false → completes .heartbeatSend s (fun e => e = { d with bcnSent := d.bcnSent ++ ports.map (fun q => .heartbeat q (d.heartbeat q)) })) ∧
      ((d.faultN = true ∧ (d.rd (Reg.BCN_HANDOVER_MASK.at [])).testBit 3 = true ∨ d.planAbove = true ∧ (d.rd (Reg.BCN_HANDOVER_MASK.at [])).testBit 1 = true) → role = 4 → twinReady → completes .heartbeatSend s (fun e => e.beacon = { d.beacon with marking := true } ∧ e.regs = d.regs))) ∧
    (d.portUsed p = false → completes (.heartbeatArrival p h) s (fun e => e = d)) ∧
    (d.portUsed p = true → completes (.heartbeatArrival p h) s (fun e => Tab.get none e.beacon.heard p = some h ∧ holds e (Reg.BCNP_PARTNER_ID.at [p.val]) (2 * h.pos + (if h.sideB then 1 else 0)) ∧ e.mem = d.mem ∧
      (p.val ∈ d.beacon.present → e.beacon.present = d.beacon.present) ∧
      (p.val ∉ d.beacon.present → beats < 15 → e.beacon.present = d.beacon.present ∧ Tab.get 0 e.beacon.beats p = beats + 1) ∧
      (p.val ∉ d.beacon.present → 15 ≤ beats → e.beacon.present = d.beacon.present ++ [p.val]) ∧
      (p.val = 0 → holds e (Reg.BCN_TWIN_ROLE.at []) h.role ∧
        ((¬ paired ∨ ¬ healthy ∨ p.val ∉ d.beacon.present ∧ beats < 15) → becomes role e ∧ e.beacon.claim = d.beacon.claim) ∧
        (healthy → paired → here → conflict h → becomes (if role = 2 ∨ role = 3 then 1 else role) e) ∧
        (healthy → paired → here → ¬ conflict h →
          ((role = 1 ∨ role = 2) → becomes (if h.role ≠ 4 ∧ d.rd (Reg.BCN_SIDE.at []) = 0 then 4 else 2) e) ∧
          (role = 3 → becomes 3 e ∧ (h.handover = true → d.beacon.claim = none → claims e) ∧ (h.handover = false → e.beacon.claim = d.beacon.claim)) ∧
          (role = 4 → becomes 4 e ∧ (d.beacon.marking = true → h.claim = true → e.beacon.handOff = true)))))) ∧
    (partner = 0 → completes (.partnerLost p) s (fun e => e = d)) ∧
    (partner ≠ 0 → completes (.partnerLost p) s (fun e => counted (Reg.BCNP_BEATS_MISSED.at [p.val]) d e 3 ∧ p.val ∉ e.beacon.present ∧ e.mem = d.mem ∧
      ((p.val ≠ 0 ∨ ¬ here ∨ ¬ healthy ∨ role = 0 ∨ role = 1 ∨ role = 4) → becomes role e) ∧
      (healthy → p.val = 0 → here →
        (role = 2 → becomes 4 e) ∧
        (role = 3 → d.rd (Reg.BCN_READY.at []) ≠ 0 → d.beacon.claim = none → becomes 3 e ∧ claims e) ∧
        (role = 3 → d.rd (Reg.BCN_READY.at []) = 0 → becomes 4 e ∧ e.rd (Reg.BCN_ISOLATED.at []) = 1)))) ∧
    -- Takeover and READY
    (role = 3 → d.beacon.claim ≠ none → healthy → completes .twinTakeover s (fun e => becomes 4 e ∧ e.rd (Reg.BCN_READY.at []) = 0 ∧ raised 0x0511 8 0 [] d e ∧
      (∀ k < 2, if d.rd (Reg.OUT_MODE.at [k]) = 2 then e.rd (Reg.OUT_GL_STATE.at [k]) = d.rd (Reg.OUT_GL_STATE.at [k]) ∧ e.rd (Reg.OUT_FREQ_LOCK.at [k]) = d.rd (Reg.OUT_FREQ_LOCK.at [k])
        else e.rd (Reg.OUT_GL_STATE.at [k]) = 0 ∧ e.rd (Reg.OUT_FREQ_LOCK.at [k]) = 0) ∧
      regsBut (keysOf [Reg.BCN_ROLE.at [], Reg.BCN_READY.at [], Reg.OUT_GL_STATE.at [0], Reg.OUT_GL_STATE.at [1], Reg.OUT_FREQ_LOCK.at [0], Reg.OUT_FREQ_LOCK.at [1]] ++ eventKeys) d e)) ∧
    (¬ (role = 3 ∧ d.beacon.claim ≠ none ∧ healthy) → completes .twinTakeover s (fun e => e = d)) ∧
    (d.beacon.claim ≠ none → healthy → ¬ shown → d.rd (Reg.BCN_SPLIT.at []) = 0 → completes .twinSplit s (fun e => e.rd (Reg.BCN_SPLIT.at []) = 1 ∧ raised 0x0513 8 0 [] d e ∧
      regsBut ((Reg.BCN_SPLIT.at []).key :: eventKeys) d e)) ∧
    ((d.beacon.claim = none ∨ ¬ healthy ∨ shown ∨ d.rd (Reg.BCN_SPLIT.at []) ≠ 0) → completes .twinSplit s (fun e => e = d)) ∧
    (ready → completes .twinReady s (fun e => becomes 3 e ∧ e.rd (Reg.BCN_READY.at []) = 1 ∧ raised 0x0514 8 0 [] d e ∧ e.rd (Reg.SEC_TRYING.at []) = 0 ∧ e.bcnSent = d.bcnSent ++ [.keeper d.imageMsg] ∧
      (d.rd (Reg.SEC_TRYING.at []) ≠ 0 → e.flash = d.flash.putBoot (d.rd (Reg.SEC_SLOT.at [])) d.boot.staged.isSome 0))) ∧
    (¬ ready → completes .twinReady s (fun e => e = d)) ∧
    -- WAIT, the selection, handover
    ((role ≠ 1 ∨ ¬ healthy) → completes .startWaitExpiry s (fun e => e = d)) ∧
    (healthy → role = 1 → ¬ here → completes .startWaitExpiry s (fun e => becomes 4 e ∧ e.rd (Reg.BCN_ISOLATED.at []) = 1)) ∧
    (∀ x, healthy → role = 1 → here → last = some x →
      (paired → conflict x → d.rd (Reg.SEC_SERIAL_LO.at []) + d.rd (Reg.SEC_SERIAL_HI.at []) * 2 ^ 32 < x.serial → completes .startWaitExpiry s (fun e => becomes 4 e ∧ e.rd (Reg.BCN_ISOLATED.at []) = 1)) ∧
      (paired → conflict x → x.serial ≤ d.rd (Reg.SEC_SERIAL_LO.at []) + d.rd (Reg.SEC_SERIAL_HI.at []) * 2 ^ 32 → completes .startWaitExpiry s (fun e => e = d)) ∧
      (¬ (paired ∧ conflict x) → completes .startWaitExpiry s (fun e => e = d))) ∧
    (let sel := (if sel0 then [0] else []) ++ (if sel1 then [1] else [])
     (sel0 = decide (d.rd (Reg.BCN_SIDE.at []) ≠ 0) → completes (.twinSelChange sel0 sel1) s (fun e => e.selB = sel ∧ e.rd (Reg.BCN_SPLIT.at []) = 0 ∧ regsBut [(Reg.BCN_SPLIT.at []).key] d e ∧
       e.beacon = { d.beacon with claim := if role = 4 then none else d.beacon.claim })) ∧
     (sel0 ≠ decide (d.rd (Reg.BCN_SIDE.at []) ≠ 0) → completes (.twinSelChange sel0 sel1) s (fun e => e = { d with selB := sel }))) ∧
    (d.hostOpen = true →
      (role = 4 → twinReady → completes .handover s (fun e => e = { d with beacon := { d.beacon with marking := true } })) ∧
      (¬ (role = 4 ∧ twinReady) → completes .handover s (fun e => e = d))) ∧
    -- What the owner tells
    (p.val ≠ 0 → completes (.keeperMessageArrival p m) s (fun e => e = if d.portUsed p then d.linkFrame p else d)) ∧
    (∀ pairs, role ≠ 2 → role ≠ 3 → completes (.keeperMessageArrival 0 (.committed pairs)) s (fun e => e = d.linkFrame 0)) ∧
    (∀ pairs, (role = 2 ∨ role = 3) → completes (.keeperMessageArrival 0 (.committed pairs)) s (fun e => e.live = d.live ∧ e.mem = d.mem ∧
      (e.beacon = { d.beacon with ownerVals := some pairs, valsApplied := false } ∧ (∀ k < 3, (e.rd (Reg.TOP_ARMED.at [])).testBit k = true) ∨
       e.beacon = { d.beacon with ownerVals := none, valsApplied := false } ∧ (e.events.store.getLast?).map EventRec.code = some 0x0901))) ∧
    (∀ dig plan proto, completes (.keeperMessageArrival 0 (.image dig plan proto)) s (fun e => e.beacon.ownerImage = some (dig, plan, proto) ∧ e.mem = d.mem ∧ becomes role e)) ∧
    (∀ rate lanes fec dsc scrambled, (role = 2 ∨ role = 3) → completes (.keeperMessageArrival 0 (.link o rate lanes fec dsc scrambled)) s (fun e => holds e (Reg.OUT_LINK_RATE.at [o.val]) rate ∧ holds e (Reg.OUT_LINK_LANES.at [o.val]) lanes ∧
      e.rd (Reg.OUT_FEC_ACTIVE.at [o.val]) = (if fec then 1 else 0) ∧ e.rd (Reg.OUT_LINK_UP.at [o.val]) = 1 ∧
      e.out o = { d.out o with dsc := dsc, scrambled := scrambled } ∧
      regsBut (keysOf [Reg.OUT_LINK_RATE.at [o.val], Reg.OUT_LINK_LANES.at [o.val], Reg.OUT_FEC_ACTIVE.at [o.val], Reg.OUT_LINK_UP.at [o.val], Reg.BCNP_FEC_CORR.at [0], Reg.BCNP_RETRIES.at [0]]) d e)) ∧
    (∀ id t bs incs, d.selMine o = true → ∀ k ∈ [KeeperMsg.panel o id, .tile o t bs, .wear o incs], completes (.keeperMessageArrival 0 k) s (fun e => e = d.linkFrame 0))

/-- Ports of the Beacon link (R311, R327 to R338): a port goes down and comes up; frame tokens are sent, give edges, are passed on, and move the time base; seam slots are staged, dropped as stale, and written out in order with their credit returned; slot credits, relays by the twin, stalls, epoch
resets and slack. With log 103, 106, 157 and 181: the time base, ports not in use, and which binding takes a slot or a credit of port T. -/
def Obligations.BeaconPorts : Prop :=
  ∀ (s : State) (p : Fin 3) (q : Fin 16) (lanes : BitVec 4) (hop fe o : Nat) (tok : FrameToken) (slot : SeamSlot) (ann : Option (BitVec 8)), s.dev.held = false →
    let d := s.dev
    let up := d.rd (Reg.BCNP_UP.at [p.val])
    let ports := (List.range 3).filter (fun k => d.portUsed k = true ∧ d.rd (Reg.BCNP_UP.at [k]) ≠ 0)
    let others := ports.filter (fun k => k ≠ p.val)
    let sent (l : List BcnMsg) (e : Dev) : Prop := e.bcnSent = d.bcnSent ++ l
    let delay := d.rd (Reg.BCNP_HOP_DELAY_PS.at [p.val]) / 1000
    let edge := d.time + tok.leadNs - delay
    let gone := delay + Config.freeBits (d.free + 2) % 2 ^ 8
    let arrived := d.linkFrame p
    let linkKeys := keysOf [Reg.BCNP_FEC_CORR.at [p.val], Reg.BCNP_RETRIES.at [p.val]]
    let nextK := d.rd (Reg.BCNQ_NEXT_K.at [p.val, q.val])
    let size := d.rd (Reg.BCNQ_RX_SLOT_TXN.at [p.val, q.val])
    let su := 16 * d.rd (Reg.BCNQ_CLUSTER.at [p.val, q.val]) + d.rd (Reg.BCNQ_PROXY_SU.at [p.val, q.val])
    let cred := Reg.SU_RT_CRED.at (six su [d.rd (Reg.BCNQ_PROXY_RT.at [p.val, q.val])])
    let n := slot.txns.length
    let l := (d.plan.pipes.filter (fun r => !r.members.isEmpty && !r.analysis)).filterMap (fun r => (Tab.get none d.slackNow r.pipe).map (fun x => (r.pipe, x)))
    -- Links
    (up = 0 → completes (.bcnDown p) s (fun e => e = d)) ∧
    (up ≠ 0 → completes (.bcnDown p) s (fun e => e.rd (Reg.BCNP_UP.at [p.val]) = 0 ∧ e.rd (Reg.BCNP_LANES_OK.at [p.val]) = 0 ∧ raised 0x0502 3 p [] d e ∧
      regsBut (keysOf [Reg.BCNP_UP.at [p.val], Reg.BCNP_LANES_OK.at [p.val]] ++ eventKeys) d e)) ∧
    completes (.bcnRetrain p) s (fun e => e = d) ∧
    completes (.bcnUp p lanes hop) s (fun e => e.rd (Reg.BCNP_UP.at [p.val]) = 1 ∧ e.rd (Reg.BCNP_LANES_OK.at [p.val]) = lanes.toNat ∧ holds e (Reg.BCNP_HOP_DELAY_PS.at [p.val]) hop ∧
      raised 0x0501 3 p [] d e ∧ regsBut (keysOf [Reg.BCNP_UP.at [p.val], Reg.BCNP_LANES_OK.at [p.val], Reg.BCNP_HOP_DELAY_PS.at [p.val]] ++ eventKeys) d e) ∧
    (up = 0 → completes (.hopDelayMeasure p hop) s (fun e => e = d)) ∧
    (up ≠ 0 → completes (.hopDelayMeasure p hop) s (fun e => holds e (Reg.BCNP_HOP_DELAY_PS.at [p.val]) hop ∧ regsBut [(Reg.BCNP_HOP_DELAY_PS.at [p.val]).key] d e)) ∧
    -- Tokens
    ((d.pipePacer = none ∨ d.sendsTokens = false) → completes .tokenSend s (fun e => e = d)) ∧
    (d.pipePacer = some o → d.sendsTokens = true →
      (d.rd (Reg.OUT_RUNNING.at [o]) = 0 → completes .tokenSend s (fun e => e = d)) ∧
      (d.rd (Reg.OUT_RUNNING.at [o]) ≠ 0 → completes .tokenSend s (fun e => ∃ t : FrameToken, sent (ports.map (fun k => .token k t)) e ∧ e = { d with bcnSent := e.bcnSent } ∧ t.hops = 0 ∧
        t.leadNs = 1000 * d.rd (Reg.BCN_TOK_LEAD_US.at []) ∧ t.masterTime = (d.time + t.leadNs) % 2 ^ 64 ∧ t.frame = (d.rd (Reg.OUT_FRAME.at [o]) + 1) % 2 ^ 32))) ∧
    (d.portUsed p = false → ∀ i ∈ [Instr.tokenArrival p tok, .seamSlotArrival p q slot, .slotCredit p q ann, .seamEpochReset fe p], completes i s (fun e => e = d)) ∧
    (d.portUsed p = true → completes (.tokenArrival p tok) s (fun e => counted (Reg.BCNP_TOK_RX.at [p.val]) d e ∧ e.beacon.edges.getLast? = some (p.val, tok.frame, edge, tok.masterTime) ∧
      e.mem = d.mem ∧ e.time = d.time ∧
      (d.sendsTokens = true → e.bcnSent = d.bcnSent) ∧
      (d.sendsTokens = false → others ≠ [] → (tok.leadNs < gone + 1000 ∨ 64 < tok.hops + 1) → counted (Reg.BCNP_TOK_LATE.at [p.val]) d e ∧ e.bcnSent = d.bcnSent) ∧
      (d.sendsTokens = false → d.beacon.sick = false → ¬ (tok.leadNs < gone + 1000 ∨ 64 < tok.hops + 1) →
        sent (others.map (fun k => .token k { tok with leadNs := tok.leadNs - gone, hops := tok.hops + 1 })) e))) ∧
    (∀ (u : Fin 2) (phase periodNs f at_ master : Nat), d.referenced u = true → d.holdsOwn u = false → d.tokenPort u = some p.val → (d.out u).waitLock = false →
      (d.beacon.edges = [] → completes (.referenceEdge u phase periodNs) s (fun e => e = d)) ∧
      (d.beacon.edges = [(p.val, f, at_, master)] → f + 1 ≠ Tab.get 0 d.beacon.lastEdge u → u.val ∉ d.beacon.useAlt → roomForEvents d →
        let diff : Int := (master : Int) - at_
        completes (.referenceEdge u phase periodNs) s (fun e => e.rd (Reg.BCN_TB_OFFSET.at []) = ofSigned 32 diff ∧ holds e (Reg.OUT_GL_REF_PERIOD.at [u.val]) periodNs ∧ e.mem = d.mem ∧
          (diff.natAbs ≤ 100000 → e.time = d.time ∧ e.beacon.drift = diff) ∧ (d.beacon.stepped = true → e.time = d.time) ∧
          (100000 < diff.natAbs → d.beacon.stepped = false → e.time = ((d.time : Int) + diff).toNat % 2 ^ 64 ∧ ∃ r ∈ e.events.store, r.code = 0x0521)))) ∧
    -- Seam slots
    (p.val ≠ 0 → d.portUsed p = true → d.beacon.sick = false →
      (d.rd (Reg.BCNQ_RX_EN.at [p.val, q.val]) = 0 → completes (.seamSlotArrival p q slot) s (fun e => e = arrived)) ∧
      (d.rd (Reg.BCNQ_RX_EN.at [p.val, q.val]) ≠ 0 →
        ((slot.epoch ≠ d.rd (Reg.BCN_EPOCH.at []) ∨ slot.k < nextK) → completes (.seamSlotArrival p q slot) s (fun e => counted (Reg.BCNQ_STALE.at [p.val, q.val]) d e ∧ sent [.slotCredit p q] e ∧
          e.seamRx = d.seamRx ∧ e.mem = d.mem ∧ e.fabric = d.fabric)) ∧
        (slot.epoch = d.rd (Reg.BCN_EPOCH.at []) → nextK ≤ slot.k → d.rx p q = {} →
          (n < size → completes (.seamSlotArrival p q slot) s (fun e => e.rx p q = { slots := [slot] } ∧ e = { arrived with seamRx := e.seamRx })) ∧
          (size ≤ n → toSigned 32 (d.time % 2 ^ 32 + 2 ^ 32 - slot.deadline) ≤ 0 → d.rd (Reg.BCNQ_RELAY.at [p.val, q.val]) = 0 →
            (slot.k ≠ nextK → completes (.seamSlotArrival p q slot) s (fun e => e.rx p q = { slots := [slot] } ∧ e = { arrived with seamRx := e.seamRx })) ∧
            (slot.k = nextK → n ≤ d.rd cred → d.rd cred < 2 ^ 14 → su < 128 → d.rd (Reg.BCNQ_PROXY_RT.at [p.val, q.val]) < 8 → completes (.seamSlotArrival p q slot) s (fun e => e.rx p q = {} ∧
              counted (Reg.BCNQ_NEXT_K.at [p.val, q.val]) d e ∧ counted (Reg.BCNQ_SLOTS_RX.at [p.val, q.val]) d e ∧ e.rd cred = d.rd cred - n ∧ sent [.slotCredit p q] e ∧
              regsBut (keysOf [Reg.BCNQ_NEXT_K.at [p.val, q.val], Reg.BCNQ_SLOTS_RX.at [p.val, q.val], cred] ++ linkKeys) d e ∧ e.mem = d.mem)))))) ∧
    (d.portUsed p = true → d.beacon.sick = false → d.rd (Reg.BCNQ_TX_CRED.at [p.val, q.val]) < 256 →
      (∀ n, completes (.slotCredit p q (some n)) s (fun e => Tab.get 0 e.beacon.startCred (p.val * 16 + q.val) = n.toNat)) ∧
      ((p.val ≠ 0 ∨ (d.tx 0 q).relays = []) → completes (.slotCredit p q ann) s (fun e =>
        e.rd (Reg.BCNQ_TX_CRED.at [p.val, q.val]) = min (d.rd (Reg.BCNQ_TX_CRED.at [p.val, q.val]) + (ann.map BitVec.toNat).getD 1) 255 ∧
        regsBut ((Reg.BCNQ_TX_CRED.at [p.val, q.val]).key :: linkKeys) d e ∧ e.seamTx = d.seamTx ∧ (ann = none → e.beacon = d.beacon))) ∧
      (∀ x, p.val = 0 → (d.tx 0 q).relays = [x] → d.rd (Reg.BCNQ_TX_EN.at [0, q.val]) ≠ 0 → completes (.slotCredit p q none) s (fun e => sent [.slot 0 q x] e ∧ (e.tx 0 q).relays = [] ∧
        e.rd (Reg.BCNQ_TX_CRED.at [0, q.val]) = min (d.rd (Reg.BCNQ_TX_CRED.at [0, q.val]) + 1) 255 - 1))) ∧
    -- Slots by the twin's relay
    (let t := if p.val = 1 then q.val else 8 + q.val
     p.val ≠ 0 → d.portUsed p = true → d.beacon.sick = false → d.rd (Reg.BCNQ_RX_EN.at [p.val, q.val]) ≠ 0 → slot.epoch = d.rd (Reg.BCN_EPOCH.at []) → nextK < slot.k → d.rx p q = {} → size ≤ n →
       toSigned 32 (d.time % 2 ^ 32 + 2 ^ 32 - slot.deadline) ≤ 0 → d.rd (Reg.BCNQ_RELAY.at [p.val, q.val]) ≠ 0 → (d.tx 0 t).relays = [] →
       ((d.rd (Reg.BCNQ_TX_EN.at [0, t]) = 0 ∨ d.rd (Reg.BCNQ_TX_CRED.at [0, t]) = 0) → completes (.seamSlotArrival p q slot) s (fun e => (e.tx 0 t).relays = [slot] ∧ e.bcnSent = d.bcnSent ∧ e.rx p q = { slots := [slot] })) ∧
       (d.rd (Reg.BCNQ_TX_EN.at [0, t]) ≠ 0 → d.rd (Reg.BCNQ_TX_CRED.at [0, t]) ≠ 0 → d.rd (Reg.BCNQ_TX_CRED.at [0, t]) < 256 → t < 16 → completes (.seamSlotArrival p q slot) s (fun e =>
         sent [.slot 0 t slot] e ∧ e.rd (Reg.BCNQ_TX_CRED.at [0, t]) = d.rd (Reg.BCNQ_TX_CRED.at [0, t]) - 1 ∧ e.rx p q = { slots := [slot] }))) ∧
    (let k := if q.val < 8 then 1 else 2
     let j := q.val % 8
     let relayed := d.rd ((if q.val < 8 then Reg.BCN_E_RELAY else Reg.BCN_W_RELAY).at []) ≠ 0
     d.beacon.sick = false → p.val = 0 → d.rd (Reg.BCNQ_ALT_T.at [k, j]) ≠ 0 → d.rd (Reg.BCNQ_RX_EN.at [k, j]) ≠ 0 →
       (¬ relayed → d.rd (Reg.BCNQ_RX_EN.at [0, q.val]) = 0 → completes (.seamSlotArrival p q slot) s (fun e => sent [.slotCredit 0 q] e ∧ e = { arrived with bcnSent := e.bcnSent })) ∧
       (relayed → (slot.epoch ≠ d.rd (Reg.BCN_EPOCH.at []) ∨ slot.k < d.rd (Reg.BCNQ_NEXT_K.at [k, j])) → completes (.seamSlotArrival p q slot) s (fun e =>
         counted (Reg.BCNQ_STALE.at [k, j]) d e ∧ sent [.slotCredit 0 q] e ∧ e.seamRx = d.seamRx)) ∧
       (relayed → slot.epoch = d.rd (Reg.BCN_EPOCH.at []) → d.rd (Reg.BCNQ_NEXT_K.at [k, j]) ≤ slot.k → d.rx k j = {} → n < d.rd (Reg.BCNQ_RX_SLOT_TXN.at [k, j]) →
         completes (.seamSlotArrival p q slot) s (fun e => e.rx k j = { slots := [slot], viaT := [slot.k] } ∧ e = { arrived with seamRx := e.seamRx }))) ∧
    ((∀ k < 16, d.rd (Reg.BCNQ_TX_WAITING.at [p.val, k]) = 0 ∨ (d.tx p k).counted = true) → completes (.nbrStall p) s (fun e => e = d)) ∧
    (d.rd (Reg.BCNQ_TX_WAITING.at [p.val, q.val]) ≠ 0 → (d.tx p q).counted = false → (∀ k < q.val, d.rd (Reg.BCNQ_TX_WAITING.at [p.val, k]) = 0 ∨ (d.tx p k).counted = true) →
      completes (.nbrStall p) s (fun e => counted (Reg.BCNP_NBR_LATE.at [p.val]) d e ∧ e.tx p q = { d.tx p q with counted := true } ∧ (∀ k < 16, k ≠ q.val → e.tx p k = d.tx p k))) ∧
    (d.portUsed p = true → (∃ x, d.beacon.fe = some x ∧ fe ≤ x) → completes (.seamEpochReset fe p) s (fun e => e = arrived)) ∧
    (d.portUsed p = true → (d.beacon.fe = none ∨ ∃ x, d.beacon.fe = some x ∧ x < fe) → d.beacon.sick = false → completes (.seamEpochReset fe p) s (fun e =>
      e = { arrived with beacon := { d.beacon with fe := some fe }, bcnSent := d.bcnSent ++ others.map (fun k => .epoch k fe) })) ∧
    completes .slackMeasure s (fun e => e.slackNow = [] ∧ e.mem = d.mem ∧ (l = [] → e.slack = d.slack ∧ e.rd (Reg.BCN_OWN_MIN_SLACK.at []) = d.rd (Reg.BCN_OWN_MIN_SLACK.at [])) ∧
      (l ≠ [] → ∃ x ∈ l, (∀ y ∈ l, x.2 ≤ y.2) ∧ e.rd (Reg.BCN_OWN_MIN_SLACK.at []) = ofSigned 32 x.2 ∧
        (1 ∉ d.beacon.present → 2 ∉ d.beacon.present → e.rd (Reg.BCN_WALL_MIN_SLACK.at []) = ofSigned 32 (toSigned 32 (ofSigned 32 x.2)))))

/-! ### Power, temperature, wear and what is kept -/

/-- Power and temperature (R342 to R347, R352, R356 to R358, R459): a control period sets P_MEAS, enters its power in the history, at the cap where the period contains a commit of it, and sets every phase limit; rails are polled and their alerts reported; clocks switch once the rail has settled; ageing raises the voltage or lowers OP_MAX; sensors are read, and THM_LIMIT steps. With log 34, 40, 94 and 140: values the formulas leave open, and a cap outside its
range. -/
def Obligations.PowerAndTemperature : Prop :=
  ∀ (s : State) (pout : List (Option (BitVec 16))) (status : List (BitVec 16)) (low : Bool) (temps : List (Option Int)), s.dev.held = false →
    let d := s.dev
    let pw := d.power
    let rails := (List.range 8).filter (fun r => d.rd (Reg.PWR_RAIL_VALID.at [r]) ≠ 0)
    let comp := d.rd (Reg.PWR_AGE_COMP_MV.at []) + 5
    let valid (k : Nat) (q : Int) : Prop := k < 36 ∧ temps[k]? = some (some q) ∧ -200 ≤ q ∧ q ≤ 560
    let temp (x : Nat) : Int := toSigned 11 x
    let throttle := min 115 (d.rd (Reg.THM_THROTTLE_C.at []))
    let limit := d.rd (Reg.THM_LIMIT.at [])
    let period := max (d.rd (Reg.PWR_CTL_MS.at [])) 1
    let now := temp (d.rd (Reg.THM_MAX.at []))
    let steps (l : Nat) (e : Dev) : Prop := holds e (Reg.THM_LIMIT.at []) l ∧ regsBut ((Reg.THM_LIMIT.at []).key :: eventKeys) d e
    -- The cap
    (d.phases.length ≤ 16 → completes .controlPeriod s (fun e => e.power.sum = 0 ∧ e.power.polls = 0 ∧ e.power.frames = d.pipeCount ∧ e.mem = d.mem ∧
      (∀ p < d.phases.length, 1 ≤ e.rd (Reg.PWR_PHASE_LIMIT.at [p]) ∧ e.rd (Reg.PWR_PHASE_LIMIT.at [p]) ≤ 16) ∧ 2048 ≤ e.rd (Reg.PWR_K.at []) ∧ e.rd (Reg.PWR_K.at []) ≤ 8192 ∧
      (pw.polls = 0 → holds e (Reg.PWR_P_MEAS_MW.at []) (d.rd (Reg.PWR_P_MEAS_MW.at []))) ∧
      (pw.polls ≠ 0 → pw.sum % pw.polls = 0 → holds e (Reg.PWR_P_MEAS_MW.at []) (pw.sum / pw.polls)) ∧
      e.power.capNew = false ∧ (pw.capNew = true → e.power.hist.head? = some (period, 1000 * d.rd (Reg.PWR_CAP_W.at []))) ∧
      (pw.capNew = false → pw.polls ≠ 0 → pw.sum % pw.polls = 0 → e.power.hist.head? = some (period, pw.sum / pw.polls)))) ∧
    -- Rails
    completes (.pmbusPoll pout) s (fun e => e.power.polls = pw.polls + 1 ∧ e.mem = d.mem ∧
      (∀ r ∈ rails, ∀ w : BitVec 16, pout[r]? = some (some w) → Tab.get 0 e.power.railFails r = 0 ∧ (w.toNat < 1024 → Tab.get 0 e.power.railMw r = 1000 * w.toNat)) ∧
      (∀ r ∈ rails, (pout[r]? = none ∨ pout[r]? = some none) → Tab.get 0 e.power.railFails r = Tab.get 0 pw.railFails r + 1 ∧ Tab.get 0 e.power.railMw r = Tab.get 0 pw.railMw r) ∧
      (e.rd (Reg.PWR_PMBUS_OK.at []) = 1 ↔ ∀ r ∈ rails, Tab.get 0 e.power.railFails r < 3) ∧
      (∀ r, rails = [r] → (pout[r]? = none ∨ pout[r]? = some none) → 2 ≤ Tab.get 0 pw.railFails r → 0 < Tab.get 0 pw.railFj r →
        Tab.get 0 pw.railMw r * pw.pollFj % Tab.get 0 pw.railFj r = 0 → e.power.sum = pw.sum + Tab.get 0 pw.railMw r * pw.pollFj / Tab.get 0 pw.railFj r)) ∧
    ((∀ r ∈ rails, status[r]? = none ∨ status[r]? = some 0) → completes (.pmbAlert status) s (fun e => e = d)) ∧
    (∀ r w, rails = [r] → status[r]? = some w → w ≠ 0 → Tab.get 0 d.limits (0x0607 * 65536 + r) = 0 → completes (.pmbAlert status) s (fun e => raised 0x0607 6 (0x100 + r) [r, w.toNat] d e ∧ regsBut eventKeys d e)) ∧
    (pw.switching = [] → completes .vsettleDone s (fun e => e = d)) ∧
    (∀ n op, n < 8 → pw.switching = [(n, op)] → completes .vsettleDone s (fun e => holds e (Reg.CL_CLK_MHZ.at [n]) (d.rd (Reg.PWR_OP_MHZ.at [op])) ∧ Tab.get 0 e.power.ops n = op ∧ e.power.switching = [] ∧
      (Tab.get 0 pw.ops n ≠ op → raised 0x0605 4 n [n, op] d e) ∧ (Tab.get 0 pw.ops n = op → e.events = d.events) ∧ regsBut ((Reg.CL_CLK_MHZ.at [n]).key :: eventKeys) d e)) ∧
    (low = false → completes (.ageingEval low) s (fun e => e = d)) ∧
    (low = true → comp ≤ 40 → completes (.ageingEval low) s (fun e => e.rd (Reg.PWR_AGE_COMP_MV.at []) = comp ∧ raised 0x0620 8 0 [comp] d e ∧ e.power = { pw with due := true } ∧ e.healthDirty = true ∧
      regsBut ((Reg.PWR_AGE_COMP_MV.at []).key :: eventKeys) d e)) ∧
    (low = true → 40 < comp → completes (.ageingEval low) s (fun e => holds e (Reg.PWR_OP_MAX.at []) (d.rd (Reg.PWR_OP_MAX.at []) - 1) ∧ raised 0x0606 8 0 [] d e ∧ e.power = { pw with due := true } ∧ e.healthDirty = true ∧
      regsBut ((Reg.PWR_OP_MAX.at []).key :: eventKeys) d e)) ∧
    -- Temperature
    completes (.thmSample temps) s (fun e => e.mem = d.mem ∧
      (∀ k q, valid k q → e.rd (Reg.THM_SENSOR_TEMP.at [k]) = ofSigned 11 q ∧ e.rd (Reg.THM_SENSOR_VALID.at [k]) = 1 ∧ k ∉ e.power.badSensors) ∧
      (∀ k < 36, (∀ q, temps[k]? = some (some q) → e.rd (Reg.THM_SENSOR_TEMP.at [k]) = ofSigned 11 q) ∧
        ((temps[k]? = none ∨ temps[k]? = some none) → e.rd (Reg.THM_SENSOR_TEMP.at [k]) = d.rd (Reg.THM_SENSOR_TEMP.at [k]))) ∧
      (∀ k < 36, (∀ q, ¬ valid k q) → e.rd (Reg.THM_SENSOR_VALID.at [k]) = 0 ∧ k ∈ e.power.badSensors) ∧
      ((∀ k q, ¬ valid k q) → e.rd (Reg.THM_MAX.at []) = d.rd (Reg.THM_MAX.at []) ∧ e.rd (Reg.THM_PEAK.at []) = d.rd (Reg.THM_PEAK.at [])) ∧
      (∀ k q, valid k q → q ≤ temp (e.rd (Reg.THM_MAX.at [])) ∧ q ≤ temp (e.rd (Reg.THM_PEAK.at [])) ∧ ∃ j x, valid j x ∧ e.rd (Reg.THM_MAX.at []) = ofSigned 11 x)) ∧
    (4 * (throttle : Int) ≤ now →
      (limit ≤ 1 → completes .thmStep s (fun e => e = d)) ∧
      (1 < limit → completes .thmStep s (fun e => steps (limit - 1) e ∧ (limit = 16 → raised 0x0611 8 0 [] d e) ∧ (limit ≠ 16 → e.events = d.events)))) ∧
    (now < 4 * (throttle : Int) →
      ((4 * ((throttle : Int) - d.rd (Reg.THM_HYST_C.at [])) ≤ now ∨ 16 ≤ limit) → completes .thmStep s (fun e => e = d)) ∧
      (now < 4 * ((throttle : Int) - d.rd (Reg.THM_HYST_C.at [])) → limit < 16 → completes .thmStep s (fun e => steps (limit + 1) e ∧ (limit = 15 → raised 0x0612 8 0 [] d e) ∧ (limit ≠ 15 → e.events = d.events))))

/-- What Keeper keeps, and the wear ledger (R241, R366, R417, R435 to R442, R444): the last-good record goes to the next good slot, the health region and the event log follow; each second the counters fold into the ledger; gains are recomputed into the copy not in use; tiles are read, and a new one, or RESET_ZONES, sets its zones to 0. With log 34, 164, 166, 168, 169 and 189:
values the formulas leave open, a tile not in use, and what a failed write or read leaves. -/
def Obligations.WearAndPersistence : Prop :=
  ∀ (s : State) (ok : Bool) (o : Fin 2) (t : Fin 64) (b : Bytes) (mask : BitVec 2) (v : Word) (k : Nat), s.dev.held = false →
    let d := s.dev
    let fl := d.flash
    let w := d.wear
    let pending (e : Dev) : Nat := e.rd (Reg.TOP_LG_WRITE_PENDING.at [])
    let may := pending d ≠ 0 ∧ d.rd (Reg.SEC_FW_STATE.at []) ≠ 1 ∧ d.rd (Reg.SEC_FW_STATE.at []) ≠ 2 ∧ d.hostOpen = true
    let event (e : Dev) : Option Nat := (e.events.store.getLast?).map EventRec.code
    let next := (fl.newestIn.map (fun x => (x.1 + 1) % 64)).getD 0
    let reads (which : Nat → Prop) (e : Dev) : Prop := (∀ n < 128, n ∈ e.wear.reading ↔ n ∈ w.reading ∨ which (n / 64) ∧ d.selMine (n / 64) = true ∧ n % 64 ∈ d.tiles (n / 64)) ∧
      e = { d with wear := { w with reading := e.wear.reading } }
    let code := o.val * 64 + t.val
    let state (e : Dev) : Nat := e.rd (Reg.WEAR_TILE_STATE.at [o.val, t.val])
    let serial := leNat ((b.drop 8).take 8)
    let sound := leNat (b.take 4) = 0x54494C45 ∧ leNat ((b.drop 4).take 2) = 1 ∧ serial ≠ 0
    let crcOk := (crc32 (b.take 252)).toNat = leNat ((b.drop 252).take 4)
    let wiped (z : Nat → Prop) (o : Nat) (e : Dev) : Prop := (∀ n < 2304, z n → Tab.get 0 e.wear.ledger (o * 2304 + n) = 0) ∧ (∀ n < 2304, ¬ z n → Tab.get 0 e.wear.ledger (o * 2304 + n) = Tab.get 0 w.ledger (o * 2304 + n))
    -- What is kept
    (¬ may → completes (.lastGoodWrite ok) s (fun e => e = d)) ∧
    (may → (∀ n < 64, n ∈ d.boot.bad) → completes (.lastGoodWrite ok) s (fun e => raised 0x090A 8 0 [] d e ∧ e.flash = fl)) ∧
    (may → k < 64 → (next + k) % 64 ∉ d.boot.bad → (∀ j < k, (next + j) % 64 ∈ d.boot.bad) →
      (ok = true → completes (.lastGoodWrite ok) s (fun e => ∃ r : GoodRec, e.flash = { fl with records := Tab.put [] fl.records ((next + k) % 64) r.bytes } ∧ pending e = 0 ∧ holds e (Reg.TOP_LG_SEQ_LO.at []) r.seq ∧
        (fl.newest = none → r.seq = 1) ∧ (∀ x, fl.newest = some x → r.seq = x.seq + 1) ∧ r.plan = d.planNo ∧ r.ledger = w.ledger ∧ r.panels = [d.rd (Reg.WEAR_PANEL_ID.at [0]), d.rd (Reg.WEAR_PANEL_ID.at [1])] ∧
        e.events = d.events)) ∧
      (ok = false → completes (.lastGoodWrite ok) s (fun e => e.flash = { fl with records := Tab.erase fl.records ((next + k) % 64) } ∧ e.boot = { d.boot with bad := d.boot.bad ++ [(next + k) % 64] } ∧
        event e = some 0x090A ∧ pending e = pending d ∧ e.healthDirty = true))) ∧
    (d.healthDirty = false → completes .healthPersist s (fun e => e = d)) ∧
    (d.healthDirty = true → 64 ∈ d.boot.bad → 65 ∈ d.boot.bad → completes .healthPersist s (fun e => e = d)) ∧
    (∀ c < 2, d.healthDirty = true → 64 + c ∉ d.boot.bad → (64 + (1 - c) ∈ d.boot.bad ∨ fl.healthIn = none ∧ c = 0 ∨ ∃ r, fl.healthIn = some (1 - c, r)) →
      completes .healthPersist s (fun e => e.free = d.free + 1 ∧
        if Config.freeBits d.free % 2 = 1 then ∃ r : HealthRec, e = { d with free := d.free + 1, healthDirty := false, flash := { fl with health := Tab.put none fl.health c (some r) } } ∧
          r = { seq := fl.health?.seq + 1, repair := d.repair, retired := d.retired, ageComp := d.rd (Reg.PWR_AGE_COMP_MV.at []), opMax := d.rd (Reg.PWR_OP_MAX.at []), bad := d.boot.bad }
        else e.flash = { fl with health := Tab.put none fl.health c none } ∧ e.boot = { d.boot with bad := d.boot.bad ++ [64 + c] } ∧ event e = some 0x0750 ∧ e.healthDirty = true)) ∧
    completes .eventLogPersist s (fun e => e.events = { d.events with unsaved := [] } ∧ counted (Reg.TOP_EVT_PERSIST_DROPPED.at []) d e (d.events.unsaved.length - 256) ∧
      (let l := fl.log ++ d.events.unsaved.take 256
       e.flash = { fl with log := l.drop (l.length - 16384) }) ∧ regsBut [(Reg.TOP_EVT_PERSIST_DROPPED.at []).key] d e) ∧
    -- The ledger
    ((w.counters.map Prod.fst).Nodup → completes .ledgerFold s (fun e => (∀ n, Tab.get 0 e.wear.counters n = Tab.get 0 w.counters n % 1000000000) ∧ e.wear.wiped = [] ∧
      (∀ n < 4608, n ∉ w.wiped → 1000000000 ≤ Tab.get 0 w.counters n → Tab.get 0 e.wear.ledger n = (Tab.get 0 w.ledger n + Tab.get 0 w.counters n / 1000000000) % 2 ^ 48) ∧
      (∀ n < 4608, (n ∈ w.wiped ∨ Tab.get 0 w.counters n < 1000000000) → Tab.get 0 e.wear.ledger n = Tab.get 0 w.ledger n) ∧ e.mem = d.mem)) ∧
    (d.rd (Reg.WEAR_GAIN_COPY.at [0]) < 2 → d.rd (Reg.WEAR_GAIN_COPY.at [1]) < 2 → completes .wearGainUpdate s (fun e => pending e = 1 ∧ e.wear.ledger = w.ledger ∧ e.mem = d.mem ∧ ∀ u < 2, u ∈ e.wear.ready ∧
      e.rd (Reg.WEAR_GAIN_COPY.at [u]) = d.rd (Reg.WEAR_GAIN_COPY.at [u]) ∧ ∀ n < 2304,
        d.rd (Reg.WEAR_GAIN_FLOOR.at [u]) ≤ Tab.get 4096 e.wear.gains ((u * 2 + (1 - d.rd (Reg.WEAR_GAIN_COPY.at [u]))) * 4096 + n) ∧
        Tab.get 4096 e.wear.gains ((u * 2 + d.rd (Reg.WEAR_GAIN_COPY.at [u])) * 4096 + n) = Tab.get 4096 w.gains ((u * 2 + d.rd (Reg.WEAR_GAIN_COPY.at [u])) * 4096 + n))) ∧
    (let life (u n : Nat) : Nat := d.lifeOf u n * 3600 * 65536 * 2
     let spent (u n : Nat) : Nat := Tab.get 0 w.ledger (u * 2304 + n)
     let gain (u n : Nat) (e : Dev) : Nat := Tab.get 4096 e.wear.gains ((u * 2 + (1 - d.rd (Reg.WEAR_GAIN_COPY.at [u]))) * 4096 + n)
     ∀ u < 2, d.rd (Reg.WEAR_GAIN_COPY.at [u]) < 2 → (∀ n < 2304, life u n ≠ 0) →
       ((∀ n < 2304, spent u n = 0) → completes .wearGainUpdate s (fun e => ∀ n < 2304, gain u n e = max 4096 (d.rd (Reg.WEAR_GAIN_FLOOR.at [u])))) ∧
       (∀ m < 2304, life u m < spent u m → ∀ n < 2304, spent u n < life u n → 0 < d.rd (Reg.WEAR_GAIN_FLOOR.at [u]) →
         completes .wearGainUpdate s (fun e => gain u n e = d.rd (Reg.WEAR_GAIN_FLOOR.at [u]) ∧ e.rd (Reg.WEAR_FLOOR_HIT.at [u]) = 1))) ∧
    -- Tiles
    completes (.wearPoll o) s (reads (fun u => u = o.val ∧ d.rd (Reg.WEAR_POLL_S.at [u]) ≠ 0)) ∧
    (d.hostOpen = true → completes (.rescan mask) s (reads (fun u => mask.getLsbD u = true))) ∧
    (code ∉ w.reading → completes (.tileReadDone o t (some b)) s (fun e => e = d) ∧ completes (.tileReadDone o t none) s (fun e => e = d)) ∧
    (code ∈ w.reading →
      completes (.tileReadDone o t none) s (fun e => state e = 2 ∧ code ∉ e.wear.reading ∧ (d.beacon.sick = false → e.bcnSent = d.bcnSent ++ [.keeper (.tile o t none)]) ∧ e.wear.ledger = w.ledger ∧
        e.rd (Reg.WEAR_TILE_READ_FAILS.at [o.val, t.val]) = min (d.rd (Reg.WEAR_TILE_READ_FAILS.at [o.val, t.val]) + 1) 65535 ∧
        code ∈ e.wear.unread ∧ (code ∈ w.unread → e.events = d.events) ∧ (code ∉ w.unread → raised 0x0361 1 o [] d e)) ∧
      completes (.tileReadDone o t (some b)) s (fun e => state e = (if ¬ crcOk then 3 else if ¬ sound then 2 else 1) ∧ code ∉ e.wear.reading ∧
        (d.beacon.sick = false → e.bcnSent = d.bcnSent ++ [.keeper (.tile o t (some b))]) ∧
        (sound → crcOk → serial ≠ d.rd (Reg.WEAR_TILE_SERIAL_LO.at [o.val, t.val]) + d.rd (Reg.WEAR_TILE_SERIAL_HI.at [o.val, t.val]) * 2 ^ 32 →
          e.rd (Reg.WEAR_TILE_SERIAL_LO.at [o.val, t.val]) = serial % 2 ^ 32 ∧ e.rd (Reg.WEAR_TILE_SERIAL_HI.at [o.val, t.val]) = serial / 2 ^ 32 ∧ wiped (fun n => d.inTile o t n = true) o e ∧
          event e = some 0x0360 ∧ pending e = 1) ∧
        (¬ (sound ∧ crcOk ∧ serial ≠ d.rd (Reg.WEAR_TILE_SERIAL_LO.at [o.val, t.val]) + d.rd (Reg.WEAR_TILE_SERIAL_HI.at [o.val, t.val]) * 2 ^ 32) → e.wear.ledger = w.ledger))) ∧
    (d.hostOpen = true →
      (v.toNat.testBit 10 = false → completes (.resetZones v) s (reads (fun u => v.toNat.testBit u = true))) ∧
      (v.toNat.testBit 10 = true → completes (.resetZones v) s (fun e =>
        wiped (fun n => v.toNat.testBit 9 = true ∨ v.toNat / 4 % 64 ∈ d.tiles (v.toNat / 256 % 2) ∧ d.inTile (v.toNat / 256 % 2) (v.toNat / 4 % 64) n = true) (v.toNat / 256 % 2) e ∧ event e = some 0x0363 ∧ (∀ r, e.events.store.getLast? = some r → r.index = v.toNat / 256 % 2 ∧ r.arg0 = 0) ∧ pending e = 1 ∧ e.mem = d.mem)))

/-! ### Every command -/

/-- A step takes the command at the front of the queue and runs it with the rest of the queue; on an empty queue 1 ns of the time base passes, unless the block is held (log 1, R358). A time base that
has a difference to its master's to make up gains or loses 1 ns in 10,000 (R331, log 44); AUXP in INTERNAL mode may scan its rows meanwhile, which leaves memory alone (log 35). GPIO_IN is sampled
each microsecond (R458, log 48); a firmware package or a slot of flash that is being written may end its write then (log 188). -/
def Obligations.StepRunsFront : Prop :=
  ∀ (i : Instr) (rest : List Instr) (d : Dev),
    step { pending := i :: rest, dev := d } = exec i { pending := rest, dev := d } ∧
    (d.held = false → ∃ e, step { pending := [], dev := d } = .next { pending := [], dev := e } ∧ e.mem = d.mem ∧
      (let b := d.beacon
       let idles (x : Dev) : Prop := e.time = x.time ∧ e.beacon = x.beacon ∧ 
         ((d.rd (Reg.AUXP_RUNNING.at []) = 0 ∨ d.ax (Reg.AUXP_MODE.at []) ≠ 0) → d.boot.prog = none → d.rd (Reg.SEC_FW_STATE.at []) ≠ 1 →
           (x.time / 1000 = d.time / 1000 → e = x) ∧
           (x.time / 1000 ≠ d.time / 1000 → (∀ n < 16, (e.rd (Reg.TOP_GPIO_IN.at [])).testBit n = x.gpioPin n) ∧ regsBut [(Reg.TOP_GPIO_IN.at []).key] x e ∧ e = { x with regs := e.regs }))
       (b.drift = 0 → idles { d with time := (d.time + 1) % 2 ^ 64 }) ∧
       (b.drift ≠ 0 → b.driftNs < 9999 → idles { d with time := (d.time + 1) % 2 ^ 64, beacon := { b with driftNs := b.driftNs + 1 } }) ∧
       (0 < b.drift → 9999 ≤ b.driftNs → idles { d with time := (d.time + 2) % 2 ^ 64, beacon := { b with drift := b.drift - 1, driftNs := 0 } }) ∧
       (b.drift < 0 → 9999 ≤ b.driftNs → idles { d with beacon := { b with drift := b.drift + 1, driftNs := 0 } }))) ∧
    (d.held = true → step { pending := [], dev := d } = .next { pending := [], dev := d })

/-- A register is reset to the value its table gives (R7, R8, R414): in the state after reset every field in force and every shadow holds its reset value, memory is canonical and empty, and no command waits. Values the spec gives, at some places. The values that no rule gives are the model's choice
(log 12, 13): 0. -/
def Obligations.ResetValues : Prop :=
  let d := State.reset.dev
  (∀ f : Fld, d.rd f = f.reset ∧ d.rdS f = f.reset) ∧ State.reset.pending = [] ∧ Tab.wf 0 d.mem = true ∧ (∀ a, d.byte a = 0) ∧ d.held = false ∧ d.time = 0 ∧
  d.rd (Reg.SEC_BOOT_STATE.at []) = 0 ∧ d.rd (Reg.THM_LIMIT.at []) = 16 ∧ d.rd (Reg.PWR_K.at []) = 4096 ∧ d.rd (Reg.PWR_OP_MAX.at []) = 7 ∧ (∀ n < 8, d.rd (Reg.CL_SPARE_FOR.at [n]) = 15) ∧
  (∀ c < 72, d.rd (Reg.MC_STATE.at (cix c)) = 0) ∧ (∀ v < 64, d.rd (Reg.HST_MSIX_MASK.at [v]) = 1) ∧ (∀ p < 16, d.rd (Reg.PWR_PHASE_LIMIT.at [p]) = 16)

/-- Every register is 32 bits wide and sits at a 4-byte-aligned BAR0 offset (R7): of every field of the register map, at every index, the register's offset is a multiple of 4 inside the 64 MiB of BAR0, and its bits lie in the 32 of that register. -/
def Obligations.RegistersAreAligned : Prop :=
  ∀ r ∈ regMap, ∀ idx : List Nat, idx.length = r.dims.length → (∀ x ∈ List.zip r.dims idx, x.2 < x.1.count) →
    r.addr idx % 4 = 0 ∧ r.addr idx < 2 ^ 26 ∧ r.lowBit idx + r.width ≤ 32

/-- Every well-formed command completes from every state, and never touches the queue; one that is not well formed ends in the fault illFormed. So a queue of well-formed commands never stops a run: each step takes one. That a command whose event the state does not allow changes nothing, that an open value is a free value, and the
fault illFormed are the model's choices (log 3, 4, 8). -/
def Obligations.EveryCommandCompletes : Prop :=
  (∀ (i : Instr) (s : State), i.wf = true → completes i s (fun _ => True)) ∧
  (∀ (i : Instr) (s : State), i.wf = false → exec i s = .fault .illFormed) ∧
  (∀ s : State, (∀ i ∈ s.pending, i.wf = true) → ∃ t, step s = .next t ∧ t.pending = s.pending.drop 1 ∧ ∀ i ∈ t.pending, i.wf = true)

/-- A trip stands until a reset (R358): while the device is tripped no command but a power-on or system reset, an undervoltage, a change of TEST_EN, a second trip or the clock of the test access port changes it, the time base included; and after every step but those of the two resets and the undervoltage it is tripped still. -/
def Obligations.TrippedStands : Prop :=
  ∀ (s t : State), s.dev.power.tripped = true → step s = .next t →
    ((∀ i, s.pending.head? = some i → (match i with
      | .powerOnReset _ => False
      | .systemReset _ => False
      | .supplyUndervoltage _ _ => False
      | .testEnChange _ => False
      | .thermalTrip => False
      | .jtagTck _ _ _ _ _ => False
      | _ => True)) → t.dev = s.dev) ∧
    ((∀ i, s.pending.head? = some i → (match i with
      | .powerOnReset _ => False
      | .systemReset _ => False
      | .supplyUndervoltage _ _ => False
      | _ => True)) → t.dev.power.tripped = true)
end

