-- ==== Sys2Proof/Laws/State.lean ====
section
/-! SUPPORT. Which part of the device each operation leaves alone: one lemma per field and operation, true by rfl. -/

namespace Sys2Proof.Machine

section
variable (d : Dev) (f : Fld) (v : Nat)
@[simp] theorem Dev.wr_time : (d.wr f v).time = d.time := rfl
@[simp] theorem Dev.wr_free : (d.wr f v).free = d.free := rfl
@[simp] theorem Dev.wr_shadow : (d.wr f v).shadow = d.shadow := rfl
@[simp] theorem Dev.wr_mem : (d.wr f v).mem = d.mem := rfl
@[simp] theorem Dev.wr_ecc : (d.wr f v).ecc = d.ecc := rfl
@[simp] theorem Dev.wr_cores : (d.wr f v).cores = d.cores := rfl
@[simp] theorem Dev.wr_fabric : (d.wr f v).fabric = d.fabric := rfl
@[simp] theorem Dev.wr_mcReturned : (d.wr f v).mcReturned = d.mcReturned := rfl
@[simp] theorem Dev.wr_sus : (d.wr f v).sus = d.sus := rfl
@[simp] theorem Dev.wr_wcs : (d.wr f v).wcs = d.wcs := rfl
@[simp] theorem Dev.wr_cache : (d.wr f v).cache = d.cache := rfl
@[simp] theorem Dev.wr_scEventAt : (d.wr f v).scEventAt = d.scEventAt := rfl
@[simp] theorem Dev.wr_ddr : (d.wr f v).ddr = d.ddr := rfl
@[simp] theorem Dev.wr_hostMem : (d.wr f v).hostMem = d.hostMem := rfl
@[simp] theorem Dev.wr_bes : (d.wr f v).bes = d.bes := rfl
@[simp] theorem Dev.wr_lostBes : (d.wr f v).lostBes = d.lostBes := rfl
@[simp] theorem Dev.wr_retired : (d.wr f v).retired = d.retired := rfl
@[simp] theorem Dev.wr_healthDirty : (d.wr f v).healthDirty = d.healthDirty := rfl
@[simp] theorem Dev.wr_rings : (d.wr f v).rings = d.rings := rfl
@[simp] theorem Dev.wr_ringSent : (d.wr f v).ringSent = d.ringSent := rfl
@[simp] theorem Dev.wr_beCredits : (d.wr f v).beCredits = d.beCredits := rfl
@[simp] theorem Dev.wr_latched : (d.wr f v).latched = d.latched := rfl
@[simp] theorem Dev.wr_reinitMarked : (d.wr f v).reinitMarked = d.reinitMarked := rfl
@[simp] theorem Dev.wr_reinitRunning : (d.wr f v).reinitRunning = d.reinitRunning := rfl
@[simp] theorem Dev.wr_reinitQuiet : (d.wr f v).reinitQuiet = d.reinitQuiet := rfl
@[simp] theorem Dev.wr_reinitFrame : (d.wr f v).reinitFrame = d.reinitFrame := rfl
@[simp] theorem Dev.wr_planSwitchWanted : (d.wr f v).planSwitchWanted = d.planSwitchWanted := rfl
@[simp] theorem Dev.wr_unclosed : (d.wr f v).unclosed = d.unclosed := rfl
@[simp] theorem Dev.wr_lostCores : (d.wr f v).lostCores = d.lostCores := rfl
@[simp] theorem Dev.wr_events : (d.wr f v).events = d.events := rfl
@[simp] theorem Dev.wr_limits : (d.wr f v).limits = d.limits := rfl
@[simp] theorem Dev.wr_plan : (d.wr f v).plan = d.plan := rfl
@[simp] theorem Dev.wr_tables : (d.wr f v).tables = d.tables := rfl
@[simp] theorem Dev.wr_adopt : (d.wr f v).adopt = d.adopt := rfl
@[simp] theorem Dev.wr_pipes : (d.wr f v).pipes = d.pipes := rfl
@[simp] theorem Dev.wr_guardKept : (d.wr f v).guardKept = d.guardKept := rfl
@[simp] theorem Dev.wr_launchQ : (d.wr f v).launchQ = d.launchQ := rfl
@[simp] theorem Dev.wr_seqRun : (d.wr f v).seqRun = d.seqRun := rfl
@[simp] theorem Dev.wr_streams : (d.wr f v).streams = d.streams := rfl
@[simp] theorem Dev.wr_stopped : (d.wr f v).stopped = d.stopped := rfl
@[simp] theorem Dev.wr_streamLatch : (d.wr f v).streamLatch = d.streamLatch := rfl
@[simp] theorem Dev.wr_layers : (d.wr f v).layers = d.layers := rfl
@[simp] theorem Dev.wr_outs : (d.wr f v).outs = d.outs := rfl
@[simp] theorem Dev.wr_lantern : (d.wr f v).lantern = d.lantern := rfl
@[simp] theorem Dev.wr_auxp : (d.wr f v).auxp = d.auxp := rfl
@[simp] theorem Dev.wr_corrRows : (d.wr f v).corrRows = d.corrRows := rfl
@[simp] theorem Dev.wr_repair : (d.wr f v).repair = d.repair := rfl
@[simp] theorem Dev.wr_hoursBase : (d.wr f v).hoursBase = d.hoursBase := rfl
@[simp] theorem Dev.wr_padDed : (d.wr f v).padDed = d.padDed := rfl
@[simp] theorem Dev.wr_wear : (d.wr f v).wear = d.wear := rfl
@[simp] theorem Dev.wr_selB : (d.wr f v).selB = d.selB := rfl
@[simp] theorem Dev.wr_bcnSent : (d.wr f v).bcnSent = d.bcnSent := rfl
@[simp] theorem Dev.wr_seamTx : (d.wr f v).seamTx = d.seamTx := rfl
@[simp] theorem Dev.wr_seamRx : (d.wr f v).seamRx = d.seamRx := rfl
@[simp] theorem Dev.wr_beacon : (d.wr f v).beacon = d.beacon := rfl
@[simp] theorem Dev.wr_inst : (d.wr f v).inst = d.inst := rfl
@[simp] theorem Dev.wr_cut : (d.wr f v).cut = d.cut := rfl
@[simp] theorem Dev.wr_image : (d.wr f v).image = d.image := rfl
@[simp] theorem Dev.wr_planNo : (d.wr f v).planNo = d.planNo := rfl
@[simp] theorem Dev.wr_spareJobs : (d.wr f v).spareJobs = d.spareJobs := rfl
@[simp] theorem Dev.wr_spareAt : (d.wr f v).spareAt = d.spareAt := rfl
@[simp] theorem Dev.wr_spareFaults : (d.wr f v).spareFaults = d.spareFaults := rfl
@[simp] theorem Dev.wr_parkedKeep : (d.wr f v).parkedKeep = d.parkedKeep := rfl
@[simp] theorem Dev.wr_power : (d.wr f v).power = d.power := rfl
@[simp] theorem Dev.wr_flash : (d.wr f v).flash = d.flash := rfl
@[simp] theorem Dev.wr_mail : (d.wr f v).mail = d.mail := rfl
@[simp] theorem Dev.wr_jtag : (d.wr f v).jtag = d.jtag := rfl
@[simp] theorem Dev.wr_host : (d.wr f v).host = d.host := rfl
@[simp] theorem Dev.wr_boot : (d.wr f v).boot = d.boot := rfl
@[simp] theorem Dev.wr_analysis : (d.wr f v).analysis = d.analysis := rfl
@[simp] theorem Dev.wr_phases : (d.wr f v).phases = d.phases := rfl
@[simp] theorem Dev.wr_slack : (d.wr f v).slack = d.slack := rfl
@[simp] theorem Dev.wr_slackNow : (d.wr f v).slackNow = d.slackNow := rfl
@[simp] theorem Dev.wr_pipeFrame : (d.wr f v).pipeFrame = d.pipeFrame := rfl
@[simp] theorem Dev.wr_pipeCount : (d.wr f v).pipeCount = d.pipeCount := rfl
@[simp] theorem Dev.wr_lateTold : (d.wr f v).lateTold = d.lateTold := rfl
@[simp] theorem Dev.wr_dedAt : (d.wr f v).dedAt = d.dedAt := rfl
@[simp] theorem Dev.wr_enhDue : (d.wr f v).enhDue = d.enhDue := rfl
end

section
variable (d : Dev) (b : Bool) (f : Fld) (v : Nat)
@[simp] theorem Dev.wrIf_time : (d.wrIf b f v).time = d.time := rfl
@[simp] theorem Dev.wrIf_free : (d.wrIf b f v).free = d.free := rfl
@[simp] theorem Dev.wrIf_shadow : (d.wrIf b f v).shadow = d.shadow := rfl
@[simp] theorem Dev.wrIf_mem : (d.wrIf b f v).mem = d.mem := rfl
@[simp] theorem Dev.wrIf_ecc : (d.wrIf b f v).ecc = d.ecc := rfl
@[simp] theorem Dev.wrIf_cores : (d.wrIf b f v).cores = d.cores := rfl
@[simp] theorem Dev.wrIf_fabric : (d.wrIf b f v).fabric = d.fabric := rfl
@[simp] theorem Dev.wrIf_mcReturned : (d.wrIf b f v).mcReturned = d.mcReturned := rfl
@[simp] theorem Dev.wrIf_sus : (d.wrIf b f v).sus = d.sus := rfl
@[simp] theorem Dev.wrIf_wcs : (d.wrIf b f v).wcs = d.wcs := rfl
@[simp] theorem Dev.wrIf_cache : (d.wrIf b f v).cache = d.cache := rfl
@[simp] theorem Dev.wrIf_scEventAt : (d.wrIf b f v).scEventAt = d.scEventAt := rfl
@[simp] theorem Dev.wrIf_ddr : (d.wrIf b f v).ddr = d.ddr := rfl
@[simp] theorem Dev.wrIf_hostMem : (d.wrIf b f v).hostMem = d.hostMem := rfl
@[simp] theorem Dev.wrIf_bes : (d.wrIf b f v).bes = d.bes := rfl
@[simp] theorem Dev.wrIf_lostBes : (d.wrIf b f v).lostBes = d.lostBes := rfl
@[simp] theorem Dev.wrIf_retired : (d.wrIf b f v).retired = d.retired := rfl
@[simp] theorem Dev.wrIf_healthDirty : (d.wrIf b f v).healthDirty = d.healthDirty := rfl
@[simp] theorem Dev.wrIf_rings : (d.wrIf b f v).rings = d.rings := rfl
@[simp] theorem Dev.wrIf_ringSent : (d.wrIf b f v).ringSent = d.ringSent := rfl
@[simp] theorem Dev.wrIf_beCredits : (d.wrIf b f v).beCredits = d.beCredits := rfl
@[simp] theorem Dev.wrIf_latched : (d.wrIf b f v).latched = d.latched := rfl
@[simp] theorem Dev.wrIf_reinitMarked : (d.wrIf b f v).reinitMarked = d.reinitMarked := rfl
@[simp] theorem Dev.wrIf_reinitRunning : (d.wrIf b f v).reinitRunning = d.reinitRunning := rfl
@[simp] theorem Dev.wrIf_reinitQuiet : (d.wrIf b f v).reinitQuiet = d.reinitQuiet := rfl
@[simp] theorem Dev.wrIf_reinitFrame : (d.wrIf b f v).reinitFrame = d.reinitFrame := rfl
@[simp] theorem Dev.wrIf_planSwitchWanted : (d.wrIf b f v).planSwitchWanted = d.planSwitchWanted := rfl
@[simp] theorem Dev.wrIf_unclosed : (d.wrIf b f v).unclosed = d.unclosed := rfl
@[simp] theorem Dev.wrIf_lostCores : (d.wrIf b f v).lostCores = d.lostCores := rfl
@[simp] theorem Dev.wrIf_events : (d.wrIf b f v).events = d.events := rfl
@[simp] theorem Dev.wrIf_limits : (d.wrIf b f v).limits = d.limits := rfl
@[simp] theorem Dev.wrIf_plan : (d.wrIf b f v).plan = d.plan := rfl
@[simp] theorem Dev.wrIf_tables : (d.wrIf b f v).tables = d.tables := rfl
@[simp] theorem Dev.wrIf_adopt : (d.wrIf b f v).adopt = d.adopt := rfl
@[simp] theorem Dev.wrIf_pipes : (d.wrIf b f v).pipes = d.pipes := rfl
@[simp] theorem Dev.wrIf_guardKept : (d.wrIf b f v).guardKept = d.guardKept := rfl
@[simp] theorem Dev.wrIf_launchQ : (d.wrIf b f v).launchQ = d.launchQ := rfl
@[simp] theorem Dev.wrIf_seqRun : (d.wrIf b f v).seqRun = d.seqRun := rfl
@[simp] theorem Dev.wrIf_streams : (d.wrIf b f v).streams = d.streams := rfl
@[simp] theorem Dev.wrIf_stopped : (d.wrIf b f v).stopped = d.stopped := rfl
@[simp] theorem Dev.wrIf_streamLatch : (d.wrIf b f v).streamLatch = d.streamLatch := rfl
@[simp] theorem Dev.wrIf_layers : (d.wrIf b f v).layers = d.layers := rfl
@[simp] theorem Dev.wrIf_outs : (d.wrIf b f v).outs = d.outs := rfl
@[simp] theorem Dev.wrIf_lantern : (d.wrIf b f v).lantern = d.lantern := rfl
@[simp] theorem Dev.wrIf_auxp : (d.wrIf b f v).auxp = d.auxp := rfl
@[simp] theorem Dev.wrIf_corrRows : (d.wrIf b f v).corrRows = d.corrRows := rfl
@[simp] theorem Dev.wrIf_repair : (d.wrIf b f v).repair = d.repair := rfl
@[simp] theorem Dev.wrIf_hoursBase : (d.wrIf b f v).hoursBase = d.hoursBase := rfl
@[simp] theorem Dev.wrIf_padDed : (d.wrIf b f v).padDed = d.padDed := rfl
@[simp] theorem Dev.wrIf_wear : (d.wrIf b f v).wear = d.wear := rfl
@[simp] theorem Dev.wrIf_selB : (d.wrIf b f v).selB = d.selB := rfl
@[simp] theorem Dev.wrIf_bcnSent : (d.wrIf b f v).bcnSent = d.bcnSent := rfl
@[simp] theorem Dev.wrIf_seamTx : (d.wrIf b f v).seamTx = d.seamTx := rfl
@[simp] theorem Dev.wrIf_seamRx : (d.wrIf b f v).seamRx = d.seamRx := rfl
@[simp] theorem Dev.wrIf_beacon : (d.wrIf b f v).beacon = d.beacon := rfl
@[simp] theorem Dev.wrIf_inst : (d.wrIf b f v).inst = d.inst := rfl
@[simp] theorem Dev.wrIf_cut : (d.wrIf b f v).cut = d.cut := rfl
@[simp] theorem Dev.wrIf_image : (d.wrIf b f v).image = d.image := rfl
@[simp] theorem Dev.wrIf_planNo : (d.wrIf b f v).planNo = d.planNo := rfl
@[simp] theorem Dev.wrIf_spareJobs : (d.wrIf b f v).spareJobs = d.spareJobs := rfl
@[simp] theorem Dev.wrIf_spareAt : (d.wrIf b f v).spareAt = d.spareAt := rfl
@[simp] theorem Dev.wrIf_spareFaults : (d.wrIf b f v).spareFaults = d.spareFaults := rfl
@[simp] theorem Dev.wrIf_parkedKeep : (d.wrIf b f v).parkedKeep = d.parkedKeep := rfl
@[simp] theorem Dev.wrIf_power : (d.wrIf b f v).power = d.power := rfl
@[simp] theorem Dev.wrIf_flash : (d.wrIf b f v).flash = d.flash := rfl
@[simp] theorem Dev.wrIf_mail : (d.wrIf b f v).mail = d.mail := rfl
@[simp] theorem Dev.wrIf_jtag : (d.wrIf b f v).jtag = d.jtag := rfl
@[simp] theorem Dev.wrIf_host : (d.wrIf b f v).host = d.host := rfl
@[simp] theorem Dev.wrIf_boot : (d.wrIf b f v).boot = d.boot := rfl
@[simp] theorem Dev.wrIf_analysis : (d.wrIf b f v).analysis = d.analysis := rfl
@[simp] theorem Dev.wrIf_phases : (d.wrIf b f v).phases = d.phases := rfl
@[simp] theorem Dev.wrIf_slack : (d.wrIf b f v).slack = d.slack := rfl
@[simp] theorem Dev.wrIf_slackNow : (d.wrIf b f v).slackNow = d.slackNow := rfl
@[simp] theorem Dev.wrIf_pipeFrame : (d.wrIf b f v).pipeFrame = d.pipeFrame := rfl
@[simp] theorem Dev.wrIf_pipeCount : (d.wrIf b f v).pipeCount = d.pipeCount := rfl
@[simp] theorem Dev.wrIf_lateTold : (d.wrIf b f v).lateTold = d.lateTold := rfl
@[simp] theorem Dev.wrIf_dedAt : (d.wrIf b f v).dedAt = d.dedAt := rfl
@[simp] theorem Dev.wrIf_enhDue : (d.wrIf b f v).enhDue = d.enhDue := rfl
end

section
variable (d : Dev) (f : Fld) (v : Nat)
@[simp] theorem Dev.wrS_time : (d.wrS f v).time = d.time := rfl
@[simp] theorem Dev.wrS_free : (d.wrS f v).free = d.free := rfl
@[simp] theorem Dev.wrS_live : (d.wrS f v).live = d.live := rfl
@[simp] theorem Dev.wrS_mem : (d.wrS f v).mem = d.mem := rfl
@[simp] theorem Dev.wrS_ecc : (d.wrS f v).ecc = d.ecc := rfl
@[simp] theorem Dev.wrS_cores : (d.wrS f v).cores = d.cores := rfl
@[simp] theorem Dev.wrS_fabric : (d.wrS f v).fabric = d.fabric := rfl
@[simp] theorem Dev.wrS_mcReturned : (d.wrS f v).mcReturned = d.mcReturned := rfl
@[simp] theorem Dev.wrS_sus : (d.wrS f v).sus = d.sus := rfl
@[simp] theorem Dev.wrS_wcs : (d.wrS f v).wcs = d.wcs := rfl
@[simp] theorem Dev.wrS_cache : (d.wrS f v).cache = d.cache := rfl
@[simp] theorem Dev.wrS_scEventAt : (d.wrS f v).scEventAt = d.scEventAt := rfl
@[simp] theorem Dev.wrS_ddr : (d.wrS f v).ddr = d.ddr := rfl
@[simp] theorem Dev.wrS_hostMem : (d.wrS f v).hostMem = d.hostMem := rfl
@[simp] theorem Dev.wrS_bes : (d.wrS f v).bes = d.bes := rfl
@[simp] theorem Dev.wrS_lostBes : (d.wrS f v).lostBes = d.lostBes := rfl
@[simp] theorem Dev.wrS_retired : (d.wrS f v).retired = d.retired := rfl
@[simp] theorem Dev.wrS_healthDirty : (d.wrS f v).healthDirty = d.healthDirty := rfl
@[simp] theorem Dev.wrS_rings : (d.wrS f v).rings = d.rings := rfl
@[simp] theorem Dev.wrS_ringSent : (d.wrS f v).ringSent = d.ringSent := rfl
@[simp] theorem Dev.wrS_beCredits : (d.wrS f v).beCredits = d.beCredits := rfl
@[simp] theorem Dev.wrS_latched : (d.wrS f v).latched = d.latched := rfl
@[simp] theorem Dev.wrS_reinitMarked : (d.wrS f v).reinitMarked = d.reinitMarked := rfl
@[simp] theorem Dev.wrS_reinitRunning : (d.wrS f v).reinitRunning = d.reinitRunning := rfl
@[simp] theorem Dev.wrS_reinitQuiet : (d.wrS f v).reinitQuiet = d.reinitQuiet := rfl
@[simp] theorem Dev.wrS_reinitFrame : (d.wrS f v).reinitFrame = d.reinitFrame := rfl
@[simp] theorem Dev.wrS_planSwitchWanted : (d.wrS f v).planSwitchWanted = d.planSwitchWanted := rfl
@[simp] theorem Dev.wrS_unclosed : (d.wrS f v).unclosed = d.unclosed := rfl
@[simp] theorem Dev.wrS_lostCores : (d.wrS f v).lostCores = d.lostCores := rfl
@[simp] theorem Dev.wrS_events : (d.wrS f v).events = d.events := rfl
@[simp] theorem Dev.wrS_limits : (d.wrS f v).limits = d.limits := rfl
@[simp] theorem Dev.wrS_plan : (d.wrS f v).plan = d.plan := rfl
@[simp] theorem Dev.wrS_tables : (d.wrS f v).tables = d.tables := rfl
@[simp] theorem Dev.wrS_adopt : (d.wrS f v).adopt = d.adopt := rfl
@[simp] theorem Dev.wrS_pipes : (d.wrS f v).pipes = d.pipes := rfl
@[simp] theorem Dev.wrS_guardKept : (d.wrS f v).guardKept = d.guardKept := rfl
@[simp] theorem Dev.wrS_launchQ : (d.wrS f v).launchQ = d.launchQ := rfl
@[simp] theorem Dev.wrS_seqRun : (d.wrS f v).seqRun = d.seqRun := rfl
@[simp] theorem Dev.wrS_streams : (d.wrS f v).streams = d.streams := rfl
@[simp] theorem Dev.wrS_stopped : (d.wrS f v).stopped = d.stopped := rfl
@[simp] theorem Dev.wrS_streamLatch : (d.wrS f v).streamLatch = d.streamLatch := rfl
@[simp] theorem Dev.wrS_layers : (d.wrS f v).layers = d.layers := rfl
@[simp] theorem Dev.wrS_outs : (d.wrS f v).outs = d.outs := rfl
@[simp] theorem Dev.wrS_lantern : (d.wrS f v).lantern = d.lantern := rfl
@[simp] theorem Dev.wrS_auxp : (d.wrS f v).auxp = d.auxp := rfl
@[simp] theorem Dev.wrS_corrRows : (d.wrS f v).corrRows = d.corrRows := rfl
@[simp] theorem Dev.wrS_repair : (d.wrS f v).repair = d.repair := rfl
@[simp] theorem Dev.wrS_hoursBase : (d.wrS f v).hoursBase = d.hoursBase := rfl
@[simp] theorem Dev.wrS_padDed : (d.wrS f v).padDed = d.padDed := rfl
@[simp] theorem Dev.wrS_wear : (d.wrS f v).wear = d.wear := rfl
@[simp] theorem Dev.wrS_selB : (d.wrS f v).selB = d.selB := rfl
@[simp] theorem Dev.wrS_bcnSent : (d.wrS f v).bcnSent = d.bcnSent := rfl
@[simp] theorem Dev.wrS_seamTx : (d.wrS f v).seamTx = d.seamTx := rfl
@[simp] theorem Dev.wrS_seamRx : (d.wrS f v).seamRx = d.seamRx := rfl
@[simp] theorem Dev.wrS_beacon : (d.wrS f v).beacon = d.beacon := rfl
@[simp] theorem Dev.wrS_inst : (d.wrS f v).inst = d.inst := rfl
@[simp] theorem Dev.wrS_cut : (d.wrS f v).cut = d.cut := rfl
@[simp] theorem Dev.wrS_image : (d.wrS f v).image = d.image := rfl
@[simp] theorem Dev.wrS_planNo : (d.wrS f v).planNo = d.planNo := rfl
@[simp] theorem Dev.wrS_spareJobs : (d.wrS f v).spareJobs = d.spareJobs := rfl
@[simp] theorem Dev.wrS_spareAt : (d.wrS f v).spareAt = d.spareAt := rfl
@[simp] theorem Dev.wrS_spareFaults : (d.wrS f v).spareFaults = d.spareFaults := rfl
@[simp] theorem Dev.wrS_parkedKeep : (d.wrS f v).parkedKeep = d.parkedKeep := rfl
@[simp] theorem Dev.wrS_power : (d.wrS f v).power = d.power := rfl
@[simp] theorem Dev.wrS_flash : (d.wrS f v).flash = d.flash := rfl
@[simp] theorem Dev.wrS_mail : (d.wrS f v).mail = d.mail := rfl
@[simp] theorem Dev.wrS_jtag : (d.wrS f v).jtag = d.jtag := rfl
@[simp] theorem Dev.wrS_host : (d.wrS f v).host = d.host := rfl
@[simp] theorem Dev.wrS_boot : (d.wrS f v).boot = d.boot := rfl
@[simp] theorem Dev.wrS_analysis : (d.wrS f v).analysis = d.analysis := rfl
@[simp] theorem Dev.wrS_phases : (d.wrS f v).phases = d.phases := rfl
@[simp] theorem Dev.wrS_slack : (d.wrS f v).slack = d.slack := rfl
@[simp] theorem Dev.wrS_slackNow : (d.wrS f v).slackNow = d.slackNow := rfl
@[simp] theorem Dev.wrS_pipeFrame : (d.wrS f v).pipeFrame = d.pipeFrame := rfl
@[simp] theorem Dev.wrS_pipeCount : (d.wrS f v).pipeCount = d.pipeCount := rfl
@[simp] theorem Dev.wrS_lateTold : (d.wrS f v).lateTold = d.lateTold := rfl
@[simp] theorem Dev.wrS_dedAt : (d.wrS f v).dedAt = d.dedAt := rfl
@[simp] theorem Dev.wrS_enhDue : (d.wrS f v).enhDue = d.enhDue := rfl
end

section
variable (d : Dev) (n : Nat)
@[simp] theorem Dev.useFree_time : (d.useFree n).time = d.time := rfl
@[simp] theorem Dev.useFree_regs : (d.useFree n).regs = d.regs := rfl
@[simp] theorem Dev.useFree_live : (d.useFree n).live = d.live := rfl
@[simp] theorem Dev.useFree_shadow : (d.useFree n).shadow = d.shadow := rfl
@[simp] theorem Dev.useFree_mem : (d.useFree n).mem = d.mem := rfl
@[simp] theorem Dev.useFree_ecc : (d.useFree n).ecc = d.ecc := rfl
@[simp] theorem Dev.useFree_cores : (d.useFree n).cores = d.cores := rfl
@[simp] theorem Dev.useFree_fabric : (d.useFree n).fabric = d.fabric := rfl
@[simp] theorem Dev.useFree_mcReturned : (d.useFree n).mcReturned = d.mcReturned := rfl
@[simp] theorem Dev.useFree_sus : (d.useFree n).sus = d.sus := rfl
@[simp] theorem Dev.useFree_wcs : (d.useFree n).wcs = d.wcs := rfl
@[simp] theorem Dev.useFree_cache : (d.useFree n).cache = d.cache := rfl
@[simp] theorem Dev.useFree_scEventAt : (d.useFree n).scEventAt = d.scEventAt := rfl
@[simp] theorem Dev.useFree_ddr : (d.useFree n).ddr = d.ddr := rfl
@[simp] theorem Dev.useFree_hostMem : (d.useFree n).hostMem = d.hostMem := rfl
@[simp] theorem Dev.useFree_bes : (d.useFree n).bes = d.bes := rfl
@[simp] theorem Dev.useFree_lostBes : (d.useFree n).lostBes = d.lostBes := rfl
@[simp] theorem Dev.useFree_retired : (d.useFree n).retired = d.retired := rfl
@[simp] theorem Dev.useFree_healthDirty : (d.useFree n).healthDirty = d.healthDirty := rfl
@[simp] theorem Dev.useFree_rings : (d.useFree n).rings = d.rings := rfl
@[simp] theorem Dev.useFree_ringSent : (d.useFree n).ringSent = d.ringSent := rfl
@[simp] theorem Dev.useFree_beCredits : (d.useFree n).beCredits = d.beCredits := rfl
@[simp] theorem Dev.useFree_latched : (d.useFree n).latched = d.latched := rfl
@[simp] theorem Dev.useFree_reinitMarked : (d.useFree n).reinitMarked = d.reinitMarked := rfl
@[simp] theorem Dev.useFree_reinitRunning : (d.useFree n).reinitRunning = d.reinitRunning := rfl
@[simp] theorem Dev.useFree_reinitQuiet : (d.useFree n).reinitQuiet = d.reinitQuiet := rfl
@[simp] theorem Dev.useFree_reinitFrame : (d.useFree n).reinitFrame = d.reinitFrame := rfl
@[simp] theorem Dev.useFree_planSwitchWanted : (d.useFree n).planSwitchWanted = d.planSwitchWanted := rfl
@[simp] theorem Dev.useFree_unclosed : (d.useFree n).unclosed = d.unclosed := rfl
@[simp] theorem Dev.useFree_lostCores : (d.useFree n).lostCores = d.lostCores := rfl
@[simp] theorem Dev.useFree_events : (d.useFree n).events = d.events := rfl
@[simp] theorem Dev.useFree_limits : (d.useFree n).limits = d.limits := rfl
@[simp] theorem Dev.useFree_plan : (d.useFree n).plan = d.plan := rfl
@[simp] theorem Dev.useFree_tables : (d.useFree n).tables = d.tables := rfl
@[simp] theorem Dev.useFree_adopt : (d.useFree n).adopt = d.adopt := rfl
@[simp] theorem Dev.useFree_pipes : (d.useFree n).pipes = d.pipes := rfl
@[simp] theorem Dev.useFree_guardKept : (d.useFree n).guardKept = d.guardKept := rfl
@[simp] theorem Dev.useFree_launchQ : (d.useFree n).launchQ = d.launchQ := rfl
@[simp] theorem Dev.useFree_seqRun : (d.useFree n).seqRun = d.seqRun := rfl
@[simp] theorem Dev.useFree_streams : (d.useFree n).streams = d.streams := rfl
@[simp] theorem Dev.useFree_stopped : (d.useFree n).stopped = d.stopped := rfl
@[simp] theorem Dev.useFree_streamLatch : (d.useFree n).streamLatch = d.streamLatch := rfl
@[simp] theorem Dev.useFree_layers : (d.useFree n).layers = d.layers := rfl
@[simp] theorem Dev.useFree_outs : (d.useFree n).outs = d.outs := rfl
@[simp] theorem Dev.useFree_lantern : (d.useFree n).lantern = d.lantern := rfl
@[simp] theorem Dev.useFree_auxp : (d.useFree n).auxp = d.auxp := rfl
@[simp] theorem Dev.useFree_corrRows : (d.useFree n).corrRows = d.corrRows := rfl
@[simp] theorem Dev.useFree_repair : (d.useFree n).repair = d.repair := rfl
@[simp] theorem Dev.useFree_hoursBase : (d.useFree n).hoursBase = d.hoursBase := rfl
@[simp] theorem Dev.useFree_padDed : (d.useFree n).padDed = d.padDed := rfl
@[simp] theorem Dev.useFree_wear : (d.useFree n).wear = d.wear := rfl
@[simp] theorem Dev.useFree_selB : (d.useFree n).selB = d.selB := rfl
@[simp] theorem Dev.useFree_bcnSent : (d.useFree n).bcnSent = d.bcnSent := rfl
@[simp] theorem Dev.useFree_seamTx : (d.useFree n).seamTx = d.seamTx := rfl
@[simp] theorem Dev.useFree_seamRx : (d.useFree n).seamRx = d.seamRx := rfl
@[simp] theorem Dev.useFree_beacon : (d.useFree n).beacon = d.beacon := rfl
@[simp] theorem Dev.useFree_inst : (d.useFree n).inst = d.inst := rfl
@[simp] theorem Dev.useFree_cut : (d.useFree n).cut = d.cut := rfl
@[simp] theorem Dev.useFree_image : (d.useFree n).image = d.image := rfl
@[simp] theorem Dev.useFree_planNo : (d.useFree n).planNo = d.planNo := rfl
@[simp] theorem Dev.useFree_spareJobs : (d.useFree n).spareJobs = d.spareJobs := rfl
@[simp] theorem Dev.useFree_spareAt : (d.useFree n).spareAt = d.spareAt := rfl
@[simp] theorem Dev.useFree_spareFaults : (d.useFree n).spareFaults = d.spareFaults := rfl
@[simp] theorem Dev.useFree_parkedKeep : (d.useFree n).parkedKeep = d.parkedKeep := rfl
@[simp] theorem Dev.useFree_power : (d.useFree n).power = d.power := rfl
@[simp] theorem Dev.useFree_flash : (d.useFree n).flash = d.flash := rfl
@[simp] theorem Dev.useFree_mail : (d.useFree n).mail = d.mail := rfl
@[simp] theorem Dev.useFree_jtag : (d.useFree n).jtag = d.jtag := rfl
@[simp] theorem Dev.useFree_host : (d.useFree n).host = d.host := rfl
@[simp] theorem Dev.useFree_boot : (d.useFree n).boot = d.boot := rfl
@[simp] theorem Dev.useFree_analysis : (d.useFree n).analysis = d.analysis := rfl
@[simp] theorem Dev.useFree_phases : (d.useFree n).phases = d.phases := rfl
@[simp] theorem Dev.useFree_slack : (d.useFree n).slack = d.slack := rfl
@[simp] theorem Dev.useFree_slackNow : (d.useFree n).slackNow = d.slackNow := rfl
@[simp] theorem Dev.useFree_pipeFrame : (d.useFree n).pipeFrame = d.pipeFrame := rfl
@[simp] theorem Dev.useFree_pipeCount : (d.useFree n).pipeCount = d.pipeCount := rfl
@[simp] theorem Dev.useFree_lateTold : (d.useFree n).lateTold = d.lateTold := rfl
@[simp] theorem Dev.useFree_dedAt : (d.useFree n).dedAt = d.dedAt := rfl
@[simp] theorem Dev.useFree_enhDue : (d.useFree n).enhDue = d.enhDue := rfl
end

section
variable (d : Dev) 
@[simp] theorem Dev.padOk_time : (d.padOk).time = d.time := rfl
@[simp] theorem Dev.padOk_free : (d.padOk).free = d.free := rfl
@[simp] theorem Dev.padOk_regs : (d.padOk).regs = d.regs := rfl
@[simp] theorem Dev.padOk_live : (d.padOk).live = d.live := rfl
@[simp] theorem Dev.padOk_shadow : (d.padOk).shadow = d.shadow := rfl
@[simp] theorem Dev.padOk_mem : (d.padOk).mem = d.mem := rfl
@[simp] theorem Dev.padOk_ecc : (d.padOk).ecc = d.ecc := rfl
@[simp] theorem Dev.padOk_cores : (d.padOk).cores = d.cores := rfl
@[simp] theorem Dev.padOk_fabric : (d.padOk).fabric = d.fabric := rfl
@[simp] theorem Dev.padOk_mcReturned : (d.padOk).mcReturned = d.mcReturned := rfl
@[simp] theorem Dev.padOk_sus : (d.padOk).sus = d.sus := rfl
@[simp] theorem Dev.padOk_wcs : (d.padOk).wcs = d.wcs := rfl
@[simp] theorem Dev.padOk_cache : (d.padOk).cache = d.cache := rfl
@[simp] theorem Dev.padOk_scEventAt : (d.padOk).scEventAt = d.scEventAt := rfl
@[simp] theorem Dev.padOk_ddr : (d.padOk).ddr = d.ddr := rfl
@[simp] theorem Dev.padOk_hostMem : (d.padOk).hostMem = d.hostMem := rfl
@[simp] theorem Dev.padOk_bes : (d.padOk).bes = d.bes := rfl
@[simp] theorem Dev.padOk_lostBes : (d.padOk).lostBes = d.lostBes := rfl
@[simp] theorem Dev.padOk_retired : (d.padOk).retired = d.retired := rfl
@[simp] theorem Dev.padOk_healthDirty : (d.padOk).healthDirty = d.healthDirty := rfl
@[simp] theorem Dev.padOk_rings : (d.padOk).rings = d.rings := rfl
@[simp] theorem Dev.padOk_ringSent : (d.padOk).ringSent = d.ringSent := rfl
@[simp] theorem Dev.padOk_beCredits : (d.padOk).beCredits = d.beCredits := rfl
@[simp] theorem Dev.padOk_latched : (d.padOk).latched = d.latched := rfl
@[simp] theorem Dev.padOk_reinitMarked : (d.padOk).reinitMarked = d.reinitMarked := rfl
@[simp] theorem Dev.padOk_reinitRunning : (d.padOk).reinitRunning = d.reinitRunning := rfl
@[simp] theorem Dev.padOk_reinitQuiet : (d.padOk).reinitQuiet = d.reinitQuiet := rfl
@[simp] theorem Dev.padOk_reinitFrame : (d.padOk).reinitFrame = d.reinitFrame := rfl
@[simp] theorem Dev.padOk_planSwitchWanted : (d.padOk).planSwitchWanted = d.planSwitchWanted := rfl
@[simp] theorem Dev.padOk_unclosed : (d.padOk).unclosed = d.unclosed := rfl
@[simp] theorem Dev.padOk_lostCores : (d.padOk).lostCores = d.lostCores := rfl
@[simp] theorem Dev.padOk_events : (d.padOk).events = d.events := rfl
@[simp] theorem Dev.padOk_limits : (d.padOk).limits = d.limits := rfl
@[simp] theorem Dev.padOk_plan : (d.padOk).plan = d.plan := rfl
@[simp] theorem Dev.padOk_tables : (d.padOk).tables = d.tables := rfl
@[simp] theorem Dev.padOk_adopt : (d.padOk).adopt = d.adopt := rfl
@[simp] theorem Dev.padOk_pipes : (d.padOk).pipes = d.pipes := rfl
@[simp] theorem Dev.padOk_guardKept : (d.padOk).guardKept = d.guardKept := rfl
@[simp] theorem Dev.padOk_launchQ : (d.padOk).launchQ = d.launchQ := rfl
@[simp] theorem Dev.padOk_seqRun : (d.padOk).seqRun = d.seqRun := rfl
@[simp] theorem Dev.padOk_streams : (d.padOk).streams = d.streams := rfl
@[simp] theorem Dev.padOk_stopped : (d.padOk).stopped = d.stopped := rfl
@[simp] theorem Dev.padOk_streamLatch : (d.padOk).streamLatch = d.streamLatch := rfl
@[simp] theorem Dev.padOk_layers : (d.padOk).layers = d.layers := rfl
@[simp] theorem Dev.padOk_outs : (d.padOk).outs = d.outs := rfl
@[simp] theorem Dev.padOk_lantern : (d.padOk).lantern = d.lantern := rfl
@[simp] theorem Dev.padOk_auxp : (d.padOk).auxp = d.auxp := rfl
@[simp] theorem Dev.padOk_corrRows : (d.padOk).corrRows = d.corrRows := rfl
@[simp] theorem Dev.padOk_repair : (d.padOk).repair = d.repair := rfl
@[simp] theorem Dev.padOk_hoursBase : (d.padOk).hoursBase = d.hoursBase := rfl
@[simp] theorem Dev.padOk_wear : (d.padOk).wear = d.wear := rfl
@[simp] theorem Dev.padOk_selB : (d.padOk).selB = d.selB := rfl
@[simp] theorem Dev.padOk_bcnSent : (d.padOk).bcnSent = d.bcnSent := rfl
@[simp] theorem Dev.padOk_seamTx : (d.padOk).seamTx = d.seamTx := rfl
@[simp] theorem Dev.padOk_seamRx : (d.padOk).seamRx = d.seamRx := rfl
@[simp] theorem Dev.padOk_beacon : (d.padOk).beacon = d.beacon := rfl
@[simp] theorem Dev.padOk_inst : (d.padOk).inst = d.inst := rfl
@[simp] theorem Dev.padOk_cut : (d.padOk).cut = d.cut := rfl
@[simp] theorem Dev.padOk_image : (d.padOk).image = d.image := rfl
@[simp] theorem Dev.padOk_planNo : (d.padOk).planNo = d.planNo := rfl
@[simp] theorem Dev.padOk_spareJobs : (d.padOk).spareJobs = d.spareJobs := rfl
@[simp] theorem Dev.padOk_spareAt : (d.padOk).spareAt = d.spareAt := rfl
@[simp] theorem Dev.padOk_spareFaults : (d.padOk).spareFaults = d.spareFaults := rfl
@[simp] theorem Dev.padOk_parkedKeep : (d.padOk).parkedKeep = d.parkedKeep := rfl
@[simp] theorem Dev.padOk_power : (d.padOk).power = d.power := rfl
@[simp] theorem Dev.padOk_flash : (d.padOk).flash = d.flash := rfl
@[simp] theorem Dev.padOk_mail : (d.padOk).mail = d.mail := rfl
@[simp] theorem Dev.padOk_jtag : (d.padOk).jtag = d.jtag := rfl
@[simp] theorem Dev.padOk_host : (d.padOk).host = d.host := rfl
@[simp] theorem Dev.padOk_boot : (d.padOk).boot = d.boot := rfl
@[simp] theorem Dev.padOk_analysis : (d.padOk).analysis = d.analysis := rfl
@[simp] theorem Dev.padOk_phases : (d.padOk).phases = d.phases := rfl
@[simp] theorem Dev.padOk_slack : (d.padOk).slack = d.slack := rfl
@[simp] theorem Dev.padOk_slackNow : (d.padOk).slackNow = d.slackNow := rfl
@[simp] theorem Dev.padOk_pipeFrame : (d.padOk).pipeFrame = d.pipeFrame := rfl
@[simp] theorem Dev.padOk_pipeCount : (d.padOk).pipeCount = d.pipeCount := rfl
@[simp] theorem Dev.padOk_lateTold : (d.padOk).lateTold = d.lateTold := rfl
@[simp] theorem Dev.padOk_dedAt : (d.padOk).dedAt = d.dedAt := rfl
@[simp] theorem Dev.padOk_enhDue : (d.padOk).enhDue = d.enhDue := rfl
end

section
variable (d : Dev) (a : Nat) (b : Byte)
@[simp] theorem Dev.setByte_time : (d.setByte a b).time = d.time := rfl
@[simp] theorem Dev.setByte_free : (d.setByte a b).free = d.free := rfl
@[simp] theorem Dev.setByte_regs : (d.setByte a b).regs = d.regs := rfl
@[simp] theorem Dev.setByte_live : (d.setByte a b).live = d.live := rfl
@[simp] theorem Dev.setByte_shadow : (d.setByte a b).shadow = d.shadow := rfl
@[simp] theorem Dev.setByte_ecc : (d.setByte a b).ecc = d.ecc := rfl
@[simp] theorem Dev.setByte_cores : (d.setByte a b).cores = d.cores := rfl
@[simp] theorem Dev.setByte_fabric : (d.setByte a b).fabric = d.fabric := rfl
@[simp] theorem Dev.setByte_mcReturned : (d.setByte a b).mcReturned = d.mcReturned := rfl
@[simp] theorem Dev.setByte_sus : (d.setByte a b).sus = d.sus := rfl
@[simp] theorem Dev.setByte_wcs : (d.setByte a b).wcs = d.wcs := rfl
@[simp] theorem Dev.setByte_cache : (d.setByte a b).cache = d.cache := rfl
@[simp] theorem Dev.setByte_scEventAt : (d.setByte a b).scEventAt = d.scEventAt := rfl
@[simp] theorem Dev.setByte_ddr : (d.setByte a b).ddr = d.ddr := rfl
@[simp] theorem Dev.setByte_hostMem : (d.setByte a b).hostMem = d.hostMem := rfl
@[simp] theorem Dev.setByte_bes : (d.setByte a b).bes = d.bes := rfl
@[simp] theorem Dev.setByte_lostBes : (d.setByte a b).lostBes = d.lostBes := rfl
@[simp] theorem Dev.setByte_retired : (d.setByte a b).retired = d.retired := rfl
@[simp] theorem Dev.setByte_healthDirty : (d.setByte a b).healthDirty = d.healthDirty := rfl
@[simp] theorem Dev.setByte_rings : (d.setByte a b).rings = d.rings := rfl
@[simp] theorem Dev.setByte_ringSent : (d.setByte a b).ringSent = d.ringSent := rfl
@[simp] theorem Dev.setByte_beCredits : (d.setByte a b).beCredits = d.beCredits := rfl
@[simp] theorem Dev.setByte_latched : (d.setByte a b).latched = d.latched := rfl
@[simp] theorem Dev.setByte_reinitMarked : (d.setByte a b).reinitMarked = d.reinitMarked := rfl
@[simp] theorem Dev.setByte_reinitRunning : (d.setByte a b).reinitRunning = d.reinitRunning := rfl
@[simp] theorem Dev.setByte_reinitQuiet : (d.setByte a b).reinitQuiet = d.reinitQuiet := rfl
@[simp] theorem Dev.setByte_reinitFrame : (d.setByte a b).reinitFrame = d.reinitFrame := rfl
@[simp] theorem Dev.setByte_planSwitchWanted : (d.setByte a b).planSwitchWanted = d.planSwitchWanted := rfl
@[simp] theorem Dev.setByte_unclosed : (d.setByte a b).unclosed = d.unclosed := rfl
@[simp] theorem Dev.setByte_lostCores : (d.setByte a b).lostCores = d.lostCores := rfl
@[simp] theorem Dev.setByte_events : (d.setByte a b).events = d.events := rfl
@[simp] theorem Dev.setByte_limits : (d.setByte a b).limits = d.limits := rfl
@[simp] theorem Dev.setByte_plan : (d.setByte a b).plan = d.plan := rfl
@[simp] theorem Dev.setByte_tables : (d.setByte a b).tables = d.tables := rfl
@[simp] theorem Dev.setByte_adopt : (d.setByte a b).adopt = d.adopt := rfl
@[simp] theorem Dev.setByte_pipes : (d.setByte a b).pipes = d.pipes := rfl
@[simp] theorem Dev.setByte_guardKept : (d.setByte a b).guardKept = d.guardKept := rfl
@[simp] theorem Dev.setByte_launchQ : (d.setByte a b).launchQ = d.launchQ := rfl
@[simp] theorem Dev.setByte_seqRun : (d.setByte a b).seqRun = d.seqRun := rfl
@[simp] theorem Dev.setByte_streams : (d.setByte a b).streams = d.streams := rfl
@[simp] theorem Dev.setByte_stopped : (d.setByte a b).stopped = d.stopped := rfl
@[simp] theorem Dev.setByte_streamLatch : (d.setByte a b).streamLatch = d.streamLatch := rfl
@[simp] theorem Dev.setByte_layers : (d.setByte a b).layers = d.layers := rfl
@[simp] theorem Dev.setByte_outs : (d.setByte a b).outs = d.outs := rfl
@[simp] theorem Dev.setByte_lantern : (d.setByte a b).lantern = d.lantern := rfl
@[simp] theorem Dev.setByte_auxp : (d.setByte a b).auxp = d.auxp := rfl
@[simp] theorem Dev.setByte_corrRows : (d.setByte a b).corrRows = d.corrRows := rfl
@[simp] theorem Dev.setByte_repair : (d.setByte a b).repair = d.repair := rfl
@[simp] theorem Dev.setByte_hoursBase : (d.setByte a b).hoursBase = d.hoursBase := rfl
@[simp] theorem Dev.setByte_padDed : (d.setByte a b).padDed = d.padDed := rfl
@[simp] theorem Dev.setByte_wear : (d.setByte a b).wear = d.wear := rfl
@[simp] theorem Dev.setByte_selB : (d.setByte a b).selB = d.selB := rfl
@[simp] theorem Dev.setByte_bcnSent : (d.setByte a b).bcnSent = d.bcnSent := rfl
@[simp] theorem Dev.setByte_seamTx : (d.setByte a b).seamTx = d.seamTx := rfl
@[simp] theorem Dev.setByte_seamRx : (d.setByte a b).seamRx = d.seamRx := rfl
@[simp] theorem Dev.setByte_beacon : (d.setByte a b).beacon = d.beacon := rfl
@[simp] theorem Dev.setByte_inst : (d.setByte a b).inst = d.inst := rfl
@[simp] theorem Dev.setByte_cut : (d.setByte a b).cut = d.cut := rfl
@[simp] theorem Dev.setByte_image : (d.setByte a b).image = d.image := rfl
@[simp] theorem Dev.setByte_planNo : (d.setByte a b).planNo = d.planNo := rfl
@[simp] theorem Dev.setByte_spareJobs : (d.setByte a b).spareJobs = d.spareJobs := rfl
@[simp] theorem Dev.setByte_spareAt : (d.setByte a b).spareAt = d.spareAt := rfl
@[simp] theorem Dev.setByte_spareFaults : (d.setByte a b).spareFaults = d.spareFaults := rfl
@[simp] theorem Dev.setByte_parkedKeep : (d.setByte a b).parkedKeep = d.parkedKeep := rfl
@[simp] theorem Dev.setByte_power : (d.setByte a b).power = d.power := rfl
@[simp] theorem Dev.setByte_flash : (d.setByte a b).flash = d.flash := rfl
@[simp] theorem Dev.setByte_mail : (d.setByte a b).mail = d.mail := rfl
@[simp] theorem Dev.setByte_jtag : (d.setByte a b).jtag = d.jtag := rfl
@[simp] theorem Dev.setByte_host : (d.setByte a b).host = d.host := rfl
@[simp] theorem Dev.setByte_boot : (d.setByte a b).boot = d.boot := rfl
@[simp] theorem Dev.setByte_analysis : (d.setByte a b).analysis = d.analysis := rfl
@[simp] theorem Dev.setByte_phases : (d.setByte a b).phases = d.phases := rfl
@[simp] theorem Dev.setByte_slack : (d.setByte a b).slack = d.slack := rfl
@[simp] theorem Dev.setByte_slackNow : (d.setByte a b).slackNow = d.slackNow := rfl
@[simp] theorem Dev.setByte_pipeFrame : (d.setByte a b).pipeFrame = d.pipeFrame := rfl
@[simp] theorem Dev.setByte_pipeCount : (d.setByte a b).pipeCount = d.pipeCount := rfl
@[simp] theorem Dev.setByte_lateTold : (d.setByte a b).lateTold = d.lateTold := rfl
@[simp] theorem Dev.setByte_dedAt : (d.setByte a b).dedAt = d.dedAt := rfl
@[simp] theorem Dev.setByte_enhDue : (d.setByte a b).enhDue = d.enhDue := rfl
end

section
variable (d : Dev) (a : Nat) (bs : Bytes)
@[simp] theorem Dev.setBytes_time : (d.setBytes a bs).time = d.time := rfl
@[simp] theorem Dev.setBytes_free : (d.setBytes a bs).free = d.free := rfl
@[simp] theorem Dev.setBytes_regs : (d.setBytes a bs).regs = d.regs := rfl
@[simp] theorem Dev.setBytes_live : (d.setBytes a bs).live = d.live := rfl
@[simp] theorem Dev.setBytes_shadow : (d.setBytes a bs).shadow = d.shadow := rfl
@[simp] theorem Dev.setBytes_ecc : (d.setBytes a bs).ecc = d.ecc := rfl
@[simp] theorem Dev.setBytes_cores : (d.setBytes a bs).cores = d.cores := rfl
@[simp] theorem Dev.setBytes_fabric : (d.setBytes a bs).fabric = d.fabric := rfl
@[simp] theorem Dev.setBytes_mcReturned : (d.setBytes a bs).mcReturned = d.mcReturned := rfl
@[simp] theorem Dev.setBytes_sus : (d.setBytes a bs).sus = d.sus := rfl
@[simp] theorem Dev.setBytes_wcs : (d.setBytes a bs).wcs = d.wcs := rfl
@[simp] theorem Dev.setBytes_cache : (d.setBytes a bs).cache = d.cache := rfl
@[simp] theorem Dev.setBytes_scEventAt : (d.setBytes a bs).scEventAt = d.scEventAt := rfl
@[simp] theorem Dev.setBytes_ddr : (d.setBytes a bs).ddr = d.ddr := rfl
@[simp] theorem Dev.setBytes_hostMem : (d.setBytes a bs).hostMem = d.hostMem := rfl
@[simp] theorem Dev.setBytes_bes : (d.setBytes a bs).bes = d.bes := rfl
@[simp] theorem Dev.setBytes_lostBes : (d.setBytes a bs).lostBes = d.lostBes := rfl
@[simp] theorem Dev.setBytes_retired : (d.setBytes a bs).retired = d.retired := rfl
@[simp] theorem Dev.setBytes_healthDirty : (d.setBytes a bs).healthDirty = d.healthDirty := rfl
@[simp] theorem Dev.setBytes_rings : (d.setBytes a bs).rings = d.rings := rfl
@[simp] theorem Dev.setBytes_ringSent : (d.setBytes a bs).ringSent = d.ringSent := rfl
@[simp] theorem Dev.setBytes_beCredits : (d.setBytes a bs).beCredits = d.beCredits := rfl
@[simp] theorem Dev.setBytes_latched : (d.setBytes a bs).latched = d.latched := rfl
@[simp] theorem Dev.setBytes_reinitMarked : (d.setBytes a bs).reinitMarked = d.reinitMarked := rfl
@[simp] theorem Dev.setBytes_reinitRunning : (d.setBytes a bs).reinitRunning = d.reinitRunning := rfl
@[simp] theorem Dev.setBytes_reinitQuiet : (d.setBytes a bs).reinitQuiet = d.reinitQuiet := rfl
@[simp] theorem Dev.setBytes_reinitFrame : (d.setBytes a bs).reinitFrame = d.reinitFrame := rfl
@[simp] theorem Dev.setBytes_planSwitchWanted : (d.setBytes a bs).planSwitchWanted = d.planSwitchWanted := rfl
@[simp] theorem Dev.setBytes_unclosed : (d.setBytes a bs).unclosed = d.unclosed := rfl
@[simp] theorem Dev.setBytes_lostCores : (d.setBytes a bs).lostCores = d.lostCores := rfl
@[simp] theorem Dev.setBytes_events : (d.setBytes a bs).events = d.events := rfl
@[simp] theorem Dev.setBytes_limits : (d.setBytes a bs).limits = d.limits := rfl
@[simp] theorem Dev.setBytes_plan : (d.setBytes a bs).plan = d.plan := rfl
@[simp] theorem Dev.setBytes_tables : (d.setBytes a bs).tables = d.tables := rfl
@[simp] theorem Dev.setBytes_adopt : (d.setBytes a bs).adopt = d.adopt := rfl
@[simp] theorem Dev.setBytes_pipes : (d.setBytes a bs).pipes = d.pipes := rfl
@[simp] theorem Dev.setBytes_guardKept : (d.setBytes a bs).guardKept = d.guardKept := rfl
@[simp] theorem Dev.setBytes_launchQ : (d.setBytes a bs).launchQ = d.launchQ := rfl
@[simp] theorem Dev.setBytes_seqRun : (d.setBytes a bs).seqRun = d.seqRun := rfl
@[simp] theorem Dev.setBytes_streams : (d.setBytes a bs).streams = d.streams := rfl
@[simp] theorem Dev.setBytes_stopped : (d.setBytes a bs).stopped = d.stopped := rfl
@[simp] theorem Dev.setBytes_streamLatch : (d.setBytes a bs).streamLatch = d.streamLatch := rfl
@[simp] theorem Dev.setBytes_layers : (d.setBytes a bs).layers = d.layers := rfl
@[simp] theorem Dev.setBytes_outs : (d.setBytes a bs).outs = d.outs := rfl
@[simp] theorem Dev.setBytes_lantern : (d.setBytes a bs).lantern = d.lantern := rfl
@[simp] theorem Dev.setBytes_auxp : (d.setBytes a bs).auxp = d.auxp := rfl
@[simp] theorem Dev.setBytes_corrRows : (d.setBytes a bs).corrRows = d.corrRows := rfl
@[simp] theorem Dev.setBytes_repair : (d.setBytes a bs).repair = d.repair := rfl
@[simp] theorem Dev.setBytes_hoursBase : (d.setBytes a bs).hoursBase = d.hoursBase := rfl
@[simp] theorem Dev.setBytes_padDed : (d.setBytes a bs).padDed = d.padDed := rfl
@[simp] theorem Dev.setBytes_wear : (d.setBytes a bs).wear = d.wear := rfl
@[simp] theorem Dev.setBytes_selB : (d.setBytes a bs).selB = d.selB := rfl
@[simp] theorem Dev.setBytes_bcnSent : (d.setBytes a bs).bcnSent = d.bcnSent := rfl
@[simp] theorem Dev.setBytes_seamTx : (d.setBytes a bs).seamTx = d.seamTx := rfl
@[simp] theorem Dev.setBytes_seamRx : (d.setBytes a bs).seamRx = d.seamRx := rfl
@[simp] theorem Dev.setBytes_beacon : (d.setBytes a bs).beacon = d.beacon := rfl
@[simp] theorem Dev.setBytes_inst : (d.setBytes a bs).inst = d.inst := rfl
@[simp] theorem Dev.setBytes_cut : (d.setBytes a bs).cut = d.cut := rfl
@[simp] theorem Dev.setBytes_image : (d.setBytes a bs).image = d.image := rfl
@[simp] theorem Dev.setBytes_planNo : (d.setBytes a bs).planNo = d.planNo := rfl
@[simp] theorem Dev.setBytes_spareJobs : (d.setBytes a bs).spareJobs = d.spareJobs := rfl
@[simp] theorem Dev.setBytes_spareAt : (d.setBytes a bs).spareAt = d.spareAt := rfl
@[simp] theorem Dev.setBytes_spareFaults : (d.setBytes a bs).spareFaults = d.spareFaults := rfl
@[simp] theorem Dev.setBytes_parkedKeep : (d.setBytes a bs).parkedKeep = d.parkedKeep := rfl
@[simp] theorem Dev.setBytes_power : (d.setBytes a bs).power = d.power := rfl
@[simp] theorem Dev.setBytes_flash : (d.setBytes a bs).flash = d.flash := rfl
@[simp] theorem Dev.setBytes_mail : (d.setBytes a bs).mail = d.mail := rfl
@[simp] theorem Dev.setBytes_jtag : (d.setBytes a bs).jtag = d.jtag := rfl
@[simp] theorem Dev.setBytes_host : (d.setBytes a bs).host = d.host := rfl
@[simp] theorem Dev.setBytes_boot : (d.setBytes a bs).boot = d.boot := rfl
@[simp] theorem Dev.setBytes_analysis : (d.setBytes a bs).analysis = d.analysis := rfl
@[simp] theorem Dev.setBytes_phases : (d.setBytes a bs).phases = d.phases := rfl
@[simp] theorem Dev.setBytes_slack : (d.setBytes a bs).slack = d.slack := rfl
@[simp] theorem Dev.setBytes_slackNow : (d.setBytes a bs).slackNow = d.slackNow := rfl
@[simp] theorem Dev.setBytes_pipeFrame : (d.setBytes a bs).pipeFrame = d.pipeFrame := rfl
@[simp] theorem Dev.setBytes_pipeCount : (d.setBytes a bs).pipeCount = d.pipeCount := rfl
@[simp] theorem Dev.setBytes_lateTold : (d.setBytes a bs).lateTold = d.lateTold := rfl
@[simp] theorem Dev.setBytes_dedAt : (d.setBytes a bs).dedAt = d.dedAt := rfl
@[simp] theorem Dev.setBytes_enhDue : (d.setBytes a bs).enhDue = d.enhDue := rfl
end

section
variable (d : Dev) (c : Nat) (f : Core → Core)
@[simp] theorem Dev.onCore_time : (d.onCore c f).time = d.time := rfl
@[simp] theorem Dev.onCore_free : (d.onCore c f).free = d.free := rfl
@[simp] theorem Dev.onCore_regs : (d.onCore c f).regs = d.regs := rfl
@[simp] theorem Dev.onCore_live : (d.onCore c f).live = d.live := rfl
@[simp] theorem Dev.onCore_shadow : (d.onCore c f).shadow = d.shadow := rfl
@[simp] theorem Dev.onCore_mem : (d.onCore c f).mem = d.mem := rfl
@[simp] theorem Dev.onCore_ecc : (d.onCore c f).ecc = d.ecc := rfl
@[simp] theorem Dev.onCore_fabric : (d.onCore c f).fabric = d.fabric := rfl
@[simp] theorem Dev.onCore_mcReturned : (d.onCore c f).mcReturned = d.mcReturned := rfl
@[simp] theorem Dev.onCore_sus : (d.onCore c f).sus = d.sus := rfl
@[simp] theorem Dev.onCore_wcs : (d.onCore c f).wcs = d.wcs := rfl
@[simp] theorem Dev.onCore_cache : (d.onCore c f).cache = d.cache := rfl
@[simp] theorem Dev.onCore_scEventAt : (d.onCore c f).scEventAt = d.scEventAt := rfl
@[simp] theorem Dev.onCore_ddr : (d.onCore c f).ddr = d.ddr := rfl
@[simp] theorem Dev.onCore_hostMem : (d.onCore c f).hostMem = d.hostMem := rfl
@[simp] theorem Dev.onCore_bes : (d.onCore c f).bes = d.bes := rfl
@[simp] theorem Dev.onCore_lostBes : (d.onCore c f).lostBes = d.lostBes := rfl
@[simp] theorem Dev.onCore_retired : (d.onCore c f).retired = d.retired := rfl
@[simp] theorem Dev.onCore_healthDirty : (d.onCore c f).healthDirty = d.healthDirty := rfl
@[simp] theorem Dev.onCore_rings : (d.onCore c f).rings = d.rings := rfl
@[simp] theorem Dev.onCore_ringSent : (d.onCore c f).ringSent = d.ringSent := rfl
@[simp] theorem Dev.onCore_beCredits : (d.onCore c f).beCredits = d.beCredits := rfl
@[simp] theorem Dev.onCore_latched : (d.onCore c f).latched = d.latched := rfl
@[simp] theorem Dev.onCore_reinitMarked : (d.onCore c f).reinitMarked = d.reinitMarked := rfl
@[simp] theorem Dev.onCore_reinitRunning : (d.onCore c f).reinitRunning = d.reinitRunning := rfl
@[simp] theorem Dev.onCore_reinitQuiet : (d.onCore c f).reinitQuiet = d.reinitQuiet := rfl
@[simp] theorem Dev.onCore_reinitFrame : (d.onCore c f).reinitFrame = d.reinitFrame := rfl
@[simp] theorem Dev.onCore_planSwitchWanted : (d.onCore c f).planSwitchWanted = d.planSwitchWanted := rfl
@[simp] theorem Dev.onCore_unclosed : (d.onCore c f).unclosed = d.unclosed := rfl
@[simp] theorem Dev.onCore_lostCores : (d.onCore c f).lostCores = d.lostCores := rfl
@[simp] theorem Dev.onCore_events : (d.onCore c f).events = d.events := rfl
@[simp] theorem Dev.onCore_limits : (d.onCore c f).limits = d.limits := rfl
@[simp] theorem Dev.onCore_plan : (d.onCore c f).plan = d.plan := rfl
@[simp] theorem Dev.onCore_tables : (d.onCore c f).tables = d.tables := rfl
@[simp] theorem Dev.onCore_adopt : (d.onCore c f).adopt = d.adopt := rfl
@[simp] theorem Dev.onCore_pipes : (d.onCore c f).pipes = d.pipes := rfl
@[simp] theorem Dev.onCore_guardKept : (d.onCore c f).guardKept = d.guardKept := rfl
@[simp] theorem Dev.onCore_launchQ : (d.onCore c f).launchQ = d.launchQ := rfl
@[simp] theorem Dev.onCore_seqRun : (d.onCore c f).seqRun = d.seqRun := rfl
@[simp] theorem Dev.onCore_streams : (d.onCore c f).streams = d.streams := rfl
@[simp] theorem Dev.onCore_stopped : (d.onCore c f).stopped = d.stopped := rfl
@[simp] theorem Dev.onCore_streamLatch : (d.onCore c f).streamLatch = d.streamLatch := rfl
@[simp] theorem Dev.onCore_layers : (d.onCore c f).layers = d.layers := rfl
@[simp] theorem Dev.onCore_outs : (d.onCore c f).outs = d.outs := rfl
@[simp] theorem Dev.onCore_lantern : (d.onCore c f).lantern = d.lantern := rfl
@[simp] theorem Dev.onCore_auxp : (d.onCore c f).auxp = d.auxp := rfl
@[simp] theorem Dev.onCore_corrRows : (d.onCore c f).corrRows = d.corrRows := rfl
@[simp] theorem Dev.onCore_repair : (d.onCore c f).repair = d.repair := rfl
@[simp] theorem Dev.onCore_hoursBase : (d.onCore c f).hoursBase = d.hoursBase := rfl
@[simp] theorem Dev.onCore_padDed : (d.onCore c f).padDed = d.padDed := rfl
@[simp] theorem Dev.onCore_wear : (d.onCore c f).wear = d.wear := rfl
@[simp] theorem Dev.onCore_selB : (d.onCore c f).selB = d.selB := rfl
@[simp] theorem Dev.onCore_bcnSent : (d.onCore c f).bcnSent = d.bcnSent := rfl
@[simp] theorem Dev.onCore_seamTx : (d.onCore c f).seamTx = d.seamTx := rfl
@[simp] theorem Dev.onCore_seamRx : (d.onCore c f).seamRx = d.seamRx := rfl
@[simp] theorem Dev.onCore_beacon : (d.onCore c f).beacon = d.beacon := rfl
@[simp] theorem Dev.onCore_inst : (d.onCore c f).inst = d.inst := rfl
@[simp] theorem Dev.onCore_cut : (d.onCore c f).cut = d.cut := rfl
@[simp] theorem Dev.onCore_image : (d.onCore c f).image = d.image := rfl
@[simp] theorem Dev.onCore_planNo : (d.onCore c f).planNo = d.planNo := rfl
@[simp] theorem Dev.onCore_spareJobs : (d.onCore c f).spareJobs = d.spareJobs := rfl
@[simp] theorem Dev.onCore_spareAt : (d.onCore c f).spareAt = d.spareAt := rfl
@[simp] theorem Dev.onCore_spareFaults : (d.onCore c f).spareFaults = d.spareFaults := rfl
@[simp] theorem Dev.onCore_parkedKeep : (d.onCore c f).parkedKeep = d.parkedKeep := rfl
@[simp] theorem Dev.onCore_power : (d.onCore c f).power = d.power := rfl
@[simp] theorem Dev.onCore_flash : (d.onCore c f).flash = d.flash := rfl
@[simp] theorem Dev.onCore_mail : (d.onCore c f).mail = d.mail := rfl
@[simp] theorem Dev.onCore_jtag : (d.onCore c f).jtag = d.jtag := rfl
@[simp] theorem Dev.onCore_host : (d.onCore c f).host = d.host := rfl
@[simp] theorem Dev.onCore_boot : (d.onCore c f).boot = d.boot := rfl
@[simp] theorem Dev.onCore_analysis : (d.onCore c f).analysis = d.analysis := rfl
@[simp] theorem Dev.onCore_phases : (d.onCore c f).phases = d.phases := rfl
@[simp] theorem Dev.onCore_slack : (d.onCore c f).slack = d.slack := rfl
@[simp] theorem Dev.onCore_slackNow : (d.onCore c f).slackNow = d.slackNow := rfl
@[simp] theorem Dev.onCore_pipeFrame : (d.onCore c f).pipeFrame = d.pipeFrame := rfl
@[simp] theorem Dev.onCore_pipeCount : (d.onCore c f).pipeCount = d.pipeCount := rfl
@[simp] theorem Dev.onCore_lateTold : (d.onCore c f).lateTold = d.lateTold := rfl
@[simp] theorem Dev.onCore_dedAt : (d.onCore c f).dedAt = d.dedAt := rfl
@[simp] theorem Dev.onCore_enhDue : (d.onCore c f).enhDue = d.enhDue := rfl
end

section
variable (d : Dev) (c t : Nat) (f : Task → Task)
@[simp] theorem Dev.onTask_time : (d.onTask c t f).time = d.time := rfl
@[simp] theorem Dev.onTask_free : (d.onTask c t f).free = d.free := rfl
@[simp] theorem Dev.onTask_regs : (d.onTask c t f).regs = d.regs := rfl
@[simp] theorem Dev.onTask_live : (d.onTask c t f).live = d.live := rfl
@[simp] theorem Dev.onTask_shadow : (d.onTask c t f).shadow = d.shadow := rfl
@[simp] theorem Dev.onTask_mem : (d.onTask c t f).mem = d.mem := rfl
@[simp] theorem Dev.onTask_ecc : (d.onTask c t f).ecc = d.ecc := rfl
@[simp] theorem Dev.onTask_fabric : (d.onTask c t f).fabric = d.fabric := rfl
@[simp] theorem Dev.onTask_mcReturned : (d.onTask c t f).mcReturned = d.mcReturned := rfl
@[simp] theorem Dev.onTask_sus : (d.onTask c t f).sus = d.sus := rfl
@[simp] theorem Dev.onTask_wcs : (d.onTask c t f).wcs = d.wcs := rfl
@[simp] theorem Dev.onTask_cache : (d.onTask c t f).cache = d.cache := rfl
@[simp] theorem Dev.onTask_scEventAt : (d.onTask c t f).scEventAt = d.scEventAt := rfl
@[simp] theorem Dev.onTask_ddr : (d.onTask c t f).ddr = d.ddr := rfl
@[simp] theorem Dev.onTask_hostMem : (d.onTask c t f).hostMem = d.hostMem := rfl
@[simp] theorem Dev.onTask_bes : (d.onTask c t f).bes = d.bes := rfl
@[simp] theorem Dev.onTask_lostBes : (d.onTask c t f).lostBes = d.lostBes := rfl
@[simp] theorem Dev.onTask_retired : (d.onTask c t f).retired = d.retired := rfl
@[simp] theorem Dev.onTask_healthDirty : (d.onTask c t f).healthDirty = d.healthDirty := rfl
@[simp] theorem Dev.onTask_rings : (d.onTask c t f).rings = d.rings := rfl
@[simp] theorem Dev.onTask_ringSent : (d.onTask c t f).ringSent = d.ringSent := rfl
@[simp] theorem Dev.onTask_beCredits : (d.onTask c t f).beCredits = d.beCredits := rfl
@[simp] theorem Dev.onTask_latched : (d.onTask c t f).latched = d.latched := rfl
@[simp] theorem Dev.onTask_reinitMarked : (d.onTask c t f).reinitMarked = d.reinitMarked := rfl
@[simp] theorem Dev.onTask_reinitRunning : (d.onTask c t f).reinitRunning = d.reinitRunning := rfl
@[simp] theorem Dev.onTask_reinitQuiet : (d.onTask c t f).reinitQuiet = d.reinitQuiet := rfl
@[simp] theorem Dev.onTask_reinitFrame : (d.onTask c t f).reinitFrame = d.reinitFrame := rfl
@[simp] theorem Dev.onTask_planSwitchWanted : (d.onTask c t f).planSwitchWanted = d.planSwitchWanted := rfl
@[simp] theorem Dev.onTask_unclosed : (d.onTask c t f).unclosed = d.unclosed := rfl
@[simp] theorem Dev.onTask_lostCores : (d.onTask c t f).lostCores = d.lostCores := rfl
@[simp] theorem Dev.onTask_events : (d.onTask c t f).events = d.events := rfl
@[simp] theorem Dev.onTask_limits : (d.onTask c t f).limits = d.limits := rfl
@[simp] theorem Dev.onTask_plan : (d.onTask c t f).plan = d.plan := rfl
@[simp] theorem Dev.onTask_tables : (d.onTask c t f).tables = d.tables := rfl
@[simp] theorem Dev.onTask_adopt : (d.onTask c t f).adopt = d.adopt := rfl
@[simp] theorem Dev.onTask_pipes : (d.onTask c t f).pipes = d.pipes := rfl
@[simp] theorem Dev.onTask_guardKept : (d.onTask c t f).guardKept = d.guardKept := rfl
@[simp] theorem Dev.onTask_launchQ : (d.onTask c t f).launchQ = d.launchQ := rfl
@[simp] theorem Dev.onTask_seqRun : (d.onTask c t f).seqRun = d.seqRun := rfl
@[simp] theorem Dev.onTask_streams : (d.onTask c t f).streams = d.streams := rfl
@[simp] theorem Dev.onTask_stopped : (d.onTask c t f).stopped = d.stopped := rfl
@[simp] theorem Dev.onTask_streamLatch : (d.onTask c t f).streamLatch = d.streamLatch := rfl
@[simp] theorem Dev.onTask_layers : (d.onTask c t f).layers = d.layers := rfl
@[simp] theorem Dev.onTask_outs : (d.onTask c t f).outs = d.outs := rfl
@[simp] theorem Dev.onTask_lantern : (d.onTask c t f).lantern = d.lantern := rfl
@[simp] theorem Dev.onTask_auxp : (d.onTask c t f).auxp = d.auxp := rfl
@[simp] theorem Dev.onTask_corrRows : (d.onTask c t f).corrRows = d.corrRows := rfl
@[simp] theorem Dev.onTask_repair : (d.onTask c t f).repair = d.repair := rfl
@[simp] theorem Dev.onTask_hoursBase : (d.onTask c t f).hoursBase = d.hoursBase := rfl
@[simp] theorem Dev.onTask_padDed : (d.onTask c t f).padDed = d.padDed := rfl
@[simp] theorem Dev.onTask_wear : (d.onTask c t f).wear = d.wear := rfl
@[simp] theorem Dev.onTask_selB : (d.onTask c t f).selB = d.selB := rfl
@[simp] theorem Dev.onTask_bcnSent : (d.onTask c t f).bcnSent = d.bcnSent := rfl
@[simp] theorem Dev.onTask_seamTx : (d.onTask c t f).seamTx = d.seamTx := rfl
@[simp] theorem Dev.onTask_seamRx : (d.onTask c t f).seamRx = d.seamRx := rfl
@[simp] theorem Dev.onTask_beacon : (d.onTask c t f).beacon = d.beacon := rfl
@[simp] theorem Dev.onTask_inst : (d.onTask c t f).inst = d.inst := rfl
@[simp] theorem Dev.onTask_cut : (d.onTask c t f).cut = d.cut := rfl
@[simp] theorem Dev.onTask_image : (d.onTask c t f).image = d.image := rfl
@[simp] theorem Dev.onTask_planNo : (d.onTask c t f).planNo = d.planNo := rfl
@[simp] theorem Dev.onTask_spareJobs : (d.onTask c t f).spareJobs = d.spareJobs := rfl
@[simp] theorem Dev.onTask_spareAt : (d.onTask c t f).spareAt = d.spareAt := rfl
@[simp] theorem Dev.onTask_spareFaults : (d.onTask c t f).spareFaults = d.spareFaults := rfl
@[simp] theorem Dev.onTask_parkedKeep : (d.onTask c t f).parkedKeep = d.parkedKeep := rfl
@[simp] theorem Dev.onTask_power : (d.onTask c t f).power = d.power := rfl
@[simp] theorem Dev.onTask_flash : (d.onTask c t f).flash = d.flash := rfl
@[simp] theorem Dev.onTask_mail : (d.onTask c t f).mail = d.mail := rfl
@[simp] theorem Dev.onTask_jtag : (d.onTask c t f).jtag = d.jtag := rfl
@[simp] theorem Dev.onTask_host : (d.onTask c t f).host = d.host := rfl
@[simp] theorem Dev.onTask_boot : (d.onTask c t f).boot = d.boot := rfl
@[simp] theorem Dev.onTask_analysis : (d.onTask c t f).analysis = d.analysis := rfl
@[simp] theorem Dev.onTask_phases : (d.onTask c t f).phases = d.phases := rfl
@[simp] theorem Dev.onTask_slack : (d.onTask c t f).slack = d.slack := rfl
@[simp] theorem Dev.onTask_slackNow : (d.onTask c t f).slackNow = d.slackNow := rfl
@[simp] theorem Dev.onTask_pipeFrame : (d.onTask c t f).pipeFrame = d.pipeFrame := rfl
@[simp] theorem Dev.onTask_pipeCount : (d.onTask c t f).pipeCount = d.pipeCount := rfl
@[simp] theorem Dev.onTask_lateTold : (d.onTask c t f).lateTold = d.lateTold := rfl
@[simp] theorem Dev.onTask_dedAt : (d.onTask c t f).dedAt = d.dedAt := rfl
@[simp] theorem Dev.onTask_enhDue : (d.onTask c t f).enhDue = d.enhDue := rfl
end

section
variable (d : Dev) (a b : Node) (m : Body)
@[simp] theorem Dev.send_time : (d.send a b m).time = d.time := rfl
@[simp] theorem Dev.send_free : (d.send a b m).free = d.free := rfl
@[simp] theorem Dev.send_regs : (d.send a b m).regs = d.regs := rfl
@[simp] theorem Dev.send_live : (d.send a b m).live = d.live := rfl
@[simp] theorem Dev.send_shadow : (d.send a b m).shadow = d.shadow := rfl
@[simp] theorem Dev.send_mem : (d.send a b m).mem = d.mem := rfl
@[simp] theorem Dev.send_ecc : (d.send a b m).ecc = d.ecc := rfl
@[simp] theorem Dev.send_cores : (d.send a b m).cores = d.cores := rfl
@[simp] theorem Dev.send_mcReturned : (d.send a b m).mcReturned = d.mcReturned := rfl
@[simp] theorem Dev.send_sus : (d.send a b m).sus = d.sus := rfl
@[simp] theorem Dev.send_wcs : (d.send a b m).wcs = d.wcs := rfl
@[simp] theorem Dev.send_cache : (d.send a b m).cache = d.cache := rfl
@[simp] theorem Dev.send_scEventAt : (d.send a b m).scEventAt = d.scEventAt := rfl
@[simp] theorem Dev.send_ddr : (d.send a b m).ddr = d.ddr := rfl
@[simp] theorem Dev.send_hostMem : (d.send a b m).hostMem = d.hostMem := rfl
@[simp] theorem Dev.send_bes : (d.send a b m).bes = d.bes := rfl
@[simp] theorem Dev.send_lostBes : (d.send a b m).lostBes = d.lostBes := rfl
@[simp] theorem Dev.send_retired : (d.send a b m).retired = d.retired := rfl
@[simp] theorem Dev.send_healthDirty : (d.send a b m).healthDirty = d.healthDirty := rfl
@[simp] theorem Dev.send_rings : (d.send a b m).rings = d.rings := rfl
@[simp] theorem Dev.send_ringSent : (d.send a b m).ringSent = d.ringSent := rfl
@[simp] theorem Dev.send_beCredits : (d.send a b m).beCredits = d.beCredits := rfl
@[simp] theorem Dev.send_latched : (d.send a b m).latched = d.latched := rfl
@[simp] theorem Dev.send_reinitMarked : (d.send a b m).reinitMarked = d.reinitMarked := rfl
@[simp] theorem Dev.send_reinitRunning : (d.send a b m).reinitRunning = d.reinitRunning := rfl
@[simp] theorem Dev.send_reinitQuiet : (d.send a b m).reinitQuiet = d.reinitQuiet := rfl
@[simp] theorem Dev.send_reinitFrame : (d.send a b m).reinitFrame = d.reinitFrame := rfl
@[simp] theorem Dev.send_planSwitchWanted : (d.send a b m).planSwitchWanted = d.planSwitchWanted := rfl
@[simp] theorem Dev.send_unclosed : (d.send a b m).unclosed = d.unclosed := rfl
@[simp] theorem Dev.send_lostCores : (d.send a b m).lostCores = d.lostCores := rfl
@[simp] theorem Dev.send_events : (d.send a b m).events = d.events := rfl
@[simp] theorem Dev.send_limits : (d.send a b m).limits = d.limits := rfl
@[simp] theorem Dev.send_plan : (d.send a b m).plan = d.plan := rfl
@[simp] theorem Dev.send_tables : (d.send a b m).tables = d.tables := rfl
@[simp] theorem Dev.send_adopt : (d.send a b m).adopt = d.adopt := rfl
@[simp] theorem Dev.send_pipes : (d.send a b m).pipes = d.pipes := rfl
@[simp] theorem Dev.send_guardKept : (d.send a b m).guardKept = d.guardKept := rfl
@[simp] theorem Dev.send_launchQ : (d.send a b m).launchQ = d.launchQ := rfl
@[simp] theorem Dev.send_seqRun : (d.send a b m).seqRun = d.seqRun := rfl
@[simp] theorem Dev.send_streams : (d.send a b m).streams = d.streams := rfl
@[simp] theorem Dev.send_stopped : (d.send a b m).stopped = d.stopped := rfl
@[simp] theorem Dev.send_streamLatch : (d.send a b m).streamLatch = d.streamLatch := rfl
@[simp] theorem Dev.send_layers : (d.send a b m).layers = d.layers := rfl
@[simp] theorem Dev.send_outs : (d.send a b m).outs = d.outs := rfl
@[simp] theorem Dev.send_lantern : (d.send a b m).lantern = d.lantern := rfl
@[simp] theorem Dev.send_auxp : (d.send a b m).auxp = d.auxp := rfl
@[simp] theorem Dev.send_corrRows : (d.send a b m).corrRows = d.corrRows := rfl
@[simp] theorem Dev.send_repair : (d.send a b m).repair = d.repair := rfl
@[simp] theorem Dev.send_hoursBase : (d.send a b m).hoursBase = d.hoursBase := rfl
@[simp] theorem Dev.send_padDed : (d.send a b m).padDed = d.padDed := rfl
@[simp] theorem Dev.send_wear : (d.send a b m).wear = d.wear := rfl
@[simp] theorem Dev.send_selB : (d.send a b m).selB = d.selB := rfl
@[simp] theorem Dev.send_bcnSent : (d.send a b m).bcnSent = d.bcnSent := rfl
@[simp] theorem Dev.send_seamTx : (d.send a b m).seamTx = d.seamTx := rfl
@[simp] theorem Dev.send_seamRx : (d.send a b m).seamRx = d.seamRx := rfl
@[simp] theorem Dev.send_beacon : (d.send a b m).beacon = d.beacon := rfl
@[simp] theorem Dev.send_inst : (d.send a b m).inst = d.inst := rfl
@[simp] theorem Dev.send_cut : (d.send a b m).cut = d.cut := rfl
@[simp] theorem Dev.send_image : (d.send a b m).image = d.image := rfl
@[simp] theorem Dev.send_planNo : (d.send a b m).planNo = d.planNo := rfl
@[simp] theorem Dev.send_spareJobs : (d.send a b m).spareJobs = d.spareJobs := rfl
@[simp] theorem Dev.send_spareAt : (d.send a b m).spareAt = d.spareAt := rfl
@[simp] theorem Dev.send_spareFaults : (d.send a b m).spareFaults = d.spareFaults := rfl
@[simp] theorem Dev.send_parkedKeep : (d.send a b m).parkedKeep = d.parkedKeep := rfl
@[simp] theorem Dev.send_power : (d.send a b m).power = d.power := rfl
@[simp] theorem Dev.send_flash : (d.send a b m).flash = d.flash := rfl
@[simp] theorem Dev.send_mail : (d.send a b m).mail = d.mail := rfl
@[simp] theorem Dev.send_jtag : (d.send a b m).jtag = d.jtag := rfl
@[simp] theorem Dev.send_host : (d.send a b m).host = d.host := rfl
@[simp] theorem Dev.send_boot : (d.send a b m).boot = d.boot := rfl
@[simp] theorem Dev.send_analysis : (d.send a b m).analysis = d.analysis := rfl
@[simp] theorem Dev.send_phases : (d.send a b m).phases = d.phases := rfl
@[simp] theorem Dev.send_slack : (d.send a b m).slack = d.slack := rfl
@[simp] theorem Dev.send_slackNow : (d.send a b m).slackNow = d.slackNow := rfl
@[simp] theorem Dev.send_pipeFrame : (d.send a b m).pipeFrame = d.pipeFrame := rfl
@[simp] theorem Dev.send_pipeCount : (d.send a b m).pipeCount = d.pipeCount := rfl
@[simp] theorem Dev.send_lateTold : (d.send a b m).lateTold = d.lateTold := rfl
@[simp] theorem Dev.send_dedAt : (d.send a b m).dedAt = d.dedAt := rfl
@[simp] theorem Dev.send_enhDue : (d.send a b m).enhDue = d.enhDue := rfl
end

section
variable (d : Dev) (i : Nat)
@[simp] theorem Dev.taken_time : (d.taken i).time = d.time := rfl
@[simp] theorem Dev.taken_free : (d.taken i).free = d.free := rfl
@[simp] theorem Dev.taken_regs : (d.taken i).regs = d.regs := rfl
@[simp] theorem Dev.taken_live : (d.taken i).live = d.live := rfl
@[simp] theorem Dev.taken_shadow : (d.taken i).shadow = d.shadow := rfl
@[simp] theorem Dev.taken_mem : (d.taken i).mem = d.mem := rfl
@[simp] theorem Dev.taken_ecc : (d.taken i).ecc = d.ecc := rfl
@[simp] theorem Dev.taken_cores : (d.taken i).cores = d.cores := rfl
@[simp] theorem Dev.taken_mcReturned : (d.taken i).mcReturned = d.mcReturned := rfl
@[simp] theorem Dev.taken_sus : (d.taken i).sus = d.sus := rfl
@[simp] theorem Dev.taken_wcs : (d.taken i).wcs = d.wcs := rfl
@[simp] theorem Dev.taken_cache : (d.taken i).cache = d.cache := rfl
@[simp] theorem Dev.taken_scEventAt : (d.taken i).scEventAt = d.scEventAt := rfl
@[simp] theorem Dev.taken_ddr : (d.taken i).ddr = d.ddr := rfl
@[simp] theorem Dev.taken_hostMem : (d.taken i).hostMem = d.hostMem := rfl
@[simp] theorem Dev.taken_bes : (d.taken i).bes = d.bes := rfl
@[simp] theorem Dev.taken_lostBes : (d.taken i).lostBes = d.lostBes := rfl
@[simp] theorem Dev.taken_retired : (d.taken i).retired = d.retired := rfl
@[simp] theorem Dev.taken_healthDirty : (d.taken i).healthDirty = d.healthDirty := rfl
@[simp] theorem Dev.taken_rings : (d.taken i).rings = d.rings := rfl
@[simp] theorem Dev.taken_ringSent : (d.taken i).ringSent = d.ringSent := rfl
@[simp] theorem Dev.taken_beCredits : (d.taken i).beCredits = d.beCredits := rfl
@[simp] theorem Dev.taken_latched : (d.taken i).latched = d.latched := rfl
@[simp] theorem Dev.taken_reinitMarked : (d.taken i).reinitMarked = d.reinitMarked := rfl
@[simp] theorem Dev.taken_reinitRunning : (d.taken i).reinitRunning = d.reinitRunning := rfl
@[simp] theorem Dev.taken_reinitQuiet : (d.taken i).reinitQuiet = d.reinitQuiet := rfl
@[simp] theorem Dev.taken_reinitFrame : (d.taken i).reinitFrame = d.reinitFrame := rfl
@[simp] theorem Dev.taken_planSwitchWanted : (d.taken i).planSwitchWanted = d.planSwitchWanted := rfl
@[simp] theorem Dev.taken_unclosed : (d.taken i).unclosed = d.unclosed := rfl
@[simp] theorem Dev.taken_lostCores : (d.taken i).lostCores = d.lostCores := rfl
@[simp] theorem Dev.taken_events : (d.taken i).events = d.events := rfl
@[simp] theorem Dev.taken_limits : (d.taken i).limits = d.limits := rfl
@[simp] theorem Dev.taken_plan : (d.taken i).plan = d.plan := rfl
@[simp] theorem Dev.taken_tables : (d.taken i).tables = d.tables := rfl
@[simp] theorem Dev.taken_adopt : (d.taken i).adopt = d.adopt := rfl
@[simp] theorem Dev.taken_pipes : (d.taken i).pipes = d.pipes := rfl
@[simp] theorem Dev.taken_guardKept : (d.taken i).guardKept = d.guardKept := rfl
@[simp] theorem Dev.taken_launchQ : (d.taken i).launchQ = d.launchQ := rfl
@[simp] theorem Dev.taken_seqRun : (d.taken i).seqRun = d.seqRun := rfl
@[simp] theorem Dev.taken_streams : (d.taken i).streams = d.streams := rfl
@[simp] theorem Dev.taken_stopped : (d.taken i).stopped = d.stopped := rfl
@[simp] theorem Dev.taken_streamLatch : (d.taken i).streamLatch = d.streamLatch := rfl
@[simp] theorem Dev.taken_layers : (d.taken i).layers = d.layers := rfl
@[simp] theorem Dev.taken_outs : (d.taken i).outs = d.outs := rfl
@[simp] theorem Dev.taken_lantern : (d.taken i).lantern = d.lantern := rfl
@[simp] theorem Dev.taken_auxp : (d.taken i).auxp = d.auxp := rfl
@[simp] theorem Dev.taken_corrRows : (d.taken i).corrRows = d.corrRows := rfl
@[simp] theorem Dev.taken_repair : (d.taken i).repair = d.repair := rfl
@[simp] theorem Dev.taken_hoursBase : (d.taken i).hoursBase = d.hoursBase := rfl
@[simp] theorem Dev.taken_padDed : (d.taken i).padDed = d.padDed := rfl
@[simp] theorem Dev.taken_wear : (d.taken i).wear = d.wear := rfl
@[simp] theorem Dev.taken_selB : (d.taken i).selB = d.selB := rfl
@[simp] theorem Dev.taken_bcnSent : (d.taken i).bcnSent = d.bcnSent := rfl
@[simp] theorem Dev.taken_seamTx : (d.taken i).seamTx = d.seamTx := rfl
@[simp] theorem Dev.taken_seamRx : (d.taken i).seamRx = d.seamRx := rfl
@[simp] theorem Dev.taken_beacon : (d.taken i).beacon = d.beacon := rfl
@[simp] theorem Dev.taken_inst : (d.taken i).inst = d.inst := rfl
@[simp] theorem Dev.taken_cut : (d.taken i).cut = d.cut := rfl
@[simp] theorem Dev.taken_image : (d.taken i).image = d.image := rfl
@[simp] theorem Dev.taken_planNo : (d.taken i).planNo = d.planNo := rfl
@[simp] theorem Dev.taken_spareJobs : (d.taken i).spareJobs = d.spareJobs := rfl
@[simp] theorem Dev.taken_spareAt : (d.taken i).spareAt = d.spareAt := rfl
@[simp] theorem Dev.taken_spareFaults : (d.taken i).spareFaults = d.spareFaults := rfl
@[simp] theorem Dev.taken_parkedKeep : (d.taken i).parkedKeep = d.parkedKeep := rfl
@[simp] theorem Dev.taken_power : (d.taken i).power = d.power := rfl
@[simp] theorem Dev.taken_flash : (d.taken i).flash = d.flash := rfl
@[simp] theorem Dev.taken_mail : (d.taken i).mail = d.mail := rfl
@[simp] theorem Dev.taken_jtag : (d.taken i).jtag = d.jtag := rfl
@[simp] theorem Dev.taken_host : (d.taken i).host = d.host := rfl
@[simp] theorem Dev.taken_boot : (d.taken i).boot = d.boot := rfl
@[simp] theorem Dev.taken_analysis : (d.taken i).analysis = d.analysis := rfl
@[simp] theorem Dev.taken_phases : (d.taken i).phases = d.phases := rfl
@[simp] theorem Dev.taken_slack : (d.taken i).slack = d.slack := rfl
@[simp] theorem Dev.taken_slackNow : (d.taken i).slackNow = d.slackNow := rfl
@[simp] theorem Dev.taken_pipeFrame : (d.taken i).pipeFrame = d.pipeFrame := rfl
@[simp] theorem Dev.taken_pipeCount : (d.taken i).pipeCount = d.pipeCount := rfl
@[simp] theorem Dev.taken_lateTold : (d.taken i).lateTold = d.lateTold := rfl
@[simp] theorem Dev.taken_dedAt : (d.taken i).dedAt = d.dedAt := rfl
@[simp] theorem Dev.taken_enhDue : (d.taken i).enhDue = d.enhDue := rfl
end

section
variable (d : Dev) (a b c : Nat) (l : List Nat) (p q : Bool)
@[simp] theorem Dev.raise_time : (d.raise a b c l p q).time = d.time := rfl
@[simp] theorem Dev.raise_free : (d.raise a b c l p q).free = d.free := rfl
@[simp] theorem Dev.raise_shadow : (d.raise a b c l p q).shadow = d.shadow := rfl
@[simp] theorem Dev.raise_mem : (d.raise a b c l p q).mem = d.mem := rfl
@[simp] theorem Dev.raise_ecc : (d.raise a b c l p q).ecc = d.ecc := rfl
@[simp] theorem Dev.raise_cores : (d.raise a b c l p q).cores = d.cores := rfl
@[simp] theorem Dev.raise_fabric : (d.raise a b c l p q).fabric = d.fabric := rfl
@[simp] theorem Dev.raise_mcReturned : (d.raise a b c l p q).mcReturned = d.mcReturned := rfl
@[simp] theorem Dev.raise_sus : (d.raise a b c l p q).sus = d.sus := rfl
@[simp] theorem Dev.raise_wcs : (d.raise a b c l p q).wcs = d.wcs := rfl
@[simp] theorem Dev.raise_cache : (d.raise a b c l p q).cache = d.cache := rfl
@[simp] theorem Dev.raise_scEventAt : (d.raise a b c l p q).scEventAt = d.scEventAt := rfl
@[simp] theorem Dev.raise_ddr : (d.raise a b c l p q).ddr = d.ddr := rfl
@[simp] theorem Dev.raise_hostMem : (d.raise a b c l p q).hostMem = d.hostMem := rfl
@[simp] theorem Dev.raise_bes : (d.raise a b c l p q).bes = d.bes := rfl
@[simp] theorem Dev.raise_lostBes : (d.raise a b c l p q).lostBes = d.lostBes := rfl
@[simp] theorem Dev.raise_retired : (d.raise a b c l p q).retired = d.retired := rfl
@[simp] theorem Dev.raise_healthDirty : (d.raise a b c l p q).healthDirty = d.healthDirty := rfl
@[simp] theorem Dev.raise_rings : (d.raise a b c l p q).rings = d.rings := rfl
@[simp] theorem Dev.raise_ringSent : (d.raise a b c l p q).ringSent = d.ringSent := rfl
@[simp] theorem Dev.raise_beCredits : (d.raise a b c l p q).beCredits = d.beCredits := rfl
@[simp] theorem Dev.raise_latched : (d.raise a b c l p q).latched = d.latched := rfl
@[simp] theorem Dev.raise_reinitMarked : (d.raise a b c l p q).reinitMarked = d.reinitMarked := rfl
@[simp] theorem Dev.raise_reinitRunning : (d.raise a b c l p q).reinitRunning = d.reinitRunning := rfl
@[simp] theorem Dev.raise_reinitQuiet : (d.raise a b c l p q).reinitQuiet = d.reinitQuiet := rfl
@[simp] theorem Dev.raise_reinitFrame : (d.raise a b c l p q).reinitFrame = d.reinitFrame := rfl
@[simp] theorem Dev.raise_planSwitchWanted : (d.raise a b c l p q).planSwitchWanted = d.planSwitchWanted := rfl
@[simp] theorem Dev.raise_unclosed : (d.raise a b c l p q).unclosed = d.unclosed := rfl
@[simp] theorem Dev.raise_lostCores : (d.raise a b c l p q).lostCores = d.lostCores := rfl
@[simp] theorem Dev.raise_limits : (d.raise a b c l p q).limits = d.limits := rfl
@[simp] theorem Dev.raise_plan : (d.raise a b c l p q).plan = d.plan := rfl
@[simp] theorem Dev.raise_tables : (d.raise a b c l p q).tables = d.tables := rfl
@[simp] theorem Dev.raise_adopt : (d.raise a b c l p q).adopt = d.adopt := rfl
@[simp] theorem Dev.raise_pipes : (d.raise a b c l p q).pipes = d.pipes := rfl
@[simp] theorem Dev.raise_guardKept : (d.raise a b c l p q).guardKept = d.guardKept := rfl
@[simp] theorem Dev.raise_launchQ : (d.raise a b c l p q).launchQ = d.launchQ := rfl
@[simp] theorem Dev.raise_seqRun : (d.raise a b c l p q).seqRun = d.seqRun := rfl
@[simp] theorem Dev.raise_streams : (d.raise a b c l p q).streams = d.streams := rfl
@[simp] theorem Dev.raise_stopped : (d.raise a b c l p q).stopped = d.stopped := rfl
@[simp] theorem Dev.raise_streamLatch : (d.raise a b c l p q).streamLatch = d.streamLatch := rfl
@[simp] theorem Dev.raise_layers : (d.raise a b c l p q).layers = d.layers := rfl
@[simp] theorem Dev.raise_outs : (d.raise a b c l p q).outs = d.outs := rfl
@[simp] theorem Dev.raise_lantern : (d.raise a b c l p q).lantern = d.lantern := rfl
@[simp] theorem Dev.raise_auxp : (d.raise a b c l p q).auxp = d.auxp := rfl
@[simp] theorem Dev.raise_corrRows : (d.raise a b c l p q).corrRows = d.corrRows := rfl
@[simp] theorem Dev.raise_repair : (d.raise a b c l p q).repair = d.repair := rfl
@[simp] theorem Dev.raise_hoursBase : (d.raise a b c l p q).hoursBase = d.hoursBase := rfl
@[simp] theorem Dev.raise_padDed : (d.raise a b c l p q).padDed = d.padDed := rfl
@[simp] theorem Dev.raise_wear : (d.raise a b c l p q).wear = d.wear := rfl
@[simp] theorem Dev.raise_selB : (d.raise a b c l p q).selB = d.selB := rfl
@[simp] theorem Dev.raise_bcnSent : (d.raise a b c l p q).bcnSent = d.bcnSent := rfl
@[simp] theorem Dev.raise_seamTx : (d.raise a b c l p q).seamTx = d.seamTx := rfl
@[simp] theorem Dev.raise_seamRx : (d.raise a b c l p q).seamRx = d.seamRx := rfl
@[simp] theorem Dev.raise_beacon : (d.raise a b c l p q).beacon = d.beacon := rfl
@[simp] theorem Dev.raise_inst : (d.raise a b c l p q).inst = d.inst := rfl
@[simp] theorem Dev.raise_cut : (d.raise a b c l p q).cut = d.cut := rfl
@[simp] theorem Dev.raise_image : (d.raise a b c l p q).image = d.image := rfl
@[simp] theorem Dev.raise_planNo : (d.raise a b c l p q).planNo = d.planNo := rfl
@[simp] theorem Dev.raise_spareJobs : (d.raise a b c l p q).spareJobs = d.spareJobs := rfl
@[simp] theorem Dev.raise_spareAt : (d.raise a b c l p q).spareAt = d.spareAt := rfl
@[simp] theorem Dev.raise_spareFaults : (d.raise a b c l p q).spareFaults = d.spareFaults := rfl
@[simp] theorem Dev.raise_parkedKeep : (d.raise a b c l p q).parkedKeep = d.parkedKeep := rfl
@[simp] theorem Dev.raise_power : (d.raise a b c l p q).power = d.power := rfl
@[simp] theorem Dev.raise_flash : (d.raise a b c l p q).flash = d.flash := rfl
@[simp] theorem Dev.raise_mail : (d.raise a b c l p q).mail = d.mail := rfl
@[simp] theorem Dev.raise_jtag : (d.raise a b c l p q).jtag = d.jtag := rfl
@[simp] theorem Dev.raise_host : (d.raise a b c l p q).host = d.host := rfl
@[simp] theorem Dev.raise_boot : (d.raise a b c l p q).boot = d.boot := rfl
@[simp] theorem Dev.raise_analysis : (d.raise a b c l p q).analysis = d.analysis := rfl
@[simp] theorem Dev.raise_phases : (d.raise a b c l p q).phases = d.phases := rfl
@[simp] theorem Dev.raise_slack : (d.raise a b c l p q).slack = d.slack := rfl
@[simp] theorem Dev.raise_slackNow : (d.raise a b c l p q).slackNow = d.slackNow := rfl
@[simp] theorem Dev.raise_pipeFrame : (d.raise a b c l p q).pipeFrame = d.pipeFrame := rfl
@[simp] theorem Dev.raise_pipeCount : (d.raise a b c l p q).pipeCount = d.pipeCount := rfl
@[simp] theorem Dev.raise_lateTold : (d.raise a b c l p q).lateTold = d.lateTold := rfl
@[simp] theorem Dev.raise_dedAt : (d.raise a b c l p q).dedAt = d.dedAt := rfl
@[simp] theorem Dev.raise_enhDue : (d.raise a b c l p q).enhDue = d.enhDue := rfl
end

section
variable (d : Dev) (u : Nat) (f : Su → Su)
@[simp] theorem Dev.onSu_time : (d.onSu u f).time = d.time := rfl
@[simp] theorem Dev.onSu_free : (d.onSu u f).free = d.free := rfl
@[simp] theorem Dev.onSu_regs : (d.onSu u f).regs = d.regs := rfl
@[simp] theorem Dev.onSu_live : (d.onSu u f).live = d.live := rfl
@[simp] theorem Dev.onSu_shadow : (d.onSu u f).shadow = d.shadow := rfl
@[simp] theorem Dev.onSu_mem : (d.onSu u f).mem = d.mem := rfl
@[simp] theorem Dev.onSu_ecc : (d.onSu u f).ecc = d.ecc := rfl
@[simp] theorem Dev.onSu_cores : (d.onSu u f).cores = d.cores := rfl
@[simp] theorem Dev.onSu_fabric : (d.onSu u f).fabric = d.fabric := rfl
@[simp] theorem Dev.onSu_mcReturned : (d.onSu u f).mcReturned = d.mcReturned := rfl
@[simp] theorem Dev.onSu_wcs : (d.onSu u f).wcs = d.wcs := rfl
@[simp] theorem Dev.onSu_cache : (d.onSu u f).cache = d.cache := rfl
@[simp] theorem Dev.onSu_scEventAt : (d.onSu u f).scEventAt = d.scEventAt := rfl
@[simp] theorem Dev.onSu_ddr : (d.onSu u f).ddr = d.ddr := rfl
@[simp] theorem Dev.onSu_hostMem : (d.onSu u f).hostMem = d.hostMem := rfl
@[simp] theorem Dev.onSu_bes : (d.onSu u f).bes = d.bes := rfl
@[simp] theorem Dev.onSu_lostBes : (d.onSu u f).lostBes = d.lostBes := rfl
@[simp] theorem Dev.onSu_retired : (d.onSu u f).retired = d.retired := rfl
@[simp] theorem Dev.onSu_healthDirty : (d.onSu u f).healthDirty = d.healthDirty := rfl
@[simp] theorem Dev.onSu_rings : (d.onSu u f).rings = d.rings := rfl
@[simp] theorem Dev.onSu_ringSent : (d.onSu u f).ringSent = d.ringSent := rfl
@[simp] theorem Dev.onSu_beCredits : (d.onSu u f).beCredits = d.beCredits := rfl
@[simp] theorem Dev.onSu_latched : (d.onSu u f).latched = d.latched := rfl
@[simp] theorem Dev.onSu_reinitMarked : (d.onSu u f).reinitMarked = d.reinitMarked := rfl
@[simp] theorem Dev.onSu_reinitRunning : (d.onSu u f).reinitRunning = d.reinitRunning := rfl
@[simp] theorem Dev.onSu_reinitQuiet : (d.onSu u f).reinitQuiet = d.reinitQuiet := rfl
@[simp] theorem Dev.onSu_reinitFrame : (d.onSu u f).reinitFrame = d.reinitFrame := rfl
@[simp] theorem Dev.onSu_planSwitchWanted : (d.onSu u f).planSwitchWanted = d.planSwitchWanted := rfl
@[simp] theorem Dev.onSu_unclosed : (d.onSu u f).unclosed = d.unclosed := rfl
@[simp] theorem Dev.onSu_lostCores : (d.onSu u f).lostCores = d.lostCores := rfl
@[simp] theorem Dev.onSu_events : (d.onSu u f).events = d.events := rfl
@[simp] theorem Dev.onSu_limits : (d.onSu u f).limits = d.limits := rfl
@[simp] theorem Dev.onSu_plan : (d.onSu u f).plan = d.plan := rfl
@[simp] theorem Dev.onSu_tables : (d.onSu u f).tables = d.tables := rfl
@[simp] theorem Dev.onSu_adopt : (d.onSu u f).adopt = d.adopt := rfl
@[simp] theorem Dev.onSu_pipes : (d.onSu u f).pipes = d.pipes := rfl
@[simp] theorem Dev.onSu_guardKept : (d.onSu u f).guardKept = d.guardKept := rfl
@[simp] theorem Dev.onSu_launchQ : (d.onSu u f).launchQ = d.launchQ := rfl
@[simp] theorem Dev.onSu_seqRun : (d.onSu u f).seqRun = d.seqRun := rfl
@[simp] theorem Dev.onSu_streams : (d.onSu u f).streams = d.streams := rfl
@[simp] theorem Dev.onSu_stopped : (d.onSu u f).stopped = d.stopped := rfl
@[simp] theorem Dev.onSu_streamLatch : (d.onSu u f).streamLatch = d.streamLatch := rfl
@[simp] theorem Dev.onSu_layers : (d.onSu u f).layers = d.layers := rfl
@[simp] theorem Dev.onSu_outs : (d.onSu u f).outs = d.outs := rfl
@[simp] theorem Dev.onSu_lantern : (d.onSu u f).lantern = d.lantern := rfl
@[simp] theorem Dev.onSu_auxp : (d.onSu u f).auxp = d.auxp := rfl
@[simp] theorem Dev.onSu_corrRows : (d.onSu u f).corrRows = d.corrRows := rfl
@[simp] theorem Dev.onSu_repair : (d.onSu u f).repair = d.repair := rfl
@[simp] theorem Dev.onSu_hoursBase : (d.onSu u f).hoursBase = d.hoursBase := rfl
@[simp] theorem Dev.onSu_padDed : (d.onSu u f).padDed = d.padDed := rfl
@[simp] theorem Dev.onSu_wear : (d.onSu u f).wear = d.wear := rfl
@[simp] theorem Dev.onSu_selB : (d.onSu u f).selB = d.selB := rfl
@[simp] theorem Dev.onSu_bcnSent : (d.onSu u f).bcnSent = d.bcnSent := rfl
@[simp] theorem Dev.onSu_seamTx : (d.onSu u f).seamTx = d.seamTx := rfl
@[simp] theorem Dev.onSu_seamRx : (d.onSu u f).seamRx = d.seamRx := rfl
@[simp] theorem Dev.onSu_beacon : (d.onSu u f).beacon = d.beacon := rfl
@[simp] theorem Dev.onSu_inst : (d.onSu u f).inst = d.inst := rfl
@[simp] theorem Dev.onSu_cut : (d.onSu u f).cut = d.cut := rfl
@[simp] theorem Dev.onSu_image : (d.onSu u f).image = d.image := rfl
@[simp] theorem Dev.onSu_planNo : (d.onSu u f).planNo = d.planNo := rfl
@[simp] theorem Dev.onSu_spareJobs : (d.onSu u f).spareJobs = d.spareJobs := rfl
@[simp] theorem Dev.onSu_spareAt : (d.onSu u f).spareAt = d.spareAt := rfl
@[simp] theorem Dev.onSu_spareFaults : (d.onSu u f).spareFaults = d.spareFaults := rfl
@[simp] theorem Dev.onSu_parkedKeep : (d.onSu u f).parkedKeep = d.parkedKeep := rfl
@[simp] theorem Dev.onSu_power : (d.onSu u f).power = d.power := rfl
@[simp] theorem Dev.onSu_flash : (d.onSu u f).flash = d.flash := rfl
@[simp] theorem Dev.onSu_mail : (d.onSu u f).mail = d.mail := rfl
@[simp] theorem Dev.onSu_jtag : (d.onSu u f).jtag = d.jtag := rfl
@[simp] theorem Dev.onSu_host : (d.onSu u f).host = d.host := rfl
@[simp] theorem Dev.onSu_boot : (d.onSu u f).boot = d.boot := rfl
@[simp] theorem Dev.onSu_analysis : (d.onSu u f).analysis = d.analysis := rfl
@[simp] theorem Dev.onSu_phases : (d.onSu u f).phases = d.phases := rfl
@[simp] theorem Dev.onSu_slack : (d.onSu u f).slack = d.slack := rfl
@[simp] theorem Dev.onSu_slackNow : (d.onSu u f).slackNow = d.slackNow := rfl
@[simp] theorem Dev.onSu_pipeFrame : (d.onSu u f).pipeFrame = d.pipeFrame := rfl
@[simp] theorem Dev.onSu_pipeCount : (d.onSu u f).pipeCount = d.pipeCount := rfl
@[simp] theorem Dev.onSu_lateTold : (d.onSu u f).lateTold = d.lateTold := rfl
@[simp] theorem Dev.onSu_dedAt : (d.onSu u f).dedAt = d.dedAt := rfl
@[simp] theorem Dev.onSu_enhDue : (d.onSu u f).enhDue = d.enhDue := rfl
end

section
variable (d : Dev) (u : Nat) (f : Be → Be)
@[simp] theorem Dev.onBe_time : (d.onBe u f).time = d.time := rfl
@[simp] theorem Dev.onBe_free : (d.onBe u f).free = d.free := rfl
@[simp] theorem Dev.onBe_regs : (d.onBe u f).regs = d.regs := rfl
@[simp] theorem Dev.onBe_live : (d.onBe u f).live = d.live := rfl
@[simp] theorem Dev.onBe_shadow : (d.onBe u f).shadow = d.shadow := rfl
@[simp] theorem Dev.onBe_mem : (d.onBe u f).mem = d.mem := rfl
@[simp] theorem Dev.onBe_ecc : (d.onBe u f).ecc = d.ecc := rfl
@[simp] theorem Dev.onBe_cores : (d.onBe u f).cores = d.cores := rfl
@[simp] theorem Dev.onBe_fabric : (d.onBe u f).fabric = d.fabric := rfl
@[simp] theorem Dev.onBe_mcReturned : (d.onBe u f).mcReturned = d.mcReturned := rfl
@[simp] theorem Dev.onBe_sus : (d.onBe u f).sus = d.sus := rfl
@[simp] theorem Dev.onBe_wcs : (d.onBe u f).wcs = d.wcs := rfl
@[simp] theorem Dev.onBe_cache : (d.onBe u f).cache = d.cache := rfl
@[simp] theorem Dev.onBe_scEventAt : (d.onBe u f).scEventAt = d.scEventAt := rfl
@[simp] theorem Dev.onBe_ddr : (d.onBe u f).ddr = d.ddr := rfl
@[simp] theorem Dev.onBe_hostMem : (d.onBe u f).hostMem = d.hostMem := rfl
@[simp] theorem Dev.onBe_lostBes : (d.onBe u f).lostBes = d.lostBes := rfl
@[simp] theorem Dev.onBe_retired : (d.onBe u f).retired = d.retired := rfl
@[simp] theorem Dev.onBe_healthDirty : (d.onBe u f).healthDirty = d.healthDirty := rfl
@[simp] theorem Dev.onBe_rings : (d.onBe u f).rings = d.rings := rfl
@[simp] theorem Dev.onBe_ringSent : (d.onBe u f).ringSent = d.ringSent := rfl
@[simp] theorem Dev.onBe_beCredits : (d.onBe u f).beCredits = d.beCredits := rfl
@[simp] theorem Dev.onBe_latched : (d.onBe u f).latched = d.latched := rfl
@[simp] theorem Dev.onBe_reinitMarked : (d.onBe u f).reinitMarked = d.reinitMarked := rfl
@[simp] theorem Dev.onBe_reinitRunning : (d.onBe u f).reinitRunning = d.reinitRunning := rfl
@[simp] theorem Dev.onBe_reinitQuiet : (d.onBe u f).reinitQuiet = d.reinitQuiet := rfl
@[simp] theorem Dev.onBe_reinitFrame : (d.onBe u f).reinitFrame = d.reinitFrame := rfl
@[simp] theorem Dev.onBe_planSwitchWanted : (d.onBe u f).planSwitchWanted = d.planSwitchWanted := rfl
@[simp] theorem Dev.onBe_unclosed : (d.onBe u f).unclosed = d.unclosed := rfl
@[simp] theorem Dev.onBe_lostCores : (d.onBe u f).lostCores = d.lostCores := rfl
@[simp] theorem Dev.onBe_events : (d.onBe u f).events = d.events := rfl
@[simp] theorem Dev.onBe_limits : (d.onBe u f).limits = d.limits := rfl
@[simp] theorem Dev.onBe_plan : (d.onBe u f).plan = d.plan := rfl
@[simp] theorem Dev.onBe_tables : (d.onBe u f).tables = d.tables := rfl
@[simp] theorem Dev.onBe_adopt : (d.onBe u f).adopt = d.adopt := rfl
@[simp] theorem Dev.onBe_pipes : (d.onBe u f).pipes = d.pipes := rfl
@[simp] theorem Dev.onBe_guardKept : (d.onBe u f).guardKept = d.guardKept := rfl
@[simp] theorem Dev.onBe_launchQ : (d.onBe u f).launchQ = d.launchQ := rfl
@[simp] theorem Dev.onBe_seqRun : (d.onBe u f).seqRun = d.seqRun := rfl
@[simp] theorem Dev.onBe_streams : (d.onBe u f).streams = d.streams := rfl
@[simp] theorem Dev.onBe_stopped : (d.onBe u f).stopped = d.stopped := rfl
@[simp] theorem Dev.onBe_streamLatch : (d.onBe u f).streamLatch = d.streamLatch := rfl
@[simp] theorem Dev.onBe_layers : (d.onBe u f).layers = d.layers := rfl
@[simp] theorem Dev.onBe_outs : (d.onBe u f).outs = d.outs := rfl
@[simp] theorem Dev.onBe_lantern : (d.onBe u f).lantern = d.lantern := rfl
@[simp] theorem Dev.onBe_auxp : (d.onBe u f).auxp = d.auxp := rfl
@[simp] theorem Dev.onBe_corrRows : (d.onBe u f).corrRows = d.corrRows := rfl
@[simp] theorem Dev.onBe_repair : (d.onBe u f).repair = d.repair := rfl
@[simp] theorem Dev.onBe_hoursBase : (d.onBe u f).hoursBase = d.hoursBase := rfl
@[simp] theorem Dev.onBe_padDed : (d.onBe u f).padDed = d.padDed := rfl
@[simp] theorem Dev.onBe_wear : (d.onBe u f).wear = d.wear := rfl
@[simp] theorem Dev.onBe_selB : (d.onBe u f).selB = d.selB := rfl
@[simp] theorem Dev.onBe_bcnSent : (d.onBe u f).bcnSent = d.bcnSent := rfl
@[simp] theorem Dev.onBe_seamTx : (d.onBe u f).seamTx = d.seamTx := rfl
@[simp] theorem Dev.onBe_seamRx : (d.onBe u f).seamRx = d.seamRx := rfl
@[simp] theorem Dev.onBe_beacon : (d.onBe u f).beacon = d.beacon := rfl
@[simp] theorem Dev.onBe_inst : (d.onBe u f).inst = d.inst := rfl
@[simp] theorem Dev.onBe_cut : (d.onBe u f).cut = d.cut := rfl
@[simp] theorem Dev.onBe_image : (d.onBe u f).image = d.image := rfl
@[simp] theorem Dev.onBe_planNo : (d.onBe u f).planNo = d.planNo := rfl
@[simp] theorem Dev.onBe_spareJobs : (d.onBe u f).spareJobs = d.spareJobs := rfl
@[simp] theorem Dev.onBe_spareAt : (d.onBe u f).spareAt = d.spareAt := rfl
@[simp] theorem Dev.onBe_spareFaults : (d.onBe u f).spareFaults = d.spareFaults := rfl
@[simp] theorem Dev.onBe_parkedKeep : (d.onBe u f).parkedKeep = d.parkedKeep := rfl
@[simp] theorem Dev.onBe_power : (d.onBe u f).power = d.power := rfl
@[simp] theorem Dev.onBe_flash : (d.onBe u f).flash = d.flash := rfl
@[simp] theorem Dev.onBe_mail : (d.onBe u f).mail = d.mail := rfl
@[simp] theorem Dev.onBe_jtag : (d.onBe u f).jtag = d.jtag := rfl
@[simp] theorem Dev.onBe_host : (d.onBe u f).host = d.host := rfl
@[simp] theorem Dev.onBe_boot : (d.onBe u f).boot = d.boot := rfl
@[simp] theorem Dev.onBe_analysis : (d.onBe u f).analysis = d.analysis := rfl
@[simp] theorem Dev.onBe_phases : (d.onBe u f).phases = d.phases := rfl
@[simp] theorem Dev.onBe_slack : (d.onBe u f).slack = d.slack := rfl
@[simp] theorem Dev.onBe_slackNow : (d.onBe u f).slackNow = d.slackNow := rfl
@[simp] theorem Dev.onBe_pipeFrame : (d.onBe u f).pipeFrame = d.pipeFrame := rfl
@[simp] theorem Dev.onBe_pipeCount : (d.onBe u f).pipeCount = d.pipeCount := rfl
@[simp] theorem Dev.onBe_lateTold : (d.onBe u f).lateTold = d.lateTold := rfl
@[simp] theorem Dev.onBe_dedAt : (d.onBe u f).dedAt = d.dedAt := rfl
@[simp] theorem Dev.onBe_enhDue : (d.onBe u f).enhDue = d.enhDue := rfl
end

section
variable (d : Dev) (n w : Nat) (f : Wc → Wc)
@[simp] theorem Dev.onWc_time : (d.onWc n w f).time = d.time := rfl
@[simp] theorem Dev.onWc_free : (d.onWc n w f).free = d.free := rfl
@[simp] theorem Dev.onWc_regs : (d.onWc n w f).regs = d.regs := rfl
@[simp] theorem Dev.onWc_live : (d.onWc n w f).live = d.live := rfl
@[simp] theorem Dev.onWc_shadow : (d.onWc n w f).shadow = d.shadow := rfl
@[simp] theorem Dev.onWc_mem : (d.onWc n w f).mem = d.mem := rfl
@[simp] theorem Dev.onWc_ecc : (d.onWc n w f).ecc = d.ecc := rfl
@[simp] theorem Dev.onWc_cores : (d.onWc n w f).cores = d.cores := rfl
@[simp] theorem Dev.onWc_fabric : (d.onWc n w f).fabric = d.fabric := rfl
@[simp] theorem Dev.onWc_mcReturned : (d.onWc n w f).mcReturned = d.mcReturned := rfl
@[simp] theorem Dev.onWc_sus : (d.onWc n w f).sus = d.sus := rfl
@[simp] theorem Dev.onWc_cache : (d.onWc n w f).cache = d.cache := rfl
@[simp] theorem Dev.onWc_scEventAt : (d.onWc n w f).scEventAt = d.scEventAt := rfl
@[simp] theorem Dev.onWc_ddr : (d.onWc n w f).ddr = d.ddr := rfl
@[simp] theorem Dev.onWc_hostMem : (d.onWc n w f).hostMem = d.hostMem := rfl
@[simp] theorem Dev.onWc_bes : (d.onWc n w f).bes = d.bes := rfl
@[simp] theorem Dev.onWc_lostBes : (d.onWc n w f).lostBes = d.lostBes := rfl
@[simp] theorem Dev.onWc_retired : (d.onWc n w f).retired = d.retired := rfl
@[simp] theorem Dev.onWc_healthDirty : (d.onWc n w f).healthDirty = d.healthDirty := rfl
@[simp] theorem Dev.onWc_rings : (d.onWc n w f).rings = d.rings := rfl
@[simp] theorem Dev.onWc_ringSent : (d.onWc n w f).ringSent = d.ringSent := rfl
@[simp] theorem Dev.onWc_beCredits : (d.onWc n w f).beCredits = d.beCredits := rfl
@[simp] theorem Dev.onWc_latched : (d.onWc n w f).latched = d.latched := rfl
@[simp] theorem Dev.onWc_reinitMarked : (d.onWc n w f).reinitMarked = d.reinitMarked := rfl
@[simp] theorem Dev.onWc_reinitRunning : (d.onWc n w f).reinitRunning = d.reinitRunning := rfl
@[simp] theorem Dev.onWc_reinitQuiet : (d.onWc n w f).reinitQuiet = d.reinitQuiet := rfl
@[simp] theorem Dev.onWc_reinitFrame : (d.onWc n w f).reinitFrame = d.reinitFrame := rfl
@[simp] theorem Dev.onWc_planSwitchWanted : (d.onWc n w f).planSwitchWanted = d.planSwitchWanted := rfl
@[simp] theorem Dev.onWc_unclosed : (d.onWc n w f).unclosed = d.unclosed := rfl
@[simp] theorem Dev.onWc_lostCores : (d.onWc n w f).lostCores = d.lostCores := rfl
@[simp] theorem Dev.onWc_events : (d.onWc n w f).events = d.events := rfl
@[simp] theorem Dev.onWc_limits : (d.onWc n w f).limits = d.limits := rfl
@[simp] theorem Dev.onWc_plan : (d.onWc n w f).plan = d.plan := rfl
@[simp] theorem Dev.onWc_tables : (d.onWc n w f).tables = d.tables := rfl
@[simp] theorem Dev.onWc_adopt : (d.onWc n w f).adopt = d.adopt := rfl
@[simp] theorem Dev.onWc_pipes : (d.onWc n w f).pipes = d.pipes := rfl
@[simp] theorem Dev.onWc_guardKept : (d.onWc n w f).guardKept = d.guardKept := rfl
@[simp] theorem Dev.onWc_launchQ : (d.onWc n w f).launchQ = d.launchQ := rfl
@[simp] theorem Dev.onWc_seqRun : (d.onWc n w f).seqRun = d.seqRun := rfl
@[simp] theorem Dev.onWc_streams : (d.onWc n w f).streams = d.streams := rfl
@[simp] theorem Dev.onWc_stopped : (d.onWc n w f).stopped = d.stopped := rfl
@[simp] theorem Dev.onWc_streamLatch : (d.onWc n w f).streamLatch = d.streamLatch := rfl
@[simp] theorem Dev.onWc_layers : (d.onWc n w f).layers = d.layers := rfl
@[simp] theorem Dev.onWc_outs : (d.onWc n w f).outs = d.outs := rfl
@[simp] theorem Dev.onWc_lantern : (d.onWc n w f).lantern = d.lantern := rfl
@[simp] theorem Dev.onWc_auxp : (d.onWc n w f).auxp = d.auxp := rfl
@[simp] theorem Dev.onWc_corrRows : (d.onWc n w f).corrRows = d.corrRows := rfl
@[simp] theorem Dev.onWc_repair : (d.onWc n w f).repair = d.repair := rfl
@[simp] theorem Dev.onWc_hoursBase : (d.onWc n w f).hoursBase = d.hoursBase := rfl
@[simp] theorem Dev.onWc_padDed : (d.onWc n w f).padDed = d.padDed := rfl
@[simp] theorem Dev.onWc_wear : (d.onWc n w f).wear = d.wear := rfl
@[simp] theorem Dev.onWc_selB : (d.onWc n w f).selB = d.selB := rfl
@[simp] theorem Dev.onWc_bcnSent : (d.onWc n w f).bcnSent = d.bcnSent := rfl
@[simp] theorem Dev.onWc_seamTx : (d.onWc n w f).seamTx = d.seamTx := rfl
@[simp] theorem Dev.onWc_seamRx : (d.onWc n w f).seamRx = d.seamRx := rfl
@[simp] theorem Dev.onWc_beacon : (d.onWc n w f).beacon = d.beacon := rfl
@[simp] theorem Dev.onWc_inst : (d.onWc n w f).inst = d.inst := rfl
@[simp] theorem Dev.onWc_cut : (d.onWc n w f).cut = d.cut := rfl
@[simp] theorem Dev.onWc_image : (d.onWc n w f).image = d.image := rfl
@[simp] theorem Dev.onWc_planNo : (d.onWc n w f).planNo = d.planNo := rfl
@[simp] theorem Dev.onWc_spareJobs : (d.onWc n w f).spareJobs = d.spareJobs := rfl
@[simp] theorem Dev.onWc_spareAt : (d.onWc n w f).spareAt = d.spareAt := rfl
@[simp] theorem Dev.onWc_spareFaults : (d.onWc n w f).spareFaults = d.spareFaults := rfl
@[simp] theorem Dev.onWc_parkedKeep : (d.onWc n w f).parkedKeep = d.parkedKeep := rfl
@[simp] theorem Dev.onWc_power : (d.onWc n w f).power = d.power := rfl
@[simp] theorem Dev.onWc_flash : (d.onWc n w f).flash = d.flash := rfl
@[simp] theorem Dev.onWc_mail : (d.onWc n w f).mail = d.mail := rfl
@[simp] theorem Dev.onWc_jtag : (d.onWc n w f).jtag = d.jtag := rfl
@[simp] theorem Dev.onWc_host : (d.onWc n w f).host = d.host := rfl
@[simp] theorem Dev.onWc_boot : (d.onWc n w f).boot = d.boot := rfl
@[simp] theorem Dev.onWc_analysis : (d.onWc n w f).analysis = d.analysis := rfl
@[simp] theorem Dev.onWc_phases : (d.onWc n w f).phases = d.phases := rfl
@[simp] theorem Dev.onWc_slack : (d.onWc n w f).slack = d.slack := rfl
@[simp] theorem Dev.onWc_slackNow : (d.onWc n w f).slackNow = d.slackNow := rfl
@[simp] theorem Dev.onWc_pipeFrame : (d.onWc n w f).pipeFrame = d.pipeFrame := rfl
@[simp] theorem Dev.onWc_pipeCount : (d.onWc n w f).pipeCount = d.pipeCount := rfl
@[simp] theorem Dev.onWc_lateTold : (d.onWc n w f).lateTold = d.lateTold := rfl
@[simp] theorem Dev.onWc_dedAt : (d.onWc n w f).dedAt = d.dedAt := rfl
@[simp] theorem Dev.onWc_enhDue : (d.onWc n w f).enhDue = d.enhDue := rfl
end

section
variable (d : Dev) (o : Nat) (f : OutSt → OutSt)
@[simp] theorem Dev.onOut_time : (d.onOut o f).time = d.time := rfl
@[simp] theorem Dev.onOut_free : (d.onOut o f).free = d.free := rfl
@[simp] theorem Dev.onOut_regs : (d.onOut o f).regs = d.regs := rfl
@[simp] theorem Dev.onOut_live : (d.onOut o f).live = d.live := rfl
@[simp] theorem Dev.onOut_shadow : (d.onOut o f).shadow = d.shadow := rfl
@[simp] theorem Dev.onOut_mem : (d.onOut o f).mem = d.mem := rfl
@[simp] theorem Dev.onOut_ecc : (d.onOut o f).ecc = d.ecc := rfl
@[simp] theorem Dev.onOut_cores : (d.onOut o f).cores = d.cores := rfl
@[simp] theorem Dev.onOut_fabric : (d.onOut o f).fabric = d.fabric := rfl
@[simp] theorem Dev.onOut_mcReturned : (d.onOut o f).mcReturned = d.mcReturned := rfl
@[simp] theorem Dev.onOut_sus : (d.onOut o f).sus = d.sus := rfl
@[simp] theorem Dev.onOut_wcs : (d.onOut o f).wcs = d.wcs := rfl
@[simp] theorem Dev.onOut_cache : (d.onOut o f).cache = d.cache := rfl
@[simp] theorem Dev.onOut_scEventAt : (d.onOut o f).scEventAt = d.scEventAt := rfl
@[simp] theorem Dev.onOut_ddr : (d.onOut o f).ddr = d.ddr := rfl
@[simp] theorem Dev.onOut_hostMem : (d.onOut o f).hostMem = d.hostMem := rfl
@[simp] theorem Dev.onOut_bes : (d.onOut o f).bes = d.bes := rfl
@[simp] theorem Dev.onOut_lostBes : (d.onOut o f).lostBes = d.lostBes := rfl
@[simp] theorem Dev.onOut_retired : (d.onOut o f).retired = d.retired := rfl
@[simp] theorem Dev.onOut_healthDirty : (d.onOut o f).healthDirty = d.healthDirty := rfl
@[simp] theorem Dev.onOut_rings : (d.onOut o f).rings = d.rings := rfl
@[simp] theorem Dev.onOut_ringSent : (d.onOut o f).ringSent = d.ringSent := rfl
@[simp] theorem Dev.onOut_beCredits : (d.onOut o f).beCredits = d.beCredits := rfl
@[simp] theorem Dev.onOut_latched : (d.onOut o f).latched = d.latched := rfl
@[simp] theorem Dev.onOut_reinitMarked : (d.onOut o f).reinitMarked = d.reinitMarked := rfl
@[simp] theorem Dev.onOut_reinitRunning : (d.onOut o f).reinitRunning = d.reinitRunning := rfl
@[simp] theorem Dev.onOut_reinitQuiet : (d.onOut o f).reinitQuiet = d.reinitQuiet := rfl
@[simp] theorem Dev.onOut_reinitFrame : (d.onOut o f).reinitFrame = d.reinitFrame := rfl
@[simp] theorem Dev.onOut_planSwitchWanted : (d.onOut o f).planSwitchWanted = d.planSwitchWanted := rfl
@[simp] theorem Dev.onOut_unclosed : (d.onOut o f).unclosed = d.unclosed := rfl
@[simp] theorem Dev.onOut_lostCores : (d.onOut o f).lostCores = d.lostCores := rfl
@[simp] theorem Dev.onOut_events : (d.onOut o f).events = d.events := rfl
@[simp] theorem Dev.onOut_limits : (d.onOut o f).limits = d.limits := rfl
@[simp] theorem Dev.onOut_plan : (d.onOut o f).plan = d.plan := rfl
@[simp] theorem Dev.onOut_tables : (d.onOut o f).tables = d.tables := rfl
@[simp] theorem Dev.onOut_adopt : (d.onOut o f).adopt = d.adopt := rfl
@[simp] theorem Dev.onOut_pipes : (d.onOut o f).pipes = d.pipes := rfl
@[simp] theorem Dev.onOut_guardKept : (d.onOut o f).guardKept = d.guardKept := rfl
@[simp] theorem Dev.onOut_launchQ : (d.onOut o f).launchQ = d.launchQ := rfl
@[simp] theorem Dev.onOut_seqRun : (d.onOut o f).seqRun = d.seqRun := rfl
@[simp] theorem Dev.onOut_streams : (d.onOut o f).streams = d.streams := rfl
@[simp] theorem Dev.onOut_stopped : (d.onOut o f).stopped = d.stopped := rfl
@[simp] theorem Dev.onOut_streamLatch : (d.onOut o f).streamLatch = d.streamLatch := rfl
@[simp] theorem Dev.onOut_layers : (d.onOut o f).layers = d.layers := rfl
@[simp] theorem Dev.onOut_lantern : (d.onOut o f).lantern = d.lantern := rfl
@[simp] theorem Dev.onOut_auxp : (d.onOut o f).auxp = d.auxp := rfl
@[simp] theorem Dev.onOut_corrRows : (d.onOut o f).corrRows = d.corrRows := rfl
@[simp] theorem Dev.onOut_repair : (d.onOut o f).repair = d.repair := rfl
@[simp] theorem Dev.onOut_hoursBase : (d.onOut o f).hoursBase = d.hoursBase := rfl
@[simp] theorem Dev.onOut_padDed : (d.onOut o f).padDed = d.padDed := rfl
@[simp] theorem Dev.onOut_wear : (d.onOut o f).wear = d.wear := rfl
@[simp] theorem Dev.onOut_selB : (d.onOut o f).selB = d.selB := rfl
@[simp] theorem Dev.onOut_bcnSent : (d.onOut o f).bcnSent = d.bcnSent := rfl
@[simp] theorem Dev.onOut_seamTx : (d.onOut o f).seamTx = d.seamTx := rfl
@[simp] theorem Dev.onOut_seamRx : (d.onOut o f).seamRx = d.seamRx := rfl
@[simp] theorem Dev.onOut_beacon : (d.onOut o f).beacon = d.beacon := rfl
@[simp] theorem Dev.onOut_inst : (d.onOut o f).inst = d.inst := rfl
@[simp] theorem Dev.onOut_cut : (d.onOut o f).cut = d.cut := rfl
@[simp] theorem Dev.onOut_image : (d.onOut o f).image = d.image := rfl
@[simp] theorem Dev.onOut_planNo : (d.onOut o f).planNo = d.planNo := rfl
@[simp] theorem Dev.onOut_spareJobs : (d.onOut o f).spareJobs = d.spareJobs := rfl
@[simp] theorem Dev.onOut_spareAt : (d.onOut o f).spareAt = d.spareAt := rfl
@[simp] theorem Dev.onOut_spareFaults : (d.onOut o f).spareFaults = d.spareFaults := rfl
@[simp] theorem Dev.onOut_parkedKeep : (d.onOut o f).parkedKeep = d.parkedKeep := rfl
@[simp] theorem Dev.onOut_power : (d.onOut o f).power = d.power := rfl
@[simp] theorem Dev.onOut_flash : (d.onOut o f).flash = d.flash := rfl
@[simp] theorem Dev.onOut_mail : (d.onOut o f).mail = d.mail := rfl
@[simp] theorem Dev.onOut_jtag : (d.onOut o f).jtag = d.jtag := rfl
@[simp] theorem Dev.onOut_host : (d.onOut o f).host = d.host := rfl
@[simp] theorem Dev.onOut_boot : (d.onOut o f).boot = d.boot := rfl
@[simp] theorem Dev.onOut_analysis : (d.onOut o f).analysis = d.analysis := rfl
@[simp] theorem Dev.onOut_phases : (d.onOut o f).phases = d.phases := rfl
@[simp] theorem Dev.onOut_slack : (d.onOut o f).slack = d.slack := rfl
@[simp] theorem Dev.onOut_slackNow : (d.onOut o f).slackNow = d.slackNow := rfl
@[simp] theorem Dev.onOut_pipeFrame : (d.onOut o f).pipeFrame = d.pipeFrame := rfl
@[simp] theorem Dev.onOut_pipeCount : (d.onOut o f).pipeCount = d.pipeCount := rfl
@[simp] theorem Dev.onOut_lateTold : (d.onOut o f).lateTold = d.lateTold := rfl
@[simp] theorem Dev.onOut_dedAt : (d.onOut o f).dedAt = d.dedAt := rfl
@[simp] theorem Dev.onOut_enhDue : (d.onOut o f).enhDue = d.enhDue := rfl
end

section
variable (d : Dev) (j : Nat) (f : Layer → Layer)
@[simp] theorem Dev.onLayer_time : (d.onLayer j f).time = d.time := rfl
@[simp] theorem Dev.onLayer_free : (d.onLayer j f).free = d.free := rfl
@[simp] theorem Dev.onLayer_regs : (d.onLayer j f).regs = d.regs := rfl
@[simp] theorem Dev.onLayer_live : (d.onLayer j f).live = d.live := rfl
@[simp] theorem Dev.onLayer_shadow : (d.onLayer j f).shadow = d.shadow := rfl
@[simp] theorem Dev.onLayer_mem : (d.onLayer j f).mem = d.mem := rfl
@[simp] theorem Dev.onLayer_ecc : (d.onLayer j f).ecc = d.ecc := rfl
@[simp] theorem Dev.onLayer_cores : (d.onLayer j f).cores = d.cores := rfl
@[simp] theorem Dev.onLayer_fabric : (d.onLayer j f).fabric = d.fabric := rfl
@[simp] theorem Dev.onLayer_mcReturned : (d.onLayer j f).mcReturned = d.mcReturned := rfl
@[simp] theorem Dev.onLayer_sus : (d.onLayer j f).sus = d.sus := rfl
@[simp] theorem Dev.onLayer_wcs : (d.onLayer j f).wcs = d.wcs := rfl
@[simp] theorem Dev.onLayer_cache : (d.onLayer j f).cache = d.cache := rfl
@[simp] theorem Dev.onLayer_scEventAt : (d.onLayer j f).scEventAt = d.scEventAt := rfl
@[simp] theorem Dev.onLayer_ddr : (d.onLayer j f).ddr = d.ddr := rfl
@[simp] theorem Dev.onLayer_hostMem : (d.onLayer j f).hostMem = d.hostMem := rfl
@[simp] theorem Dev.onLayer_bes : (d.onLayer j f).bes = d.bes := rfl
@[simp] theorem Dev.onLayer_lostBes : (d.onLayer j f).lostBes = d.lostBes := rfl
@[simp] theorem Dev.onLayer_retired : (d.onLayer j f).retired = d.retired := rfl
@[simp] theorem Dev.onLayer_healthDirty : (d.onLayer j f).healthDirty = d.healthDirty := rfl
@[simp] theorem Dev.onLayer_rings : (d.onLayer j f).rings = d.rings := rfl
@[simp] theorem Dev.onLayer_ringSent : (d.onLayer j f).ringSent = d.ringSent := rfl
@[simp] theorem Dev.onLayer_beCredits : (d.onLayer j f).beCredits = d.beCredits := rfl
@[simp] theorem Dev.onLayer_latched : (d.onLayer j f).latched = d.latched := rfl
@[simp] theorem Dev.onLayer_reinitMarked : (d.onLayer j f).reinitMarked = d.reinitMarked := rfl
@[simp] theorem Dev.onLayer_reinitRunning : (d.onLayer j f).reinitRunning = d.reinitRunning := rfl
@[simp] theorem Dev.onLayer_reinitQuiet : (d.onLayer j f).reinitQuiet = d.reinitQuiet := rfl
@[simp] theorem Dev.onLayer_reinitFrame : (d.onLayer j f).reinitFrame = d.reinitFrame := rfl
@[simp] theorem Dev.onLayer_planSwitchWanted : (d.onLayer j f).planSwitchWanted = d.planSwitchWanted := rfl
@[simp] theorem Dev.onLayer_unclosed : (d.onLayer j f).unclosed = d.unclosed := rfl
@[simp] theorem Dev.onLayer_lostCores : (d.onLayer j f).lostCores = d.lostCores := rfl
@[simp] theorem Dev.onLayer_events : (d.onLayer j f).events = d.events := rfl
@[simp] theorem Dev.onLayer_limits : (d.onLayer j f).limits = d.limits := rfl
@[simp] theorem Dev.onLayer_plan : (d.onLayer j f).plan = d.plan := rfl
@[simp] theorem Dev.onLayer_tables : (d.onLayer j f).tables = d.tables := rfl
@[simp] theorem Dev.onLayer_adopt : (d.onLayer j f).adopt = d.adopt := rfl
@[simp] theorem Dev.onLayer_pipes : (d.onLayer j f).pipes = d.pipes := rfl
@[simp] theorem Dev.onLayer_guardKept : (d.onLayer j f).guardKept = d.guardKept := rfl
@[simp] theorem Dev.onLayer_launchQ : (d.onLayer j f).launchQ = d.launchQ := rfl
@[simp] theorem Dev.onLayer_seqRun : (d.onLayer j f).seqRun = d.seqRun := rfl
@[simp] theorem Dev.onLayer_streams : (d.onLayer j f).streams = d.streams := rfl
@[simp] theorem Dev.onLayer_stopped : (d.onLayer j f).stopped = d.stopped := rfl
@[simp] theorem Dev.onLayer_streamLatch : (d.onLayer j f).streamLatch = d.streamLatch := rfl
@[simp] theorem Dev.onLayer_outs : (d.onLayer j f).outs = d.outs := rfl
@[simp] theorem Dev.onLayer_lantern : (d.onLayer j f).lantern = d.lantern := rfl
@[simp] theorem Dev.onLayer_auxp : (d.onLayer j f).auxp = d.auxp := rfl
@[simp] theorem Dev.onLayer_corrRows : (d.onLayer j f).corrRows = d.corrRows := rfl
@[simp] theorem Dev.onLayer_repair : (d.onLayer j f).repair = d.repair := rfl
@[simp] theorem Dev.onLayer_hoursBase : (d.onLayer j f).hoursBase = d.hoursBase := rfl
@[simp] theorem Dev.onLayer_padDed : (d.onLayer j f).padDed = d.padDed := rfl
@[simp] theorem Dev.onLayer_wear : (d.onLayer j f).wear = d.wear := rfl
@[simp] theorem Dev.onLayer_selB : (d.onLayer j f).selB = d.selB := rfl
@[simp] theorem Dev.onLayer_bcnSent : (d.onLayer j f).bcnSent = d.bcnSent := rfl
@[simp] theorem Dev.onLayer_seamTx : (d.onLayer j f).seamTx = d.seamTx := rfl
@[simp] theorem Dev.onLayer_seamRx : (d.onLayer j f).seamRx = d.seamRx := rfl
@[simp] theorem Dev.onLayer_beacon : (d.onLayer j f).beacon = d.beacon := rfl
@[simp] theorem Dev.onLayer_inst : (d.onLayer j f).inst = d.inst := rfl
@[simp] theorem Dev.onLayer_cut : (d.onLayer j f).cut = d.cut := rfl
@[simp] theorem Dev.onLayer_image : (d.onLayer j f).image = d.image := rfl
@[simp] theorem Dev.onLayer_planNo : (d.onLayer j f).planNo = d.planNo := rfl
@[simp] theorem Dev.onLayer_spareJobs : (d.onLayer j f).spareJobs = d.spareJobs := rfl
@[simp] theorem Dev.onLayer_spareAt : (d.onLayer j f).spareAt = d.spareAt := rfl
@[simp] theorem Dev.onLayer_spareFaults : (d.onLayer j f).spareFaults = d.spareFaults := rfl
@[simp] theorem Dev.onLayer_parkedKeep : (d.onLayer j f).parkedKeep = d.parkedKeep := rfl
@[simp] theorem Dev.onLayer_power : (d.onLayer j f).power = d.power := rfl
@[simp] theorem Dev.onLayer_flash : (d.onLayer j f).flash = d.flash := rfl
@[simp] theorem Dev.onLayer_mail : (d.onLayer j f).mail = d.mail := rfl
@[simp] theorem Dev.onLayer_jtag : (d.onLayer j f).jtag = d.jtag := rfl
@[simp] theorem Dev.onLayer_host : (d.onLayer j f).host = d.host := rfl
@[simp] theorem Dev.onLayer_boot : (d.onLayer j f).boot = d.boot := rfl
@[simp] theorem Dev.onLayer_analysis : (d.onLayer j f).analysis = d.analysis := rfl
@[simp] theorem Dev.onLayer_phases : (d.onLayer j f).phases = d.phases := rfl
@[simp] theorem Dev.onLayer_slack : (d.onLayer j f).slack = d.slack := rfl
@[simp] theorem Dev.onLayer_slackNow : (d.onLayer j f).slackNow = d.slackNow := rfl
@[simp] theorem Dev.onLayer_pipeFrame : (d.onLayer j f).pipeFrame = d.pipeFrame := rfl
@[simp] theorem Dev.onLayer_pipeCount : (d.onLayer j f).pipeCount = d.pipeCount := rfl
@[simp] theorem Dev.onLayer_lateTold : (d.onLayer j f).lateTold = d.lateTold := rfl
@[simp] theorem Dev.onLayer_dedAt : (d.onLayer j f).dedAt = d.dedAt := rfl
@[simp] theorem Dev.onLayer_enhDue : (d.onLayer j f).enhDue = d.enhDue := rfl
end

section
variable (d : Dev) (p : Nat) (f : Pipe → Pipe)
@[simp] theorem Dev.onPipe_time : (d.onPipe p f).time = d.time := rfl
@[simp] theorem Dev.onPipe_free : (d.onPipe p f).free = d.free := rfl
@[simp] theorem Dev.onPipe_regs : (d.onPipe p f).regs = d.regs := rfl
@[simp] theorem Dev.onPipe_live : (d.onPipe p f).live = d.live := rfl
@[simp] theorem Dev.onPipe_shadow : (d.onPipe p f).shadow = d.shadow := rfl
@[simp] theorem Dev.onPipe_mem : (d.onPipe p f).mem = d.mem := rfl
@[simp] theorem Dev.onPipe_ecc : (d.onPipe p f).ecc = d.ecc := rfl
@[simp] theorem Dev.onPipe_cores : (d.onPipe p f).cores = d.cores := rfl
@[simp] theorem Dev.onPipe_fabric : (d.onPipe p f).fabric = d.fabric := rfl
@[simp] theorem Dev.onPipe_mcReturned : (d.onPipe p f).mcReturned = d.mcReturned := rfl
@[simp] theorem Dev.onPipe_sus : (d.onPipe p f).sus = d.sus := rfl
@[simp] theorem Dev.onPipe_wcs : (d.onPipe p f).wcs = d.wcs := rfl
@[simp] theorem Dev.onPipe_cache : (d.onPipe p f).cache = d.cache := rfl
@[simp] theorem Dev.onPipe_scEventAt : (d.onPipe p f).scEventAt = d.scEventAt := rfl
@[simp] theorem Dev.onPipe_ddr : (d.onPipe p f).ddr = d.ddr := rfl
@[simp] theorem Dev.onPipe_hostMem : (d.onPipe p f).hostMem = d.hostMem := rfl
@[simp] theorem Dev.onPipe_bes : (d.onPipe p f).bes = d.bes := rfl
@[simp] theorem Dev.onPipe_lostBes : (d.onPipe p f).lostBes = d.lostBes := rfl
@[simp] theorem Dev.onPipe_retired : (d.onPipe p f).retired = d.retired := rfl
@[simp] theorem Dev.onPipe_healthDirty : (d.onPipe p f).healthDirty = d.healthDirty := rfl
@[simp] theorem Dev.onPipe_rings : (d.onPipe p f).rings = d.rings := rfl
@[simp] theorem Dev.onPipe_ringSent : (d.onPipe p f).ringSent = d.ringSent := rfl
@[simp] theorem Dev.onPipe_beCredits : (d.onPipe p f).beCredits = d.beCredits := rfl
@[simp] theorem Dev.onPipe_latched : (d.onPipe p f).latched = d.latched := rfl
@[simp] theorem Dev.onPipe_reinitMarked : (d.onPipe p f).reinitMarked = d.reinitMarked := rfl
@[simp] theorem Dev.onPipe_reinitRunning : (d.onPipe p f).reinitRunning = d.reinitRunning := rfl
@[simp] theorem Dev.onPipe_reinitQuiet : (d.onPipe p f).reinitQuiet = d.reinitQuiet := rfl
@[simp] theorem Dev.onPipe_reinitFrame : (d.onPipe p f).reinitFrame = d.reinitFrame := rfl
@[simp] theorem Dev.onPipe_planSwitchWanted : (d.onPipe p f).planSwitchWanted = d.planSwitchWanted := rfl
@[simp] theorem Dev.onPipe_unclosed : (d.onPipe p f).unclosed = d.unclosed := rfl
@[simp] theorem Dev.onPipe_lostCores : (d.onPipe p f).lostCores = d.lostCores := rfl
@[simp] theorem Dev.onPipe_events : (d.onPipe p f).events = d.events := rfl
@[simp] theorem Dev.onPipe_limits : (d.onPipe p f).limits = d.limits := rfl
@[simp] theorem Dev.onPipe_plan : (d.onPipe p f).plan = d.plan := rfl
@[simp] theorem Dev.onPipe_tables : (d.onPipe p f).tables = d.tables := rfl
@[simp] theorem Dev.onPipe_adopt : (d.onPipe p f).adopt = d.adopt := rfl
@[simp] theorem Dev.onPipe_guardKept : (d.onPipe p f).guardKept = d.guardKept := rfl
@[simp] theorem Dev.onPipe_launchQ : (d.onPipe p f).launchQ = d.launchQ := rfl
@[simp] theorem Dev.onPipe_seqRun : (d.onPipe p f).seqRun = d.seqRun := rfl
@[simp] theorem Dev.onPipe_streams : (d.onPipe p f).streams = d.streams := rfl
@[simp] theorem Dev.onPipe_stopped : (d.onPipe p f).stopped = d.stopped := rfl
@[simp] theorem Dev.onPipe_streamLatch : (d.onPipe p f).streamLatch = d.streamLatch := rfl
@[simp] theorem Dev.onPipe_layers : (d.onPipe p f).layers = d.layers := rfl
@[simp] theorem Dev.onPipe_outs : (d.onPipe p f).outs = d.outs := rfl
@[simp] theorem Dev.onPipe_lantern : (d.onPipe p f).lantern = d.lantern := rfl
@[simp] theorem Dev.onPipe_auxp : (d.onPipe p f).auxp = d.auxp := rfl
@[simp] theorem Dev.onPipe_corrRows : (d.onPipe p f).corrRows = d.corrRows := rfl
@[simp] theorem Dev.onPipe_repair : (d.onPipe p f).repair = d.repair := rfl
@[simp] theorem Dev.onPipe_hoursBase : (d.onPipe p f).hoursBase = d.hoursBase := rfl
@[simp] theorem Dev.onPipe_padDed : (d.onPipe p f).padDed = d.padDed := rfl
@[simp] theorem Dev.onPipe_wear : (d.onPipe p f).wear = d.wear := rfl
@[simp] theorem Dev.onPipe_selB : (d.onPipe p f).selB = d.selB := rfl
@[simp] theorem Dev.onPipe_bcnSent : (d.onPipe p f).bcnSent = d.bcnSent := rfl
@[simp] theorem Dev.onPipe_seamTx : (d.onPipe p f).seamTx = d.seamTx := rfl
@[simp] theorem Dev.onPipe_seamRx : (d.onPipe p f).seamRx = d.seamRx := rfl
@[simp] theorem Dev.onPipe_beacon : (d.onPipe p f).beacon = d.beacon := rfl
@[simp] theorem Dev.onPipe_inst : (d.onPipe p f).inst = d.inst := rfl
@[simp] theorem Dev.onPipe_cut : (d.onPipe p f).cut = d.cut := rfl
@[simp] theorem Dev.onPipe_image : (d.onPipe p f).image = d.image := rfl
@[simp] theorem Dev.onPipe_planNo : (d.onPipe p f).planNo = d.planNo := rfl
@[simp] theorem Dev.onPipe_spareJobs : (d.onPipe p f).spareJobs = d.spareJobs := rfl
@[simp] theorem Dev.onPipe_spareAt : (d.onPipe p f).spareAt = d.spareAt := rfl
@[simp] theorem Dev.onPipe_spareFaults : (d.onPipe p f).spareFaults = d.spareFaults := rfl
@[simp] theorem Dev.onPipe_parkedKeep : (d.onPipe p f).parkedKeep = d.parkedKeep := rfl
@[simp] theorem Dev.onPipe_power : (d.onPipe p f).power = d.power := rfl
@[simp] theorem Dev.onPipe_flash : (d.onPipe p f).flash = d.flash := rfl
@[simp] theorem Dev.onPipe_mail : (d.onPipe p f).mail = d.mail := rfl
@[simp] theorem Dev.onPipe_jtag : (d.onPipe p f).jtag = d.jtag := rfl
@[simp] theorem Dev.onPipe_host : (d.onPipe p f).host = d.host := rfl
@[simp] theorem Dev.onPipe_boot : (d.onPipe p f).boot = d.boot := rfl
@[simp] theorem Dev.onPipe_analysis : (d.onPipe p f).analysis = d.analysis := rfl
@[simp] theorem Dev.onPipe_phases : (d.onPipe p f).phases = d.phases := rfl
@[simp] theorem Dev.onPipe_slack : (d.onPipe p f).slack = d.slack := rfl
@[simp] theorem Dev.onPipe_slackNow : (d.onPipe p f).slackNow = d.slackNow := rfl
@[simp] theorem Dev.onPipe_pipeFrame : (d.onPipe p f).pipeFrame = d.pipeFrame := rfl
@[simp] theorem Dev.onPipe_pipeCount : (d.onPipe p f).pipeCount = d.pipeCount := rfl
@[simp] theorem Dev.onPipe_lateTold : (d.onPipe p f).lateTold = d.lateTold := rfl
@[simp] theorem Dev.onPipe_dedAt : (d.onPipe p f).dedAt = d.dedAt := rfl
@[simp] theorem Dev.onPipe_enhDue : (d.onPipe p f).enhDue = d.enhDue := rfl
end

section
variable (d : Dev) (i : Nat) (f : Stream → Stream)
@[simp] theorem Dev.onStream_time : (d.onStream i f).time = d.time := rfl
@[simp] theorem Dev.onStream_free : (d.onStream i f).free = d.free := rfl
@[simp] theorem Dev.onStream_regs : (d.onStream i f).regs = d.regs := rfl
@[simp] theorem Dev.onStream_live : (d.onStream i f).live = d.live := rfl
@[simp] theorem Dev.onStream_shadow : (d.onStream i f).shadow = d.shadow := rfl
@[simp] theorem Dev.onStream_mem : (d.onStream i f).mem = d.mem := rfl
@[simp] theorem Dev.onStream_ecc : (d.onStream i f).ecc = d.ecc := rfl
@[simp] theorem Dev.onStream_cores : (d.onStream i f).cores = d.cores := rfl
@[simp] theorem Dev.onStream_fabric : (d.onStream i f).fabric = d.fabric := rfl
@[simp] theorem Dev.onStream_mcReturned : (d.onStream i f).mcReturned = d.mcReturned := rfl
@[simp] theorem Dev.onStream_sus : (d.onStream i f).sus = d.sus := rfl
@[simp] theorem Dev.onStream_wcs : (d.onStream i f).wcs = d.wcs := rfl
@[simp] theorem Dev.onStream_cache : (d.onStream i f).cache = d.cache := rfl
@[simp] theorem Dev.onStream_scEventAt : (d.onStream i f).scEventAt = d.scEventAt := rfl
@[simp] theorem Dev.onStream_ddr : (d.onStream i f).ddr = d.ddr := rfl
@[simp] theorem Dev.onStream_hostMem : (d.onStream i f).hostMem = d.hostMem := rfl
@[simp] theorem Dev.onStream_bes : (d.onStream i f).bes = d.bes := rfl
@[simp] theorem Dev.onStream_lostBes : (d.onStream i f).lostBes = d.lostBes := rfl
@[simp] theorem Dev.onStream_retired : (d.onStream i f).retired = d.retired := rfl
@[simp] theorem Dev.onStream_healthDirty : (d.onStream i f).healthDirty = d.healthDirty := rfl
@[simp] theorem Dev.onStream_rings : (d.onStream i f).rings = d.rings := rfl
@[simp] theorem Dev.onStream_ringSent : (d.onStream i f).ringSent = d.ringSent := rfl
@[simp] theorem Dev.onStream_beCredits : (d.onStream i f).beCredits = d.beCredits := rfl
@[simp] theorem Dev.onStream_latched : (d.onStream i f).latched = d.latched := rfl
@[simp] theorem Dev.onStream_reinitMarked : (d.onStream i f).reinitMarked = d.reinitMarked := rfl
@[simp] theorem Dev.onStream_reinitRunning : (d.onStream i f).reinitRunning = d.reinitRunning := rfl
@[simp] theorem Dev.onStream_reinitQuiet : (d.onStream i f).reinitQuiet = d.reinitQuiet := rfl
@[simp] theorem Dev.onStream_reinitFrame : (d.onStream i f).reinitFrame = d.reinitFrame := rfl
@[simp] theorem Dev.onStream_planSwitchWanted : (d.onStream i f).planSwitchWanted = d.planSwitchWanted := rfl
@[simp] theorem Dev.onStream_unclosed : (d.onStream i f).unclosed = d.unclosed := rfl
@[simp] theorem Dev.onStream_lostCores : (d.onStream i f).lostCores = d.lostCores := rfl
@[simp] theorem Dev.onStream_events : (d.onStream i f).events = d.events := rfl
@[simp] theorem Dev.onStream_limits : (d.onStream i f).limits = d.limits := rfl
@[simp] theorem Dev.onStream_plan : (d.onStream i f).plan = d.plan := rfl
@[simp] theorem Dev.onStream_tables : (d.onStream i f).tables = d.tables := rfl
@[simp] theorem Dev.onStream_adopt : (d.onStream i f).adopt = d.adopt := rfl
@[simp] theorem Dev.onStream_pipes : (d.onStream i f).pipes = d.pipes := rfl
@[simp] theorem Dev.onStream_guardKept : (d.onStream i f).guardKept = d.guardKept := rfl
@[simp] theorem Dev.onStream_launchQ : (d.onStream i f).launchQ = d.launchQ := rfl
@[simp] theorem Dev.onStream_seqRun : (d.onStream i f).seqRun = d.seqRun := rfl
@[simp] theorem Dev.onStream_stopped : (d.onStream i f).stopped = d.stopped := rfl
@[simp] theorem Dev.onStream_streamLatch : (d.onStream i f).streamLatch = d.streamLatch := rfl
@[simp] theorem Dev.onStream_layers : (d.onStream i f).layers = d.layers := rfl
@[simp] theorem Dev.onStream_outs : (d.onStream i f).outs = d.outs := rfl
@[simp] theorem Dev.onStream_lantern : (d.onStream i f).lantern = d.lantern := rfl
@[simp] theorem Dev.onStream_auxp : (d.onStream i f).auxp = d.auxp := rfl
@[simp] theorem Dev.onStream_corrRows : (d.onStream i f).corrRows = d.corrRows := rfl
@[simp] theorem Dev.onStream_repair : (d.onStream i f).repair = d.repair := rfl
@[simp] theorem Dev.onStream_hoursBase : (d.onStream i f).hoursBase = d.hoursBase := rfl
@[simp] theorem Dev.onStream_padDed : (d.onStream i f).padDed = d.padDed := rfl
@[simp] theorem Dev.onStream_wear : (d.onStream i f).wear = d.wear := rfl
@[simp] theorem Dev.onStream_selB : (d.onStream i f).selB = d.selB := rfl
@[simp] theorem Dev.onStream_bcnSent : (d.onStream i f).bcnSent = d.bcnSent := rfl
@[simp] theorem Dev.onStream_seamTx : (d.onStream i f).seamTx = d.seamTx := rfl
@[simp] theorem Dev.onStream_seamRx : (d.onStream i f).seamRx = d.seamRx := rfl
@[simp] theorem Dev.onStream_beacon : (d.onStream i f).beacon = d.beacon := rfl
@[simp] theorem Dev.onStream_inst : (d.onStream i f).inst = d.inst := rfl
@[simp] theorem Dev.onStream_cut : (d.onStream i f).cut = d.cut := rfl
@[simp] theorem Dev.onStream_image : (d.onStream i f).image = d.image := rfl
@[simp] theorem Dev.onStream_planNo : (d.onStream i f).planNo = d.planNo := rfl
@[simp] theorem Dev.onStream_spareJobs : (d.onStream i f).spareJobs = d.spareJobs := rfl
@[simp] theorem Dev.onStream_spareAt : (d.onStream i f).spareAt = d.spareAt := rfl
@[simp] theorem Dev.onStream_spareFaults : (d.onStream i f).spareFaults = d.spareFaults := rfl
@[simp] theorem Dev.onStream_parkedKeep : (d.onStream i f).parkedKeep = d.parkedKeep := rfl
@[simp] theorem Dev.onStream_power : (d.onStream i f).power = d.power := rfl
@[simp] theorem Dev.onStream_flash : (d.onStream i f).flash = d.flash := rfl
@[simp] theorem Dev.onStream_mail : (d.onStream i f).mail = d.mail := rfl
@[simp] theorem Dev.onStream_jtag : (d.onStream i f).jtag = d.jtag := rfl
@[simp] theorem Dev.onStream_host : (d.onStream i f).host = d.host := rfl
@[simp] theorem Dev.onStream_boot : (d.onStream i f).boot = d.boot := rfl
@[simp] theorem Dev.onStream_analysis : (d.onStream i f).analysis = d.analysis := rfl
@[simp] theorem Dev.onStream_phases : (d.onStream i f).phases = d.phases := rfl
@[simp] theorem Dev.onStream_slack : (d.onStream i f).slack = d.slack := rfl
@[simp] theorem Dev.onStream_slackNow : (d.onStream i f).slackNow = d.slackNow := rfl
@[simp] theorem Dev.onStream_pipeFrame : (d.onStream i f).pipeFrame = d.pipeFrame := rfl
@[simp] theorem Dev.onStream_pipeCount : (d.onStream i f).pipeCount = d.pipeCount := rfl
@[simp] theorem Dev.onStream_lateTold : (d.onStream i f).lateTold = d.lateTold := rfl
@[simp] theorem Dev.onStream_dedAt : (d.onStream i f).dedAt = d.dedAt := rfl
@[simp] theorem Dev.onStream_enhDue : (d.onStream i f).enhDue = d.enhDue := rfl
end

section
variable (d : Dev) (f : HostSide → HostSide)
@[simp] theorem Dev.onHost_time : (d.onHost f).time = d.time := rfl
@[simp] theorem Dev.onHost_free : (d.onHost f).free = d.free := rfl
@[simp] theorem Dev.onHost_regs : (d.onHost f).regs = d.regs := rfl
@[simp] theorem Dev.onHost_live : (d.onHost f).live = d.live := rfl
@[simp] theorem Dev.onHost_shadow : (d.onHost f).shadow = d.shadow := rfl
@[simp] theorem Dev.onHost_mem : (d.onHost f).mem = d.mem := rfl
@[simp] theorem Dev.onHost_ecc : (d.onHost f).ecc = d.ecc := rfl
@[simp] theorem Dev.onHost_cores : (d.onHost f).cores = d.cores := rfl
@[simp] theorem Dev.onHost_fabric : (d.onHost f).fabric = d.fabric := rfl
@[simp] theorem Dev.onHost_mcReturned : (d.onHost f).mcReturned = d.mcReturned := rfl
@[simp] theorem Dev.onHost_sus : (d.onHost f).sus = d.sus := rfl
@[simp] theorem Dev.onHost_wcs : (d.onHost f).wcs = d.wcs := rfl
@[simp] theorem Dev.onHost_cache : (d.onHost f).cache = d.cache := rfl
@[simp] theorem Dev.onHost_scEventAt : (d.onHost f).scEventAt = d.scEventAt := rfl
@[simp] theorem Dev.onHost_ddr : (d.onHost f).ddr = d.ddr := rfl
@[simp] theorem Dev.onHost_hostMem : (d.onHost f).hostMem = d.hostMem := rfl
@[simp] theorem Dev.onHost_bes : (d.onHost f).bes = d.bes := rfl
@[simp] theorem Dev.onHost_lostBes : (d.onHost f).lostBes = d.lostBes := rfl
@[simp] theorem Dev.onHost_retired : (d.onHost f).retired = d.retired := rfl
@[simp] theorem Dev.onHost_healthDirty : (d.onHost f).healthDirty = d.healthDirty := rfl
@[simp] theorem Dev.onHost_rings : (d.onHost f).rings = d.rings := rfl
@[simp] theorem Dev.onHost_ringSent : (d.onHost f).ringSent = d.ringSent := rfl
@[simp] theorem Dev.onHost_beCredits : (d.onHost f).beCredits = d.beCredits := rfl
@[simp] theorem Dev.onHost_latched : (d.onHost f).latched = d.latched := rfl
@[simp] theorem Dev.onHost_reinitMarked : (d.onHost f).reinitMarked = d.reinitMarked := rfl
@[simp] theorem Dev.onHost_reinitRunning : (d.onHost f).reinitRunning = d.reinitRunning := rfl
@[simp] theorem Dev.onHost_reinitQuiet : (d.onHost f).reinitQuiet = d.reinitQuiet := rfl
@[simp] theorem Dev.onHost_reinitFrame : (d.onHost f).reinitFrame = d.reinitFrame := rfl
@[simp] theorem Dev.onHost_planSwitchWanted : (d.onHost f).planSwitchWanted = d.planSwitchWanted := rfl
@[simp] theorem Dev.onHost_unclosed : (d.onHost f).unclosed = d.unclosed := rfl
@[simp] theorem Dev.onHost_lostCores : (d.onHost f).lostCores = d.lostCores := rfl
@[simp] theorem Dev.onHost_events : (d.onHost f).events = d.events := rfl
@[simp] theorem Dev.onHost_limits : (d.onHost f).limits = d.limits := rfl
@[simp] theorem Dev.onHost_plan : (d.onHost f).plan = d.plan := rfl
@[simp] theorem Dev.onHost_tables : (d.onHost f).tables = d.tables := rfl
@[simp] theorem Dev.onHost_adopt : (d.onHost f).adopt = d.adopt := rfl
@[simp] theorem Dev.onHost_pipes : (d.onHost f).pipes = d.pipes := rfl
@[simp] theorem Dev.onHost_guardKept : (d.onHost f).guardKept = d.guardKept := rfl
@[simp] theorem Dev.onHost_launchQ : (d.onHost f).launchQ = d.launchQ := rfl
@[simp] theorem Dev.onHost_seqRun : (d.onHost f).seqRun = d.seqRun := rfl
@[simp] theorem Dev.onHost_streams : (d.onHost f).streams = d.streams := rfl
@[simp] theorem Dev.onHost_stopped : (d.onHost f).stopped = d.stopped := rfl
@[simp] theorem Dev.onHost_streamLatch : (d.onHost f).streamLatch = d.streamLatch := rfl
@[simp] theorem Dev.onHost_layers : (d.onHost f).layers = d.layers := rfl
@[simp] theorem Dev.onHost_outs : (d.onHost f).outs = d.outs := rfl
@[simp] theorem Dev.onHost_lantern : (d.onHost f).lantern = d.lantern := rfl
@[simp] theorem Dev.onHost_auxp : (d.onHost f).auxp = d.auxp := rfl
@[simp] theorem Dev.onHost_corrRows : (d.onHost f).corrRows = d.corrRows := rfl
@[simp] theorem Dev.onHost_repair : (d.onHost f).repair = d.repair := rfl
@[simp] theorem Dev.onHost_hoursBase : (d.onHost f).hoursBase = d.hoursBase := rfl
@[simp] theorem Dev.onHost_padDed : (d.onHost f).padDed = d.padDed := rfl
@[simp] theorem Dev.onHost_wear : (d.onHost f).wear = d.wear := rfl
@[simp] theorem Dev.onHost_selB : (d.onHost f).selB = d.selB := rfl
@[simp] theorem Dev.onHost_bcnSent : (d.onHost f).bcnSent = d.bcnSent := rfl
@[simp] theorem Dev.onHost_seamTx : (d.onHost f).seamTx = d.seamTx := rfl
@[simp] theorem Dev.onHost_seamRx : (d.onHost f).seamRx = d.seamRx := rfl
@[simp] theorem Dev.onHost_beacon : (d.onHost f).beacon = d.beacon := rfl
@[simp] theorem Dev.onHost_inst : (d.onHost f).inst = d.inst := rfl
@[simp] theorem Dev.onHost_cut : (d.onHost f).cut = d.cut := rfl
@[simp] theorem Dev.onHost_image : (d.onHost f).image = d.image := rfl
@[simp] theorem Dev.onHost_planNo : (d.onHost f).planNo = d.planNo := rfl
@[simp] theorem Dev.onHost_spareJobs : (d.onHost f).spareJobs = d.spareJobs := rfl
@[simp] theorem Dev.onHost_spareAt : (d.onHost f).spareAt = d.spareAt := rfl
@[simp] theorem Dev.onHost_spareFaults : (d.onHost f).spareFaults = d.spareFaults := rfl
@[simp] theorem Dev.onHost_parkedKeep : (d.onHost f).parkedKeep = d.parkedKeep := rfl
@[simp] theorem Dev.onHost_power : (d.onHost f).power = d.power := rfl
@[simp] theorem Dev.onHost_flash : (d.onHost f).flash = d.flash := rfl
@[simp] theorem Dev.onHost_mail : (d.onHost f).mail = d.mail := rfl
@[simp] theorem Dev.onHost_jtag : (d.onHost f).jtag = d.jtag := rfl
@[simp] theorem Dev.onHost_boot : (d.onHost f).boot = d.boot := rfl
@[simp] theorem Dev.onHost_analysis : (d.onHost f).analysis = d.analysis := rfl
@[simp] theorem Dev.onHost_phases : (d.onHost f).phases = d.phases := rfl
@[simp] theorem Dev.onHost_slack : (d.onHost f).slack = d.slack := rfl
@[simp] theorem Dev.onHost_slackNow : (d.onHost f).slackNow = d.slackNow := rfl
@[simp] theorem Dev.onHost_pipeFrame : (d.onHost f).pipeFrame = d.pipeFrame := rfl
@[simp] theorem Dev.onHost_pipeCount : (d.onHost f).pipeCount = d.pipeCount := rfl
@[simp] theorem Dev.onHost_lateTold : (d.onHost f).lateTold = d.lateTold := rfl
@[simp] theorem Dev.onHost_dedAt : (d.onHost f).dedAt = d.dedAt := rfl
@[simp] theorem Dev.onHost_enhDue : (d.onHost f).enhDue = d.enhDue := rfl
end

section
variable (d : Dev) (f : Beacon → Beacon)
@[simp] theorem Dev.onBeacon_time : (d.onBeacon f).time = d.time := rfl
@[simp] theorem Dev.onBeacon_free : (d.onBeacon f).free = d.free := rfl
@[simp] theorem Dev.onBeacon_regs : (d.onBeacon f).regs = d.regs := rfl
@[simp] theorem Dev.onBeacon_live : (d.onBeacon f).live = d.live := rfl
@[simp] theorem Dev.onBeacon_shadow : (d.onBeacon f).shadow = d.shadow := rfl
@[simp] theorem Dev.onBeacon_mem : (d.onBeacon f).mem = d.mem := rfl
@[simp] theorem Dev.onBeacon_ecc : (d.onBeacon f).ecc = d.ecc := rfl
@[simp] theorem Dev.onBeacon_cores : (d.onBeacon f).cores = d.cores := rfl
@[simp] theorem Dev.onBeacon_fabric : (d.onBeacon f).fabric = d.fabric := rfl
@[simp] theorem Dev.onBeacon_mcReturned : (d.onBeacon f).mcReturned = d.mcReturned := rfl
@[simp] theorem Dev.onBeacon_sus : (d.onBeacon f).sus = d.sus := rfl
@[simp] theorem Dev.onBeacon_wcs : (d.onBeacon f).wcs = d.wcs := rfl
@[simp] theorem Dev.onBeacon_cache : (d.onBeacon f).cache = d.cache := rfl
@[simp] theorem Dev.onBeacon_scEventAt : (d.onBeacon f).scEventAt = d.scEventAt := rfl
@[simp] theorem Dev.onBeacon_ddr : (d.onBeacon f).ddr = d.ddr := rfl
@[simp] theorem Dev.onBeacon_hostMem : (d.onBeacon f).hostMem = d.hostMem := rfl
@[simp] theorem Dev.onBeacon_bes : (d.onBeacon f).bes = d.bes := rfl
@[simp] theorem Dev.onBeacon_lostBes : (d.onBeacon f).lostBes = d.lostBes := rfl
@[simp] theorem Dev.onBeacon_retired : (d.onBeacon f).retired = d.retired := rfl
@[simp] theorem Dev.onBeacon_healthDirty : (d.onBeacon f).healthDirty = d.healthDirty := rfl
@[simp] theorem Dev.onBeacon_rings : (d.onBeacon f).rings = d.rings := rfl
@[simp] theorem Dev.onBeacon_ringSent : (d.onBeacon f).ringSent = d.ringSent := rfl
@[simp] theorem Dev.onBeacon_beCredits : (d.onBeacon f).beCredits = d.beCredits := rfl
@[simp] theorem Dev.onBeacon_latched : (d.onBeacon f).latched = d.latched := rfl
@[simp] theorem Dev.onBeacon_reinitMarked : (d.onBeacon f).reinitMarked = d.reinitMarked := rfl
@[simp] theorem Dev.onBeacon_reinitRunning : (d.onBeacon f).reinitRunning = d.reinitRunning := rfl
@[simp] theorem Dev.onBeacon_reinitQuiet : (d.onBeacon f).reinitQuiet = d.reinitQuiet := rfl
@[simp] theorem Dev.onBeacon_reinitFrame : (d.onBeacon f).reinitFrame = d.reinitFrame := rfl
@[simp] theorem Dev.onBeacon_planSwitchWanted : (d.onBeacon f).planSwitchWanted = d.planSwitchWanted := rfl
@[simp] theorem Dev.onBeacon_unclosed : (d.onBeacon f).unclosed = d.unclosed := rfl
@[simp] theorem Dev.onBeacon_lostCores : (d.onBeacon f).lostCores = d.lostCores := rfl
@[simp] theorem Dev.onBeacon_events : (d.onBeacon f).events = d.events := rfl
@[simp] theorem Dev.onBeacon_limits : (d.onBeacon f).limits = d.limits := rfl
@[simp] theorem Dev.onBeacon_plan : (d.onBeacon f).plan = d.plan := rfl
@[simp] theorem Dev.onBeacon_tables : (d.onBeacon f).tables = d.tables := rfl
@[simp] theorem Dev.onBeacon_adopt : (d.onBeacon f).adopt = d.adopt := rfl
@[simp] theorem Dev.onBeacon_pipes : (d.onBeacon f).pipes = d.pipes := rfl
@[simp] theorem Dev.onBeacon_guardKept : (d.onBeacon f).guardKept = d.guardKept := rfl
@[simp] theorem Dev.onBeacon_launchQ : (d.onBeacon f).launchQ = d.launchQ := rfl
@[simp] theorem Dev.onBeacon_seqRun : (d.onBeacon f).seqRun = d.seqRun := rfl
@[simp] theorem Dev.onBeacon_streams : (d.onBeacon f).streams = d.streams := rfl
@[simp] theorem Dev.onBeacon_stopped : (d.onBeacon f).stopped = d.stopped := rfl
@[simp] theorem Dev.onBeacon_streamLatch : (d.onBeacon f).streamLatch = d.streamLatch := rfl
@[simp] theorem Dev.onBeacon_layers : (d.onBeacon f).layers = d.layers := rfl
@[simp] theorem Dev.onBeacon_outs : (d.onBeacon f).outs = d.outs := rfl
@[simp] theorem Dev.onBeacon_lantern : (d.onBeacon f).lantern = d.lantern := rfl
@[simp] theorem Dev.onBeacon_auxp : (d.onBeacon f).auxp = d.auxp := rfl
@[simp] theorem Dev.onBeacon_corrRows : (d.onBeacon f).corrRows = d.corrRows := rfl
@[simp] theorem Dev.onBeacon_repair : (d.onBeacon f).repair = d.repair := rfl
@[simp] theorem Dev.onBeacon_hoursBase : (d.onBeacon f).hoursBase = d.hoursBase := rfl
@[simp] theorem Dev.onBeacon_padDed : (d.onBeacon f).padDed = d.padDed := rfl
@[simp] theorem Dev.onBeacon_wear : (d.onBeacon f).wear = d.wear := rfl
@[simp] theorem Dev.onBeacon_selB : (d.onBeacon f).selB = d.selB := rfl
@[simp] theorem Dev.onBeacon_bcnSent : (d.onBeacon f).bcnSent = d.bcnSent := rfl
@[simp] theorem Dev.onBeacon_seamTx : (d.onBeacon f).seamTx = d.seamTx := rfl
@[simp] theorem Dev.onBeacon_seamRx : (d.onBeacon f).seamRx = d.seamRx := rfl
@[simp] theorem Dev.onBeacon_inst : (d.onBeacon f).inst = d.inst := rfl
@[simp] theorem Dev.onBeacon_cut : (d.onBeacon f).cut = d.cut := rfl
@[simp] theorem Dev.onBeacon_image : (d.onBeacon f).image = d.image := rfl
@[simp] theorem Dev.onBeacon_planNo : (d.onBeacon f).planNo = d.planNo := rfl
@[simp] theorem Dev.onBeacon_spareJobs : (d.onBeacon f).spareJobs = d.spareJobs := rfl
@[simp] theorem Dev.onBeacon_spareAt : (d.onBeacon f).spareAt = d.spareAt := rfl
@[simp] theorem Dev.onBeacon_spareFaults : (d.onBeacon f).spareFaults = d.spareFaults := rfl
@[simp] theorem Dev.onBeacon_parkedKeep : (d.onBeacon f).parkedKeep = d.parkedKeep := rfl
@[simp] theorem Dev.onBeacon_power : (d.onBeacon f).power = d.power := rfl
@[simp] theorem Dev.onBeacon_flash : (d.onBeacon f).flash = d.flash := rfl
@[simp] theorem Dev.onBeacon_mail : (d.onBeacon f).mail = d.mail := rfl
@[simp] theorem Dev.onBeacon_jtag : (d.onBeacon f).jtag = d.jtag := rfl
@[simp] theorem Dev.onBeacon_host : (d.onBeacon f).host = d.host := rfl
@[simp] theorem Dev.onBeacon_boot : (d.onBeacon f).boot = d.boot := rfl
@[simp] theorem Dev.onBeacon_analysis : (d.onBeacon f).analysis = d.analysis := rfl
@[simp] theorem Dev.onBeacon_phases : (d.onBeacon f).phases = d.phases := rfl
@[simp] theorem Dev.onBeacon_slack : (d.onBeacon f).slack = d.slack := rfl
@[simp] theorem Dev.onBeacon_slackNow : (d.onBeacon f).slackNow = d.slackNow := rfl
@[simp] theorem Dev.onBeacon_pipeFrame : (d.onBeacon f).pipeFrame = d.pipeFrame := rfl
@[simp] theorem Dev.onBeacon_pipeCount : (d.onBeacon f).pipeCount = d.pipeCount := rfl
@[simp] theorem Dev.onBeacon_lateTold : (d.onBeacon f).lateTold = d.lateTold := rfl
@[simp] theorem Dev.onBeacon_dedAt : (d.onBeacon f).dedAt = d.dedAt := rfl
@[simp] theorem Dev.onBeacon_enhDue : (d.onBeacon f).enhDue = d.enhDue := rfl
end

section
variable (d : Dev) (f : Lantern → Lantern)
@[simp] theorem Dev.onLantern_time : (d.onLantern f).time = d.time := rfl
@[simp] theorem Dev.onLantern_free : (d.onLantern f).free = d.free := rfl
@[simp] theorem Dev.onLantern_regs : (d.onLantern f).regs = d.regs := rfl
@[simp] theorem Dev.onLantern_live : (d.onLantern f).live = d.live := rfl
@[simp] theorem Dev.onLantern_shadow : (d.onLantern f).shadow = d.shadow := rfl
@[simp] theorem Dev.onLantern_mem : (d.onLantern f).mem = d.mem := rfl
@[simp] theorem Dev.onLantern_ecc : (d.onLantern f).ecc = d.ecc := rfl
@[simp] theorem Dev.onLantern_cores : (d.onLantern f).cores = d.cores := rfl
@[simp] theorem Dev.onLantern_fabric : (d.onLantern f).fabric = d.fabric := rfl
@[simp] theorem Dev.onLantern_mcReturned : (d.onLantern f).mcReturned = d.mcReturned := rfl
@[simp] theorem Dev.onLantern_sus : (d.onLantern f).sus = d.sus := rfl
@[simp] theorem Dev.onLantern_wcs : (d.onLantern f).wcs = d.wcs := rfl
@[simp] theorem Dev.onLantern_cache : (d.onLantern f).cache = d.cache := rfl
@[simp] theorem Dev.onLantern_scEventAt : (d.onLantern f).scEventAt = d.scEventAt := rfl
@[simp] theorem Dev.onLantern_ddr : (d.onLantern f).ddr = d.ddr := rfl
@[simp] theorem Dev.onLantern_hostMem : (d.onLantern f).hostMem = d.hostMem := rfl
@[simp] theorem Dev.onLantern_bes : (d.onLantern f).bes = d.bes := rfl
@[simp] theorem Dev.onLantern_lostBes : (d.onLantern f).lostBes = d.lostBes := rfl
@[simp] theorem Dev.onLantern_retired : (d.onLantern f).retired = d.retired := rfl
@[simp] theorem Dev.onLantern_healthDirty : (d.onLantern f).healthDirty = d.healthDirty := rfl
@[simp] theorem Dev.onLantern_rings : (d.onLantern f).rings = d.rings := rfl
@[simp] theorem Dev.onLantern_ringSent : (d.onLantern f).ringSent = d.ringSent := rfl
@[simp] theorem Dev.onLantern_beCredits : (d.onLantern f).beCredits = d.beCredits := rfl
@[simp] theorem Dev.onLantern_latched : (d.onLantern f).latched = d.latched := rfl
@[simp] theorem Dev.onLantern_reinitMarked : (d.onLantern f).reinitMarked = d.reinitMarked := rfl
@[simp] theorem Dev.onLantern_reinitRunning : (d.onLantern f).reinitRunning = d.reinitRunning := rfl
@[simp] theorem Dev.onLantern_reinitQuiet : (d.onLantern f).reinitQuiet = d.reinitQuiet := rfl
@[simp] theorem Dev.onLantern_reinitFrame : (d.onLantern f).reinitFrame = d.reinitFrame := rfl
@[simp] theorem Dev.onLantern_planSwitchWanted : (d.onLantern f).planSwitchWanted = d.planSwitchWanted := rfl
@[simp] theorem Dev.onLantern_unclosed : (d.onLantern f).unclosed = d.unclosed := rfl
@[simp] theorem Dev.onLantern_lostCores : (d.onLantern f).lostCores = d.lostCores := rfl
@[simp] theorem Dev.onLantern_events : (d.onLantern f).events = d.events := rfl
@[simp] theorem Dev.onLantern_limits : (d.onLantern f).limits = d.limits := rfl
@[simp] theorem Dev.onLantern_plan : (d.onLantern f).plan = d.plan := rfl
@[simp] theorem Dev.onLantern_tables : (d.onLantern f).tables = d.tables := rfl
@[simp] theorem Dev.onLantern_adopt : (d.onLantern f).adopt = d.adopt := rfl
@[simp] theorem Dev.onLantern_pipes : (d.onLantern f).pipes = d.pipes := rfl
@[simp] theorem Dev.onLantern_guardKept : (d.onLantern f).guardKept = d.guardKept := rfl
@[simp] theorem Dev.onLantern_launchQ : (d.onLantern f).launchQ = d.launchQ := rfl
@[simp] theorem Dev.onLantern_seqRun : (d.onLantern f).seqRun = d.seqRun := rfl
@[simp] theorem Dev.onLantern_streams : (d.onLantern f).streams = d.streams := rfl
@[simp] theorem Dev.onLantern_stopped : (d.onLantern f).stopped = d.stopped := rfl
@[simp] theorem Dev.onLantern_streamLatch : (d.onLantern f).streamLatch = d.streamLatch := rfl
@[simp] theorem Dev.onLantern_layers : (d.onLantern f).layers = d.layers := rfl
@[simp] theorem Dev.onLantern_outs : (d.onLantern f).outs = d.outs := rfl
@[simp] theorem Dev.onLantern_auxp : (d.onLantern f).auxp = d.auxp := rfl
@[simp] theorem Dev.onLantern_corrRows : (d.onLantern f).corrRows = d.corrRows := rfl
@[simp] theorem Dev.onLantern_repair : (d.onLantern f).repair = d.repair := rfl
@[simp] theorem Dev.onLantern_hoursBase : (d.onLantern f).hoursBase = d.hoursBase := rfl
@[simp] theorem Dev.onLantern_padDed : (d.onLantern f).padDed = d.padDed := rfl
@[simp] theorem Dev.onLantern_wear : (d.onLantern f).wear = d.wear := rfl
@[simp] theorem Dev.onLantern_selB : (d.onLantern f).selB = d.selB := rfl
@[simp] theorem Dev.onLantern_bcnSent : (d.onLantern f).bcnSent = d.bcnSent := rfl
@[simp] theorem Dev.onLantern_seamTx : (d.onLantern f).seamTx = d.seamTx := rfl
@[simp] theorem Dev.onLantern_seamRx : (d.onLantern f).seamRx = d.seamRx := rfl
@[simp] theorem Dev.onLantern_beacon : (d.onLantern f).beacon = d.beacon := rfl
@[simp] theorem Dev.onLantern_inst : (d.onLantern f).inst = d.inst := rfl
@[simp] theorem Dev.onLantern_cut : (d.onLantern f).cut = d.cut := rfl
@[simp] theorem Dev.onLantern_image : (d.onLantern f).image = d.image := rfl
@[simp] theorem Dev.onLantern_planNo : (d.onLantern f).planNo = d.planNo := rfl
@[simp] theorem Dev.onLantern_spareJobs : (d.onLantern f).spareJobs = d.spareJobs := rfl
@[simp] theorem Dev.onLantern_spareAt : (d.onLantern f).spareAt = d.spareAt := rfl
@[simp] theorem Dev.onLantern_spareFaults : (d.onLantern f).spareFaults = d.spareFaults := rfl
@[simp] theorem Dev.onLantern_parkedKeep : (d.onLantern f).parkedKeep = d.parkedKeep := rfl
@[simp] theorem Dev.onLantern_power : (d.onLantern f).power = d.power := rfl
@[simp] theorem Dev.onLantern_flash : (d.onLantern f).flash = d.flash := rfl
@[simp] theorem Dev.onLantern_mail : (d.onLantern f).mail = d.mail := rfl
@[simp] theorem Dev.onLantern_jtag : (d.onLantern f).jtag = d.jtag := rfl
@[simp] theorem Dev.onLantern_host : (d.onLantern f).host = d.host := rfl
@[simp] theorem Dev.onLantern_boot : (d.onLantern f).boot = d.boot := rfl
@[simp] theorem Dev.onLantern_analysis : (d.onLantern f).analysis = d.analysis := rfl
@[simp] theorem Dev.onLantern_phases : (d.onLantern f).phases = d.phases := rfl
@[simp] theorem Dev.onLantern_slack : (d.onLantern f).slack = d.slack := rfl
@[simp] theorem Dev.onLantern_slackNow : (d.onLantern f).slackNow = d.slackNow := rfl
@[simp] theorem Dev.onLantern_pipeFrame : (d.onLantern f).pipeFrame = d.pipeFrame := rfl
@[simp] theorem Dev.onLantern_pipeCount : (d.onLantern f).pipeCount = d.pipeCount := rfl
@[simp] theorem Dev.onLantern_lateTold : (d.onLantern f).lateTold = d.lateTold := rfl
@[simp] theorem Dev.onLantern_dedAt : (d.onLantern f).dedAt = d.dedAt := rfl
@[simp] theorem Dev.onLantern_enhDue : (d.onLantern f).enhDue = d.enhDue := rfl
end

section
variable (d : Dev) (f : Power → Power)
@[simp] theorem Dev.onPower_time : (d.onPower f).time = d.time := rfl
@[simp] theorem Dev.onPower_free : (d.onPower f).free = d.free := rfl
@[simp] theorem Dev.onPower_regs : (d.onPower f).regs = d.regs := rfl
@[simp] theorem Dev.onPower_live : (d.onPower f).live = d.live := rfl
@[simp] theorem Dev.onPower_shadow : (d.onPower f).shadow = d.shadow := rfl
@[simp] theorem Dev.onPower_mem : (d.onPower f).mem = d.mem := rfl
@[simp] theorem Dev.onPower_ecc : (d.onPower f).ecc = d.ecc := rfl
@[simp] theorem Dev.onPower_cores : (d.onPower f).cores = d.cores := rfl
@[simp] theorem Dev.onPower_fabric : (d.onPower f).fabric = d.fabric := rfl
@[simp] theorem Dev.onPower_mcReturned : (d.onPower f).mcReturned = d.mcReturned := rfl
@[simp] theorem Dev.onPower_sus : (d.onPower f).sus = d.sus := rfl
@[simp] theorem Dev.onPower_wcs : (d.onPower f).wcs = d.wcs := rfl
@[simp] theorem Dev.onPower_cache : (d.onPower f).cache = d.cache := rfl
@[simp] theorem Dev.onPower_scEventAt : (d.onPower f).scEventAt = d.scEventAt := rfl
@[simp] theorem Dev.onPower_ddr : (d.onPower f).ddr = d.ddr := rfl
@[simp] theorem Dev.onPower_hostMem : (d.onPower f).hostMem = d.hostMem := rfl
@[simp] theorem Dev.onPower_bes : (d.onPower f).bes = d.bes := rfl
@[simp] theorem Dev.onPower_lostBes : (d.onPower f).lostBes = d.lostBes := rfl
@[simp] theorem Dev.onPower_retired : (d.onPower f).retired = d.retired := rfl
@[simp] theorem Dev.onPower_healthDirty : (d.onPower f).healthDirty = d.healthDirty := rfl
@[simp] theorem Dev.onPower_rings : (d.onPower f).rings = d.rings := rfl
@[simp] theorem Dev.onPower_ringSent : (d.onPower f).ringSent = d.ringSent := rfl
@[simp] theorem Dev.onPower_beCredits : (d.onPower f).beCredits = d.beCredits := rfl
@[simp] theorem Dev.onPower_latched : (d.onPower f).latched = d.latched := rfl
@[simp] theorem Dev.onPower_reinitMarked : (d.onPower f).reinitMarked = d.reinitMarked := rfl
@[simp] theorem Dev.onPower_reinitRunning : (d.onPower f).reinitRunning = d.reinitRunning := rfl
@[simp] theorem Dev.onPower_reinitQuiet : (d.onPower f).reinitQuiet = d.reinitQuiet := rfl
@[simp] theorem Dev.onPower_reinitFrame : (d.onPower f).reinitFrame = d.reinitFrame := rfl
@[simp] theorem Dev.onPower_planSwitchWanted : (d.onPower f).planSwitchWanted = d.planSwitchWanted := rfl
@[simp] theorem Dev.onPower_unclosed : (d.onPower f).unclosed = d.unclosed := rfl
@[simp] theorem Dev.onPower_lostCores : (d.onPower f).lostCores = d.lostCores := rfl
@[simp] theorem Dev.onPower_events : (d.onPower f).events = d.events := rfl
@[simp] theorem Dev.onPower_limits : (d.onPower f).limits = d.limits := rfl
@[simp] theorem Dev.onPower_plan : (d.onPower f).plan = d.plan := rfl
@[simp] theorem Dev.onPower_tables : (d.onPower f).tables = d.tables := rfl
@[simp] theorem Dev.onPower_adopt : (d.onPower f).adopt = d.adopt := rfl
@[simp] theorem Dev.onPower_pipes : (d.onPower f).pipes = d.pipes := rfl
@[simp] theorem Dev.onPower_guardKept : (d.onPower f).guardKept = d.guardKept := rfl
@[simp] theorem Dev.onPower_launchQ : (d.onPower f).launchQ = d.launchQ := rfl
@[simp] theorem Dev.onPower_seqRun : (d.onPower f).seqRun = d.seqRun := rfl
@[simp] theorem Dev.onPower_streams : (d.onPower f).streams = d.streams := rfl
@[simp] theorem Dev.onPower_stopped : (d.onPower f).stopped = d.stopped := rfl
@[simp] theorem Dev.onPower_streamLatch : (d.onPower f).streamLatch = d.streamLatch := rfl
@[simp] theorem Dev.onPower_layers : (d.onPower f).layers = d.layers := rfl
@[simp] theorem Dev.onPower_outs : (d.onPower f).outs = d.outs := rfl
@[simp] theorem Dev.onPower_lantern : (d.onPower f).lantern = d.lantern := rfl
@[simp] theorem Dev.onPower_auxp : (d.onPower f).auxp = d.auxp := rfl
@[simp] theorem Dev.onPower_corrRows : (d.onPower f).corrRows = d.corrRows := rfl
@[simp] theorem Dev.onPower_repair : (d.onPower f).repair = d.repair := rfl
@[simp] theorem Dev.onPower_hoursBase : (d.onPower f).hoursBase = d.hoursBase := rfl
@[simp] theorem Dev.onPower_padDed : (d.onPower f).padDed = d.padDed := rfl
@[simp] theorem Dev.onPower_wear : (d.onPower f).wear = d.wear := rfl
@[simp] theorem Dev.onPower_selB : (d.onPower f).selB = d.selB := rfl
@[simp] theorem Dev.onPower_bcnSent : (d.onPower f).bcnSent = d.bcnSent := rfl
@[simp] theorem Dev.onPower_seamTx : (d.onPower f).seamTx = d.seamTx := rfl
@[simp] theorem Dev.onPower_seamRx : (d.onPower f).seamRx = d.seamRx := rfl
@[simp] theorem Dev.onPower_beacon : (d.onPower f).beacon = d.beacon := rfl
@[simp] theorem Dev.onPower_inst : (d.onPower f).inst = d.inst := rfl
@[simp] theorem Dev.onPower_cut : (d.onPower f).cut = d.cut := rfl
@[simp] theorem Dev.onPower_image : (d.onPower f).image = d.image := rfl
@[simp] theorem Dev.onPower_planNo : (d.onPower f).planNo = d.planNo := rfl
@[simp] theorem Dev.onPower_spareJobs : (d.onPower f).spareJobs = d.spareJobs := rfl
@[simp] theorem Dev.onPower_spareAt : (d.onPower f).spareAt = d.spareAt := rfl
@[simp] theorem Dev.onPower_spareFaults : (d.onPower f).spareFaults = d.spareFaults := rfl
@[simp] theorem Dev.onPower_parkedKeep : (d.onPower f).parkedKeep = d.parkedKeep := rfl
@[simp] theorem Dev.onPower_flash : (d.onPower f).flash = d.flash := rfl
@[simp] theorem Dev.onPower_mail : (d.onPower f).mail = d.mail := rfl
@[simp] theorem Dev.onPower_jtag : (d.onPower f).jtag = d.jtag := rfl
@[simp] theorem Dev.onPower_host : (d.onPower f).host = d.host := rfl
@[simp] theorem Dev.onPower_boot : (d.onPower f).boot = d.boot := rfl
@[simp] theorem Dev.onPower_analysis : (d.onPower f).analysis = d.analysis := rfl
@[simp] theorem Dev.onPower_phases : (d.onPower f).phases = d.phases := rfl
@[simp] theorem Dev.onPower_slack : (d.onPower f).slack = d.slack := rfl
@[simp] theorem Dev.onPower_slackNow : (d.onPower f).slackNow = d.slackNow := rfl
@[simp] theorem Dev.onPower_pipeFrame : (d.onPower f).pipeFrame = d.pipeFrame := rfl
@[simp] theorem Dev.onPower_pipeCount : (d.onPower f).pipeCount = d.pipeCount := rfl
@[simp] theorem Dev.onPower_lateTold : (d.onPower f).lateTold = d.lateTold := rfl
@[simp] theorem Dev.onPower_dedAt : (d.onPower f).dedAt = d.dedAt := rfl
@[simp] theorem Dev.onPower_enhDue : (d.onPower f).enhDue = d.enhDue := rfl
end

section
variable (d : Dev) (f : Wear → Wear)
@[simp] theorem Dev.onWear_time : (d.onWear f).time = d.time := rfl
@[simp] theorem Dev.onWear_free : (d.onWear f).free = d.free := rfl
@[simp] theorem Dev.onWear_regs : (d.onWear f).regs = d.regs := rfl
@[simp] theorem Dev.onWear_live : (d.onWear f).live = d.live := rfl
@[simp] theorem Dev.onWear_shadow : (d.onWear f).shadow = d.shadow := rfl
@[simp] theorem Dev.onWear_mem : (d.onWear f).mem = d.mem := rfl
@[simp] theorem Dev.onWear_ecc : (d.onWear f).ecc = d.ecc := rfl
@[simp] theorem Dev.onWear_cores : (d.onWear f).cores = d.cores := rfl
@[simp] theorem Dev.onWear_fabric : (d.onWear f).fabric = d.fabric := rfl
@[simp] theorem Dev.onWear_mcReturned : (d.onWear f).mcReturned = d.mcReturned := rfl
@[simp] theorem Dev.onWear_sus : (d.onWear f).sus = d.sus := rfl
@[simp] theorem Dev.onWear_wcs : (d.onWear f).wcs = d.wcs := rfl
@[simp] theorem Dev.onWear_cache : (d.onWear f).cache = d.cache := rfl
@[simp] theorem Dev.onWear_scEventAt : (d.onWear f).scEventAt = d.scEventAt := rfl
@[simp] theorem Dev.onWear_ddr : (d.onWear f).ddr = d.ddr := rfl
@[simp] theorem Dev.onWear_hostMem : (d.onWear f).hostMem = d.hostMem := rfl
@[simp] theorem Dev.onWear_bes : (d.onWear f).bes = d.bes := rfl
@[simp] theorem Dev.onWear_lostBes : (d.onWear f).lostBes = d.lostBes := rfl
@[simp] theorem Dev.onWear_retired : (d.onWear f).retired = d.retired := rfl
@[simp] theorem Dev.onWear_healthDirty : (d.onWear f).healthDirty = d.healthDirty := rfl
@[simp] theorem Dev.onWear_rings : (d.onWear f).rings = d.rings := rfl
@[simp] theorem Dev.onWear_ringSent : (d.onWear f).ringSent = d.ringSent := rfl
@[simp] theorem Dev.onWear_beCredits : (d.onWear f).beCredits = d.beCredits := rfl
@[simp] theorem Dev.onWear_latched : (d.onWear f).latched = d.latched := rfl
@[simp] theorem Dev.onWear_reinitMarked : (d.onWear f).reinitMarked = d.reinitMarked := rfl
@[simp] theorem Dev.onWear_reinitRunning : (d.onWear f).reinitRunning = d.reinitRunning := rfl
@[simp] theorem Dev.onWear_reinitQuiet : (d.onWear f).reinitQuiet = d.reinitQuiet := rfl
@[simp] theorem Dev.onWear_reinitFrame : (d.onWear f).reinitFrame = d.reinitFrame := rfl
@[simp] theorem Dev.onWear_planSwitchWanted : (d.onWear f).planSwitchWanted = d.planSwitchWanted := rfl
@[simp] theorem Dev.onWear_unclosed : (d.onWear f).unclosed = d.unclosed := rfl
@[simp] theorem Dev.onWear_lostCores : (d.onWear f).lostCores = d.lostCores := rfl
@[simp] theorem Dev.onWear_events : (d.onWear f).events = d.events := rfl
@[simp] theorem Dev.onWear_limits : (d.onWear f).limits = d.limits := rfl
@[simp] theorem Dev.onWear_plan : (d.onWear f).plan = d.plan := rfl
@[simp] theorem Dev.onWear_tables : (d.onWear f).tables = d.tables := rfl
@[simp] theorem Dev.onWear_adopt : (d.onWear f).adopt = d.adopt := rfl
@[simp] theorem Dev.onWear_pipes : (d.onWear f).pipes = d.pipes := rfl
@[simp] theorem Dev.onWear_guardKept : (d.onWear f).guardKept = d.guardKept := rfl
@[simp] theorem Dev.onWear_launchQ : (d.onWear f).launchQ = d.launchQ := rfl
@[simp] theorem Dev.onWear_seqRun : (d.onWear f).seqRun = d.seqRun := rfl
@[simp] theorem Dev.onWear_streams : (d.onWear f).streams = d.streams := rfl
@[simp] theorem Dev.onWear_stopped : (d.onWear f).stopped = d.stopped := rfl
@[simp] theorem Dev.onWear_streamLatch : (d.onWear f).streamLatch = d.streamLatch := rfl
@[simp] theorem Dev.onWear_layers : (d.onWear f).layers = d.layers := rfl
@[simp] theorem Dev.onWear_outs : (d.onWear f).outs = d.outs := rfl
@[simp] theorem Dev.onWear_lantern : (d.onWear f).lantern = d.lantern := rfl
@[simp] theorem Dev.onWear_auxp : (d.onWear f).auxp = d.auxp := rfl
@[simp] theorem Dev.onWear_corrRows : (d.onWear f).corrRows = d.corrRows := rfl
@[simp] theorem Dev.onWear_repair : (d.onWear f).repair = d.repair := rfl
@[simp] theorem Dev.onWear_hoursBase : (d.onWear f).hoursBase = d.hoursBase := rfl
@[simp] theorem Dev.onWear_padDed : (d.onWear f).padDed = d.padDed := rfl
@[simp] theorem Dev.onWear_selB : (d.onWear f).selB = d.selB := rfl
@[simp] theorem Dev.onWear_bcnSent : (d.onWear f).bcnSent = d.bcnSent := rfl
@[simp] theorem Dev.onWear_seamTx : (d.onWear f).seamTx = d.seamTx := rfl
@[simp] theorem Dev.onWear_seamRx : (d.onWear f).seamRx = d.seamRx := rfl
@[simp] theorem Dev.onWear_beacon : (d.onWear f).beacon = d.beacon := rfl
@[simp] theorem Dev.onWear_inst : (d.onWear f).inst = d.inst := rfl
@[simp] theorem Dev.onWear_cut : (d.onWear f).cut = d.cut := rfl
@[simp] theorem Dev.onWear_image : (d.onWear f).image = d.image := rfl
@[simp] theorem Dev.onWear_planNo : (d.onWear f).planNo = d.planNo := rfl
@[simp] theorem Dev.onWear_spareJobs : (d.onWear f).spareJobs = d.spareJobs := rfl
@[simp] theorem Dev.onWear_spareAt : (d.onWear f).spareAt = d.spareAt := rfl
@[simp] theorem Dev.onWear_spareFaults : (d.onWear f).spareFaults = d.spareFaults := rfl
@[simp] theorem Dev.onWear_parkedKeep : (d.onWear f).parkedKeep = d.parkedKeep := rfl
@[simp] theorem Dev.onWear_power : (d.onWear f).power = d.power := rfl
@[simp] theorem Dev.onWear_flash : (d.onWear f).flash = d.flash := rfl
@[simp] theorem Dev.onWear_mail : (d.onWear f).mail = d.mail := rfl
@[simp] theorem Dev.onWear_jtag : (d.onWear f).jtag = d.jtag := rfl
@[simp] theorem Dev.onWear_host : (d.onWear f).host = d.host := rfl
@[simp] theorem Dev.onWear_boot : (d.onWear f).boot = d.boot := rfl
@[simp] theorem Dev.onWear_analysis : (d.onWear f).analysis = d.analysis := rfl
@[simp] theorem Dev.onWear_phases : (d.onWear f).phases = d.phases := rfl
@[simp] theorem Dev.onWear_slack : (d.onWear f).slack = d.slack := rfl
@[simp] theorem Dev.onWear_slackNow : (d.onWear f).slackNow = d.slackNow := rfl
@[simp] theorem Dev.onWear_pipeFrame : (d.onWear f).pipeFrame = d.pipeFrame := rfl
@[simp] theorem Dev.onWear_pipeCount : (d.onWear f).pipeCount = d.pipeCount := rfl
@[simp] theorem Dev.onWear_lateTold : (d.onWear f).lateTold = d.lateTold := rfl
@[simp] theorem Dev.onWear_dedAt : (d.onWear f).dedAt = d.dedAt := rfl
@[simp] theorem Dev.onWear_enhDue : (d.onWear f).enhDue = d.enhDue := rfl
end

section
variable (d : Dev) (f : Auxp → Auxp)
@[simp] theorem Dev.onAuxp_time : (d.onAuxp f).time = d.time := rfl
@[simp] theorem Dev.onAuxp_free : (d.onAuxp f).free = d.free := rfl
@[simp] theorem Dev.onAuxp_regs : (d.onAuxp f).regs = d.regs := rfl
@[simp] theorem Dev.onAuxp_live : (d.onAuxp f).live = d.live := rfl
@[simp] theorem Dev.onAuxp_shadow : (d.onAuxp f).shadow = d.shadow := rfl
@[simp] theorem Dev.onAuxp_mem : (d.onAuxp f).mem = d.mem := rfl
@[simp] theorem Dev.onAuxp_ecc : (d.onAuxp f).ecc = d.ecc := rfl
@[simp] theorem Dev.onAuxp_cores : (d.onAuxp f).cores = d.cores := rfl
@[simp] theorem Dev.onAuxp_fabric : (d.onAuxp f).fabric = d.fabric := rfl
@[simp] theorem Dev.onAuxp_mcReturned : (d.onAuxp f).mcReturned = d.mcReturned := rfl
@[simp] theorem Dev.onAuxp_sus : (d.onAuxp f).sus = d.sus := rfl
@[simp] theorem Dev.onAuxp_wcs : (d.onAuxp f).wcs = d.wcs := rfl
@[simp] theorem Dev.onAuxp_cache : (d.onAuxp f).cache = d.cache := rfl
@[simp] theorem Dev.onAuxp_scEventAt : (d.onAuxp f).scEventAt = d.scEventAt := rfl
@[simp] theorem Dev.onAuxp_ddr : (d.onAuxp f).ddr = d.ddr := rfl
@[simp] theorem Dev.onAuxp_hostMem : (d.onAuxp f).hostMem = d.hostMem := rfl
@[simp] theorem Dev.onAuxp_bes : (d.onAuxp f).bes = d.bes := rfl
@[simp] theorem Dev.onAuxp_lostBes : (d.onAuxp f).lostBes = d.lostBes := rfl
@[simp] theorem Dev.onAuxp_retired : (d.onAuxp f).retired = d.retired := rfl
@[simp] theorem Dev.onAuxp_healthDirty : (d.onAuxp f).healthDirty = d.healthDirty := rfl
@[simp] theorem Dev.onAuxp_rings : (d.onAuxp f).rings = d.rings := rfl
@[simp] theorem Dev.onAuxp_ringSent : (d.onAuxp f).ringSent = d.ringSent := rfl
@[simp] theorem Dev.onAuxp_beCredits : (d.onAuxp f).beCredits = d.beCredits := rfl
@[simp] theorem Dev.onAuxp_latched : (d.onAuxp f).latched = d.latched := rfl
@[simp] theorem Dev.onAuxp_reinitMarked : (d.onAuxp f).reinitMarked = d.reinitMarked := rfl
@[simp] theorem Dev.onAuxp_reinitRunning : (d.onAuxp f).reinitRunning = d.reinitRunning := rfl
@[simp] theorem Dev.onAuxp_reinitQuiet : (d.onAuxp f).reinitQuiet = d.reinitQuiet := rfl
@[simp] theorem Dev.onAuxp_reinitFrame : (d.onAuxp f).reinitFrame = d.reinitFrame := rfl
@[simp] theorem Dev.onAuxp_planSwitchWanted : (d.onAuxp f).planSwitchWanted = d.planSwitchWanted := rfl
@[simp] theorem Dev.onAuxp_unclosed : (d.onAuxp f).unclosed = d.unclosed := rfl
@[simp] theorem Dev.onAuxp_lostCores : (d.onAuxp f).lostCores = d.lostCores := rfl
@[simp] theorem Dev.onAuxp_events : (d.onAuxp f).events = d.events := rfl
@[simp] theorem Dev.onAuxp_limits : (d.onAuxp f).limits = d.limits := rfl
@[simp] theorem Dev.onAuxp_plan : (d.onAuxp f).plan = d.plan := rfl
@[simp] theorem Dev.onAuxp_tables : (d.onAuxp f).tables = d.tables := rfl
@[simp] theorem Dev.onAuxp_adopt : (d.onAuxp f).adopt = d.adopt := rfl
@[simp] theorem Dev.onAuxp_pipes : (d.onAuxp f).pipes = d.pipes := rfl
@[simp] theorem Dev.onAuxp_guardKept : (d.onAuxp f).guardKept = d.guardKept := rfl
@[simp] theorem Dev.onAuxp_launchQ : (d.onAuxp f).launchQ = d.launchQ := rfl
@[simp] theorem Dev.onAuxp_seqRun : (d.onAuxp f).seqRun = d.seqRun := rfl
@[simp] theorem Dev.onAuxp_streams : (d.onAuxp f).streams = d.streams := rfl
@[simp] theorem Dev.onAuxp_stopped : (d.onAuxp f).stopped = d.stopped := rfl
@[simp] theorem Dev.onAuxp_streamLatch : (d.onAuxp f).streamLatch = d.streamLatch := rfl
@[simp] theorem Dev.onAuxp_layers : (d.onAuxp f).layers = d.layers := rfl
@[simp] theorem Dev.onAuxp_outs : (d.onAuxp f).outs = d.outs := rfl
@[simp] theorem Dev.onAuxp_lantern : (d.onAuxp f).lantern = d.lantern := rfl
@[simp] theorem Dev.onAuxp_corrRows : (d.onAuxp f).corrRows = d.corrRows := rfl
@[simp] theorem Dev.onAuxp_repair : (d.onAuxp f).repair = d.repair := rfl
@[simp] theorem Dev.onAuxp_hoursBase : (d.onAuxp f).hoursBase = d.hoursBase := rfl
@[simp] theorem Dev.onAuxp_padDed : (d.onAuxp f).padDed = d.padDed := rfl
@[simp] theorem Dev.onAuxp_wear : (d.onAuxp f).wear = d.wear := rfl
@[simp] theorem Dev.onAuxp_selB : (d.onAuxp f).selB = d.selB := rfl
@[simp] theorem Dev.onAuxp_bcnSent : (d.onAuxp f).bcnSent = d.bcnSent := rfl
@[simp] theorem Dev.onAuxp_seamTx : (d.onAuxp f).seamTx = d.seamTx := rfl
@[simp] theorem Dev.onAuxp_seamRx : (d.onAuxp f).seamRx = d.seamRx := rfl
@[simp] theorem Dev.onAuxp_beacon : (d.onAuxp f).beacon = d.beacon := rfl
@[simp] theorem Dev.onAuxp_inst : (d.onAuxp f).inst = d.inst := rfl
@[simp] theorem Dev.onAuxp_cut : (d.onAuxp f).cut = d.cut := rfl
@[simp] theorem Dev.onAuxp_image : (d.onAuxp f).image = d.image := rfl
@[simp] theorem Dev.onAuxp_planNo : (d.onAuxp f).planNo = d.planNo := rfl
@[simp] theorem Dev.onAuxp_spareJobs : (d.onAuxp f).spareJobs = d.spareJobs := rfl
@[simp] theorem Dev.onAuxp_spareAt : (d.onAuxp f).spareAt = d.spareAt := rfl
@[simp] theorem Dev.onAuxp_spareFaults : (d.onAuxp f).spareFaults = d.spareFaults := rfl
@[simp] theorem Dev.onAuxp_parkedKeep : (d.onAuxp f).parkedKeep = d.parkedKeep := rfl
@[simp] theorem Dev.onAuxp_power : (d.onAuxp f).power = d.power := rfl
@[simp] theorem Dev.onAuxp_flash : (d.onAuxp f).flash = d.flash := rfl
@[simp] theorem Dev.onAuxp_mail : (d.onAuxp f).mail = d.mail := rfl
@[simp] theorem Dev.onAuxp_jtag : (d.onAuxp f).jtag = d.jtag := rfl
@[simp] theorem Dev.onAuxp_host : (d.onAuxp f).host = d.host := rfl
@[simp] theorem Dev.onAuxp_boot : (d.onAuxp f).boot = d.boot := rfl
@[simp] theorem Dev.onAuxp_analysis : (d.onAuxp f).analysis = d.analysis := rfl
@[simp] theorem Dev.onAuxp_phases : (d.onAuxp f).phases = d.phases := rfl
@[simp] theorem Dev.onAuxp_slack : (d.onAuxp f).slack = d.slack := rfl
@[simp] theorem Dev.onAuxp_slackNow : (d.onAuxp f).slackNow = d.slackNow := rfl
@[simp] theorem Dev.onAuxp_pipeFrame : (d.onAuxp f).pipeFrame = d.pipeFrame := rfl
@[simp] theorem Dev.onAuxp_pipeCount : (d.onAuxp f).pipeCount = d.pipeCount := rfl
@[simp] theorem Dev.onAuxp_lateTold : (d.onAuxp f).lateTold = d.lateTold := rfl
@[simp] theorem Dev.onAuxp_dedAt : (d.onAuxp f).dedAt = d.dedAt := rfl
@[simp] theorem Dev.onAuxp_enhDue : (d.onAuxp f).enhDue = d.enhDue := rfl
end

section
variable (d : Dev) (p q : Nat) (f : SeamTx → SeamTx)
@[simp] theorem Dev.onTx_time : (d.onTx p q f).time = d.time := rfl
@[simp] theorem Dev.onTx_free : (d.onTx p q f).free = d.free := rfl
@[simp] theorem Dev.onTx_regs : (d.onTx p q f).regs = d.regs := rfl
@[simp] theorem Dev.onTx_live : (d.onTx p q f).live = d.live := rfl
@[simp] theorem Dev.onTx_shadow : (d.onTx p q f).shadow = d.shadow := rfl
@[simp] theorem Dev.onTx_mem : (d.onTx p q f).mem = d.mem := rfl
@[simp] theorem Dev.onTx_ecc : (d.onTx p q f).ecc = d.ecc := rfl
@[simp] theorem Dev.onTx_cores : (d.onTx p q f).cores = d.cores := rfl
@[simp] theorem Dev.onTx_fabric : (d.onTx p q f).fabric = d.fabric := rfl
@[simp] theorem Dev.onTx_mcReturned : (d.onTx p q f).mcReturned = d.mcReturned := rfl
@[simp] theorem Dev.onTx_sus : (d.onTx p q f).sus = d.sus := rfl
@[simp] theorem Dev.onTx_wcs : (d.onTx p q f).wcs = d.wcs := rfl
@[simp] theorem Dev.onTx_cache : (d.onTx p q f).cache = d.cache := rfl
@[simp] theorem Dev.onTx_scEventAt : (d.onTx p q f).scEventAt = d.scEventAt := rfl
@[simp] theorem Dev.onTx_ddr : (d.onTx p q f).ddr = d.ddr := rfl
@[simp] theorem Dev.onTx_hostMem : (d.onTx p q f).hostMem = d.hostMem := rfl
@[simp] theorem Dev.onTx_bes : (d.onTx p q f).bes = d.bes := rfl
@[simp] theorem Dev.onTx_lostBes : (d.onTx p q f).lostBes = d.lostBes := rfl
@[simp] theorem Dev.onTx_retired : (d.onTx p q f).retired = d.retired := rfl
@[simp] theorem Dev.onTx_healthDirty : (d.onTx p q f).healthDirty = d.healthDirty := rfl
@[simp] theorem Dev.onTx_rings : (d.onTx p q f).rings = d.rings := rfl
@[simp] theorem Dev.onTx_ringSent : (d.onTx p q f).ringSent = d.ringSent := rfl
@[simp] theorem Dev.onTx_beCredits : (d.onTx p q f).beCredits = d.beCredits := rfl
@[simp] theorem Dev.onTx_latched : (d.onTx p q f).latched = d.latched := rfl
@[simp] theorem Dev.onTx_reinitMarked : (d.onTx p q f).reinitMarked = d.reinitMarked := rfl
@[simp] theorem Dev.onTx_reinitRunning : (d.onTx p q f).reinitRunning = d.reinitRunning := rfl
@[simp] theorem Dev.onTx_reinitQuiet : (d.onTx p q f).reinitQuiet = d.reinitQuiet := rfl
@[simp] theorem Dev.onTx_reinitFrame : (d.onTx p q f).reinitFrame = d.reinitFrame := rfl
@[simp] theorem Dev.onTx_planSwitchWanted : (d.onTx p q f).planSwitchWanted = d.planSwitchWanted := rfl
@[simp] theorem Dev.onTx_unclosed : (d.onTx p q f).unclosed = d.unclosed := rfl
@[simp] theorem Dev.onTx_lostCores : (d.onTx p q f).lostCores = d.lostCores := rfl
@[simp] theorem Dev.onTx_events : (d.onTx p q f).events = d.events := rfl
@[simp] theorem Dev.onTx_limits : (d.onTx p q f).limits = d.limits := rfl
@[simp] theorem Dev.onTx_plan : (d.onTx p q f).plan = d.plan := rfl
@[simp] theorem Dev.onTx_tables : (d.onTx p q f).tables = d.tables := rfl
@[simp] theorem Dev.onTx_adopt : (d.onTx p q f).adopt = d.adopt := rfl
@[simp] theorem Dev.onTx_pipes : (d.onTx p q f).pipes = d.pipes := rfl
@[simp] theorem Dev.onTx_guardKept : (d.onTx p q f).guardKept = d.guardKept := rfl
@[simp] theorem Dev.onTx_launchQ : (d.onTx p q f).launchQ = d.launchQ := rfl
@[simp] theorem Dev.onTx_seqRun : (d.onTx p q f).seqRun = d.seqRun := rfl
@[simp] theorem Dev.onTx_streams : (d.onTx p q f).streams = d.streams := rfl
@[simp] theorem Dev.onTx_stopped : (d.onTx p q f).stopped = d.stopped := rfl
@[simp] theorem Dev.onTx_streamLatch : (d.onTx p q f).streamLatch = d.streamLatch := rfl
@[simp] theorem Dev.onTx_layers : (d.onTx p q f).layers = d.layers := rfl
@[simp] theorem Dev.onTx_outs : (d.onTx p q f).outs = d.outs := rfl
@[simp] theorem Dev.onTx_lantern : (d.onTx p q f).lantern = d.lantern := rfl
@[simp] theorem Dev.onTx_auxp : (d.onTx p q f).auxp = d.auxp := rfl
@[simp] theorem Dev.onTx_corrRows : (d.onTx p q f).corrRows = d.corrRows := rfl
@[simp] theorem Dev.onTx_repair : (d.onTx p q f).repair = d.repair := rfl
@[simp] theorem Dev.onTx_hoursBase : (d.onTx p q f).hoursBase = d.hoursBase := rfl
@[simp] theorem Dev.onTx_padDed : (d.onTx p q f).padDed = d.padDed := rfl
@[simp] theorem Dev.onTx_wear : (d.onTx p q f).wear = d.wear := rfl
@[simp] theorem Dev.onTx_selB : (d.onTx p q f).selB = d.selB := rfl
@[simp] theorem Dev.onTx_bcnSent : (d.onTx p q f).bcnSent = d.bcnSent := rfl
@[simp] theorem Dev.onTx_seamRx : (d.onTx p q f).seamRx = d.seamRx := rfl
@[simp] theorem Dev.onTx_beacon : (d.onTx p q f).beacon = d.beacon := rfl
@[simp] theorem Dev.onTx_inst : (d.onTx p q f).inst = d.inst := rfl
@[simp] theorem Dev.onTx_cut : (d.onTx p q f).cut = d.cut := rfl
@[simp] theorem Dev.onTx_image : (d.onTx p q f).image = d.image := rfl
@[simp] theorem Dev.onTx_planNo : (d.onTx p q f).planNo = d.planNo := rfl
@[simp] theorem Dev.onTx_spareJobs : (d.onTx p q f).spareJobs = d.spareJobs := rfl
@[simp] theorem Dev.onTx_spareAt : (d.onTx p q f).spareAt = d.spareAt := rfl
@[simp] theorem Dev.onTx_spareFaults : (d.onTx p q f).spareFaults = d.spareFaults := rfl
@[simp] theorem Dev.onTx_parkedKeep : (d.onTx p q f).parkedKeep = d.parkedKeep := rfl
@[simp] theorem Dev.onTx_power : (d.onTx p q f).power = d.power := rfl
@[simp] theorem Dev.onTx_flash : (d.onTx p q f).flash = d.flash := rfl
@[simp] theorem Dev.onTx_mail : (d.onTx p q f).mail = d.mail := rfl
@[simp] theorem Dev.onTx_jtag : (d.onTx p q f).jtag = d.jtag := rfl
@[simp] theorem Dev.onTx_host : (d.onTx p q f).host = d.host := rfl
@[simp] theorem Dev.onTx_boot : (d.onTx p q f).boot = d.boot := rfl
@[simp] theorem Dev.onTx_analysis : (d.onTx p q f).analysis = d.analysis := rfl
@[simp] theorem Dev.onTx_phases : (d.onTx p q f).phases = d.phases := rfl
@[simp] theorem Dev.onTx_slack : (d.onTx p q f).slack = d.slack := rfl
@[simp] theorem Dev.onTx_slackNow : (d.onTx p q f).slackNow = d.slackNow := rfl
@[simp] theorem Dev.onTx_pipeFrame : (d.onTx p q f).pipeFrame = d.pipeFrame := rfl
@[simp] theorem Dev.onTx_pipeCount : (d.onTx p q f).pipeCount = d.pipeCount := rfl
@[simp] theorem Dev.onTx_lateTold : (d.onTx p q f).lateTold = d.lateTold := rfl
@[simp] theorem Dev.onTx_dedAt : (d.onTx p q f).dedAt = d.dedAt := rfl
@[simp] theorem Dev.onTx_enhDue : (d.onTx p q f).enhDue = d.enhDue := rfl
end

section
variable (d : Dev) (p q : Nat) (f : SeamRx → SeamRx)
@[simp] theorem Dev.onRx_time : (d.onRx p q f).time = d.time := rfl
@[simp] theorem Dev.onRx_free : (d.onRx p q f).free = d.free := rfl
@[simp] theorem Dev.onRx_regs : (d.onRx p q f).regs = d.regs := rfl
@[simp] theorem Dev.onRx_live : (d.onRx p q f).live = d.live := rfl
@[simp] theorem Dev.onRx_shadow : (d.onRx p q f).shadow = d.shadow := rfl
@[simp] theorem Dev.onRx_mem : (d.onRx p q f).mem = d.mem := rfl
@[simp] theorem Dev.onRx_ecc : (d.onRx p q f).ecc = d.ecc := rfl
@[simp] theorem Dev.onRx_cores : (d.onRx p q f).cores = d.cores := rfl
@[simp] theorem Dev.onRx_fabric : (d.onRx p q f).fabric = d.fabric := rfl
@[simp] theorem Dev.onRx_mcReturned : (d.onRx p q f).mcReturned = d.mcReturned := rfl
@[simp] theorem Dev.onRx_sus : (d.onRx p q f).sus = d.sus := rfl
@[simp] theorem Dev.onRx_wcs : (d.onRx p q f).wcs = d.wcs := rfl
@[simp] theorem Dev.onRx_cache : (d.onRx p q f).cache = d.cache := rfl
@[simp] theorem Dev.onRx_scEventAt : (d.onRx p q f).scEventAt = d.scEventAt := rfl
@[simp] theorem Dev.onRx_ddr : (d.onRx p q f).ddr = d.ddr := rfl
@[simp] theorem Dev.onRx_hostMem : (d.onRx p q f).hostMem = d.hostMem := rfl
@[simp] theorem Dev.onRx_bes : (d.onRx p q f).bes = d.bes := rfl
@[simp] theorem Dev.onRx_lostBes : (d.onRx p q f).lostBes = d.lostBes := rfl
@[simp] theorem Dev.onRx_retired : (d.onRx p q f).retired = d.retired := rfl
@[simp] theorem Dev.onRx_healthDirty : (d.onRx p q f).healthDirty = d.healthDirty := rfl
@[simp] theorem Dev.onRx_rings : (d.onRx p q f).rings = d.rings := rfl
@[simp] theorem Dev.onRx_ringSent : (d.onRx p q f).ringSent = d.ringSent := rfl
@[simp] theorem Dev.onRx_beCredits : (d.onRx p q f).beCredits = d.beCredits := rfl
@[simp] theorem Dev.onRx_latched : (d.onRx p q f).latched = d.latched := rfl
@[simp] theorem Dev.onRx_reinitMarked : (d.onRx p q f).reinitMarked = d.reinitMarked := rfl
@[simp] theorem Dev.onRx_reinitRunning : (d.onRx p q f).reinitRunning = d.reinitRunning := rfl
@[simp] theorem Dev.onRx_reinitQuiet : (d.onRx p q f).reinitQuiet = d.reinitQuiet := rfl
@[simp] theorem Dev.onRx_reinitFrame : (d.onRx p q f).reinitFrame = d.reinitFrame := rfl
@[simp] theorem Dev.onRx_planSwitchWanted : (d.onRx p q f).planSwitchWanted = d.planSwitchWanted := rfl
@[simp] theorem Dev.onRx_unclosed : (d.onRx p q f).unclosed = d.unclosed := rfl
@[simp] theorem Dev.onRx_lostCores : (d.onRx p q f).lostCores = d.lostCores := rfl
@[simp] theorem Dev.onRx_events : (d.onRx p q f).events = d.events := rfl
@[simp] theorem Dev.onRx_limits : (d.onRx p q f).limits = d.limits := rfl
@[simp] theorem Dev.onRx_plan : (d.onRx p q f).plan = d.plan := rfl
@[simp] theorem Dev.onRx_tables : (d.onRx p q f).tables = d.tables := rfl
@[simp] theorem Dev.onRx_adopt : (d.onRx p q f).adopt = d.adopt := rfl
@[simp] theorem Dev.onRx_pipes : (d.onRx p q f).pipes = d.pipes := rfl
@[simp] theorem Dev.onRx_guardKept : (d.onRx p q f).guardKept = d.guardKept := rfl
@[simp] theorem Dev.onRx_launchQ : (d.onRx p q f).launchQ = d.launchQ := rfl
@[simp] theorem Dev.onRx_seqRun : (d.onRx p q f).seqRun = d.seqRun := rfl
@[simp] theorem Dev.onRx_streams : (d.onRx p q f).streams = d.streams := rfl
@[simp] theorem Dev.onRx_stopped : (d.onRx p q f).stopped = d.stopped := rfl
@[simp] theorem Dev.onRx_streamLatch : (d.onRx p q f).streamLatch = d.streamLatch := rfl
@[simp] theorem Dev.onRx_layers : (d.onRx p q f).layers = d.layers := rfl
@[simp] theorem Dev.onRx_outs : (d.onRx p q f).outs = d.outs := rfl
@[simp] theorem Dev.onRx_lantern : (d.onRx p q f).lantern = d.lantern := rfl
@[simp] theorem Dev.onRx_auxp : (d.onRx p q f).auxp = d.auxp := rfl
@[simp] theorem Dev.onRx_corrRows : (d.onRx p q f).corrRows = d.corrRows := rfl
@[simp] theorem Dev.onRx_repair : (d.onRx p q f).repair = d.repair := rfl
@[simp] theorem Dev.onRx_hoursBase : (d.onRx p q f).hoursBase = d.hoursBase := rfl
@[simp] theorem Dev.onRx_padDed : (d.onRx p q f).padDed = d.padDed := rfl
@[simp] theorem Dev.onRx_wear : (d.onRx p q f).wear = d.wear := rfl
@[simp] theorem Dev.onRx_selB : (d.onRx p q f).selB = d.selB := rfl
@[simp] theorem Dev.onRx_bcnSent : (d.onRx p q f).bcnSent = d.bcnSent := rfl
@[simp] theorem Dev.onRx_seamTx : (d.onRx p q f).seamTx = d.seamTx := rfl
@[simp] theorem Dev.onRx_beacon : (d.onRx p q f).beacon = d.beacon := rfl
@[simp] theorem Dev.onRx_inst : (d.onRx p q f).inst = d.inst := rfl
@[simp] theorem Dev.onRx_cut : (d.onRx p q f).cut = d.cut := rfl
@[simp] theorem Dev.onRx_image : (d.onRx p q f).image = d.image := rfl
@[simp] theorem Dev.onRx_planNo : (d.onRx p q f).planNo = d.planNo := rfl
@[simp] theorem Dev.onRx_spareJobs : (d.onRx p q f).spareJobs = d.spareJobs := rfl
@[simp] theorem Dev.onRx_spareAt : (d.onRx p q f).spareAt = d.spareAt := rfl
@[simp] theorem Dev.onRx_spareFaults : (d.onRx p q f).spareFaults = d.spareFaults := rfl
@[simp] theorem Dev.onRx_parkedKeep : (d.onRx p q f).parkedKeep = d.parkedKeep := rfl
@[simp] theorem Dev.onRx_power : (d.onRx p q f).power = d.power := rfl
@[simp] theorem Dev.onRx_flash : (d.onRx p q f).flash = d.flash := rfl
@[simp] theorem Dev.onRx_mail : (d.onRx p q f).mail = d.mail := rfl
@[simp] theorem Dev.onRx_jtag : (d.onRx p q f).jtag = d.jtag := rfl
@[simp] theorem Dev.onRx_host : (d.onRx p q f).host = d.host := rfl
@[simp] theorem Dev.onRx_boot : (d.onRx p q f).boot = d.boot := rfl
@[simp] theorem Dev.onRx_analysis : (d.onRx p q f).analysis = d.analysis := rfl
@[simp] theorem Dev.onRx_phases : (d.onRx p q f).phases = d.phases := rfl
@[simp] theorem Dev.onRx_slack : (d.onRx p q f).slack = d.slack := rfl
@[simp] theorem Dev.onRx_slackNow : (d.onRx p q f).slackNow = d.slackNow := rfl
@[simp] theorem Dev.onRx_pipeFrame : (d.onRx p q f).pipeFrame = d.pipeFrame := rfl
@[simp] theorem Dev.onRx_pipeCount : (d.onRx p q f).pipeCount = d.pipeCount := rfl
@[simp] theorem Dev.onRx_lateTold : (d.onRx p q f).lateTold = d.lateTold := rfl
@[simp] theorem Dev.onRx_dedAt : (d.onRx p q f).dedAt = d.dedAt := rfl
@[simp] theorem Dev.onRx_enhDue : (d.onRx p q f).enhDue = d.enhDue := rfl
end

section
variable (d : Dev) (i : Nat) (f : Ddr → Ddr)
@[simp] theorem Dev.onChan_time : (d.onChan i f).time = d.time := rfl
@[simp] theorem Dev.onChan_free : (d.onChan i f).free = d.free := rfl
@[simp] theorem Dev.onChan_regs : (d.onChan i f).regs = d.regs := rfl
@[simp] theorem Dev.onChan_live : (d.onChan i f).live = d.live := rfl
@[simp] theorem Dev.onChan_shadow : (d.onChan i f).shadow = d.shadow := rfl
@[simp] theorem Dev.onChan_mem : (d.onChan i f).mem = d.mem := rfl
@[simp] theorem Dev.onChan_ecc : (d.onChan i f).ecc = d.ecc := rfl
@[simp] theorem Dev.onChan_cores : (d.onChan i f).cores = d.cores := rfl
@[simp] theorem Dev.onChan_fabric : (d.onChan i f).fabric = d.fabric := rfl
@[simp] theorem Dev.onChan_mcReturned : (d.onChan i f).mcReturned = d.mcReturned := rfl
@[simp] theorem Dev.onChan_sus : (d.onChan i f).sus = d.sus := rfl
@[simp] theorem Dev.onChan_wcs : (d.onChan i f).wcs = d.wcs := rfl
@[simp] theorem Dev.onChan_cache : (d.onChan i f).cache = d.cache := rfl
@[simp] theorem Dev.onChan_scEventAt : (d.onChan i f).scEventAt = d.scEventAt := rfl
@[simp] theorem Dev.onChan_hostMem : (d.onChan i f).hostMem = d.hostMem := rfl
@[simp] theorem Dev.onChan_bes : (d.onChan i f).bes = d.bes := rfl
@[simp] theorem Dev.onChan_lostBes : (d.onChan i f).lostBes = d.lostBes := rfl
@[simp] theorem Dev.onChan_retired : (d.onChan i f).retired = d.retired := rfl
@[simp] theorem Dev.onChan_healthDirty : (d.onChan i f).healthDirty = d.healthDirty := rfl
@[simp] theorem Dev.onChan_rings : (d.onChan i f).rings = d.rings := rfl
@[simp] theorem Dev.onChan_ringSent : (d.onChan i f).ringSent = d.ringSent := rfl
@[simp] theorem Dev.onChan_beCredits : (d.onChan i f).beCredits = d.beCredits := rfl
@[simp] theorem Dev.onChan_latched : (d.onChan i f).latched = d.latched := rfl
@[simp] theorem Dev.onChan_reinitMarked : (d.onChan i f).reinitMarked = d.reinitMarked := rfl
@[simp] theorem Dev.onChan_reinitRunning : (d.onChan i f).reinitRunning = d.reinitRunning := rfl
@[simp] theorem Dev.onChan_reinitQuiet : (d.onChan i f).reinitQuiet = d.reinitQuiet := rfl
@[simp] theorem Dev.onChan_reinitFrame : (d.onChan i f).reinitFrame = d.reinitFrame := rfl
@[simp] theorem Dev.onChan_planSwitchWanted : (d.onChan i f).planSwitchWanted = d.planSwitchWanted := rfl
@[simp] theorem Dev.onChan_unclosed : (d.onChan i f).unclosed = d.unclosed := rfl
@[simp] theorem Dev.onChan_lostCores : (d.onChan i f).lostCores = d.lostCores := rfl
@[simp] theorem Dev.onChan_events : (d.onChan i f).events = d.events := rfl
@[simp] theorem Dev.onChan_limits : (d.onChan i f).limits = d.limits := rfl
@[simp] theorem Dev.onChan_plan : (d.onChan i f).plan = d.plan := rfl
@[simp] theorem Dev.onChan_tables : (d.onChan i f).tables = d.tables := rfl
@[simp] theorem Dev.onChan_adopt : (d.onChan i f).adopt = d.adopt := rfl
@[simp] theorem Dev.onChan_pipes : (d.onChan i f).pipes = d.pipes := rfl
@[simp] theorem Dev.onChan_guardKept : (d.onChan i f).guardKept = d.guardKept := rfl
@[simp] theorem Dev.onChan_launchQ : (d.onChan i f).launchQ = d.launchQ := rfl
@[simp] theorem Dev.onChan_seqRun : (d.onChan i f).seqRun = d.seqRun := rfl
@[simp] theorem Dev.onChan_streams : (d.onChan i f).streams = d.streams := rfl
@[simp] theorem Dev.onChan_stopped : (d.onChan i f).stopped = d.stopped := rfl
@[simp] theorem Dev.onChan_streamLatch : (d.onChan i f).streamLatch = d.streamLatch := rfl
@[simp] theorem Dev.onChan_layers : (d.onChan i f).layers = d.layers := rfl
@[simp] theorem Dev.onChan_outs : (d.onChan i f).outs = d.outs := rfl
@[simp] theorem Dev.onChan_lantern : (d.onChan i f).lantern = d.lantern := rfl
@[simp] theorem Dev.onChan_auxp : (d.onChan i f).auxp = d.auxp := rfl
@[simp] theorem Dev.onChan_corrRows : (d.onChan i f).corrRows = d.corrRows := rfl
@[simp] theorem Dev.onChan_repair : (d.onChan i f).repair = d.repair := rfl
@[simp] theorem Dev.onChan_hoursBase : (d.onChan i f).hoursBase = d.hoursBase := rfl
@[simp] theorem Dev.onChan_padDed : (d.onChan i f).padDed = d.padDed := rfl
@[simp] theorem Dev.onChan_wear : (d.onChan i f).wear = d.wear := rfl
@[simp] theorem Dev.onChan_selB : (d.onChan i f).selB = d.selB := rfl
@[simp] theorem Dev.onChan_bcnSent : (d.onChan i f).bcnSent = d.bcnSent := rfl
@[simp] theorem Dev.onChan_seamTx : (d.onChan i f).seamTx = d.seamTx := rfl
@[simp] theorem Dev.onChan_seamRx : (d.onChan i f).seamRx = d.seamRx := rfl
@[simp] theorem Dev.onChan_beacon : (d.onChan i f).beacon = d.beacon := rfl
@[simp] theorem Dev.onChan_inst : (d.onChan i f).inst = d.inst := rfl
@[simp] theorem Dev.onChan_cut : (d.onChan i f).cut = d.cut := rfl
@[simp] theorem Dev.onChan_image : (d.onChan i f).image = d.image := rfl
@[simp] theorem Dev.onChan_planNo : (d.onChan i f).planNo = d.planNo := rfl
@[simp] theorem Dev.onChan_spareJobs : (d.onChan i f).spareJobs = d.spareJobs := rfl
@[simp] theorem Dev.onChan_spareAt : (d.onChan i f).spareAt = d.spareAt := rfl
@[simp] theorem Dev.onChan_spareFaults : (d.onChan i f).spareFaults = d.spareFaults := rfl
@[simp] theorem Dev.onChan_parkedKeep : (d.onChan i f).parkedKeep = d.parkedKeep := rfl
@[simp] theorem Dev.onChan_power : (d.onChan i f).power = d.power := rfl
@[simp] theorem Dev.onChan_flash : (d.onChan i f).flash = d.flash := rfl
@[simp] theorem Dev.onChan_mail : (d.onChan i f).mail = d.mail := rfl
@[simp] theorem Dev.onChan_jtag : (d.onChan i f).jtag = d.jtag := rfl
@[simp] theorem Dev.onChan_host : (d.onChan i f).host = d.host := rfl
@[simp] theorem Dev.onChan_boot : (d.onChan i f).boot = d.boot := rfl
@[simp] theorem Dev.onChan_analysis : (d.onChan i f).analysis = d.analysis := rfl
@[simp] theorem Dev.onChan_phases : (d.onChan i f).phases = d.phases := rfl
@[simp] theorem Dev.onChan_slack : (d.onChan i f).slack = d.slack := rfl
@[simp] theorem Dev.onChan_slackNow : (d.onChan i f).slackNow = d.slackNow := rfl
@[simp] theorem Dev.onChan_pipeFrame : (d.onChan i f).pipeFrame = d.pipeFrame := rfl
@[simp] theorem Dev.onChan_pipeCount : (d.onChan i f).pipeCount = d.pipeCount := rfl
@[simp] theorem Dev.onChan_lateTold : (d.onChan i f).lateTold = d.lateTold := rfl
@[simp] theorem Dev.onChan_dedAt : (d.onChan i f).dedAt = d.dedAt := rfl
@[simp] theorem Dev.onChan_enhDue : (d.onChan i f).enhDue = d.enhDue := rfl
end

end Sys2Proof.Machine
end

