-- ==== Sys2Proof/Laws/Table.lean ====
section
/-! SUPPORT. Laws of the sparse tables: reading after writing, and that writing keeps the canonical form. -/

namespace Sys2Proof.Machine

variable {α : Type}

@[simp] theorem Tab.get_nil (d : α) (k : Nat) : Tab.get d [] k = d := rfl

theorem Tab.find_insert_same (t : Tab α) (k : Nat) (v : α) : Tab.find (Tab.insert t k v) k = some v := by
  induction t with
  | nil => simp [Tab.insert, Tab.find]
  | cons e t ih =>
    obtain ⟨j, x⟩ := e
    simp only [Tab.insert]
    split
    · simp [Tab.find]
    · split
      · simp [Tab.find]
      · rename_i h; simp [Tab.find, h, ih]

theorem Tab.find_insert_ne (t : Tab α) {k j : Nat} (v : α) (h : j ≠ k) : Tab.find (Tab.insert t k v) j = Tab.find t j := by
  induction t with
  | nil => simp [Tab.insert, Tab.find, h]
  | cons e t ih =>
    obtain ⟨i, x⟩ := e
    simp only [Tab.insert]
    split
    · simp [Tab.find, h]
    · split
      · rename_i hk; subst hk; simp [Tab.find, h]
      · simp [Tab.find, ih]

theorem Tab.find_erase_same (t : Tab α) (k : Nat) : Tab.find (Tab.erase t k) k = none := by
  induction t with
  | nil => rfl
  | cons e t ih =>
    obtain ⟨j, x⟩ := e
    simp only [Tab.erase, ne_eq, decide_not] at ih ⊢
    by_cases h : j = k
    · simp [h, ih]
    · simp [h, Tab.find, ih, Ne.symm h]

theorem Tab.find_erase_ne (t : Tab α) {k j : Nat} (h : j ≠ k) : Tab.find (Tab.erase t k) j = Tab.find t j := by
  induction t with
  | nil => rfl
  | cons e t ih =>
    obtain ⟨i, x⟩ := e
    simp only [Tab.erase, ne_eq, decide_not] at ih ⊢
    by_cases hi : i = k
    · subst hi; simp [Tab.find, h, ih]
    · simp [hi, Tab.find, ih]

/-- A read of the index just written gives the value written. -/
@[simp] theorem Tab.get_put_same [DecidableEq α] (d : α) (t : Tab α) (k : Nat) (v : α) : Tab.get d (Tab.put d t k v) k = v := by
  unfold Tab.get Tab.put
  split
  · rename_i h; simp [Tab.find_erase_same, h]
  · simp [Tab.find_insert_same]

/-- A write leaves every other index alone. -/
theorem Tab.get_put_ne [DecidableEq α] (d d' : α) (t : Tab α) {k j : Nat} (v : α) (h : j ≠ k) :
    Tab.get d' (Tab.put d t k v) j = Tab.get d' t j := by
  unfold Tab.get Tab.put
  split
  · rw [Tab.find_erase_ne t h]
  · rw [Tab.find_insert_ne t v h]

/-- Reading any index after a write. -/
theorem Tab.get_put [DecidableEq α] (d : α) (t : Tab α) (k j : Nat) (v : α) :
    Tab.get d (Tab.put d t k v) j = if j = k then v else Tab.get d t j := by
  by_cases h : j = k
  · subst h; simp
  · simp [h, Tab.get_put_ne d d t v h]

@[simp] theorem Tab.get_modify_same [DecidableEq α] (d : α) (t : Tab α) (k : Nat) (f : α → α) :
    Tab.get d (Tab.modify d t k f) k = f (Tab.get d t k) := by simp [Tab.modify]

theorem Tab.get_modify_ne [DecidableEq α] (d : α) (t : Tab α) {k j : Nat} (f : α → α) (h : j ≠ k) :
    Tab.get d (Tab.modify d t k f) j = Tab.get d t j := Tab.get_put_ne d d t _ h

/-- A write of consecutive values leaves every index outside them alone. -/
theorem Tab.get_putList_out [DecidableEq α] (d : α) (vs : List α) : ∀ (t : Tab α) (k j : Nat),
    (j < k ∨ k + vs.length ≤ j) → Tab.get d (Tab.putList d t k vs) j = Tab.get d t j := by
  induction vs with
  | nil => intro t k j _; rfl
  | cons v vs ih =>
    intro t k j h
    simp only [Tab.putList]
    simp only [List.length_cons] at h
    rw [ih (Tab.put d t k v) (k + 1) j (by omega), Tab.get_put_ne d d t v (by omega)]

/-- A read of consecutive values just written gives them. -/
theorem Tab.getList_putList [DecidableEq α] (d : α) (vs : List α) : ∀ (t : Tab α) (k : Nat),
    Tab.getList d (Tab.putList d t k vs) k vs.length = vs := by
  induction vs with
  | nil => intro t k; rfl
  | cons v vs ih =>
    intro t k
    simp only [Tab.putList, List.length_cons, Tab.getList]
    rw [Tab.get_putList_out d vs _ (k + 1) k (by omega), Tab.get_put_same, ih]

/-! ### The canonical form -/

theorem Tab.keysAbove_le {t : Tab α} {k j : Nat} (h : k ≤ j) (w : Tab.keysAbove j t = true) : Tab.keysAbove k t = true := by
  cases t with
  | nil => rfl
  | cons e t =>
    simp only [Tab.keysAbove, Bool.and_eq_true, decide_eq_true_eq] at w ⊢
    refine ⟨by omega, ?_⟩
    have := w.2
    clear w
    induction t with
    | nil => rfl
    | cons f t ih =>
      simp only [Tab.keysAbove, Bool.and_eq_true, decide_eq_true_eq] at this ⊢
      exact ⟨by omega, ih this.2⟩

theorem Tab.keysAbove_erase {t : Tab α} {j k : Nat} (h : Tab.keysAbove j t = true) : Tab.keysAbove j (Tab.erase t k) = true := by
  simp only [Tab.erase, ne_eq, decide_not]
  induction t with
  | nil => rfl
  | cons e t ih =>
    simp only [Tab.keysAbove, Bool.and_eq_true, decide_eq_true_eq] at h
    by_cases hk : e.1 = k
    · simpa [hk] using ih h.2
    · simp [hk, Tab.keysAbove, h.1, ih h.2]

theorem Tab.wf_erase [DecidableEq α] {d : α} {t : Tab α} (k : Nat) (h : Tab.wf d t = true) : Tab.wf d (Tab.erase t k) = true := by
  induction t with
  | nil => rfl
  | cons e t ih =>
    simp only [Tab.wf, Bool.and_eq_true, decide_eq_true_eq] at h
    have ih := ih h.2
    by_cases hk : e.1 = k
    · simpa [Tab.erase, ne_eq, decide_not, hk] using ih
    · have ka := Tab.keysAbove_erase (k := k) h.1.2
      simp only [Tab.erase, ne_eq, decide_not] at ih ka
      simp [Tab.erase, hk, Tab.wf, h.1.1, ih, ka]

theorem Tab.keysAbove_insert {t : Tab α} {j k : Nat} {v : α} (hj : j < k) (h : Tab.keysAbove j t = true) :
    Tab.keysAbove j (Tab.insert t k v) = true := by
  induction t with
  | nil => simp [Tab.insert, Tab.keysAbove, hj]
  | cons e t ih =>
    simp only [Tab.keysAbove, Bool.and_eq_true, decide_eq_true_eq] at h
    simp only [Tab.insert]
    split
    · simp [Tab.keysAbove, hj, h]
    · split
      · simp [Tab.keysAbove, hj, h.2]
      · simp [Tab.keysAbove, h.1, ih h.2]

theorem Tab.wf_insert [DecidableEq α] {d : α} {t : Tab α} (k : Nat) {v : α} (hv : v ≠ d) (h : Tab.wf d t = true) :
    Tab.wf d (Tab.insert t k v) = true := by
  induction t with
  | nil => simp [Tab.insert, Tab.wf, Tab.keysAbove, hv]
  | cons e t ih =>
    simp only [Tab.wf, Bool.and_eq_true, decide_eq_true_eq] at h
    simp only [Tab.insert]
    split
    · rename_i hk
      simp [Tab.wf, Tab.keysAbove, hv, h, hk, Tab.keysAbove_le (Nat.le_of_lt hk) h.1.2]
    · split
      · rename_i hk; subst hk; simp [Tab.wf, hv, h]
      · rename_i h1 h2
        simp [Tab.wf, h.1.1, ih h.2, Tab.keysAbove_insert (show e.1 < k by omega) h.1.2]

/-- A write keeps the canonical form. -/
theorem Tab.wf_put [DecidableEq α] {d : α} {t : Tab α} (k : Nat) (v : α) (h : Tab.wf d t = true) : Tab.wf d (Tab.put d t k v) = true := by
  unfold Tab.put
  split
  · exact Tab.wf_erase k h
  · rename_i hv; exact Tab.wf_insert k hv h

/-- A write of consecutive values keeps the canonical form. -/
theorem Tab.wf_putList [DecidableEq α] {d : α} (vs : List α) : ∀ {t : Tab α} (k : Nat),
    Tab.wf d t = true → Tab.wf d (Tab.putList d t k vs) = true := by
  induction vs with
  | nil => intro t k h; exact h
  | cons v vs ih => intro t k h; exact ih (k + 1) (Tab.wf_put k v h)

end Sys2Proof.Machine
end

