-- ==== Sys2Proof/Laws/Reads.lean ====
section
/-! SUPPORT. Laws of the reads: what each read of the device answers after each operation. -/

namespace Sys2Proof.Machine


section
variable (d : Dev) (f : Fld) (v : Nat)
@[simp] theorem Dev.wr_core_eq (x : Nat) : (d.wr f v).core x = d.core x := rfl
@[simp] theorem Dev.wr_task_eq (x y : Nat) : (d.wr f v).task x y = d.task x y := rfl
@[simp] theorem Dev.wr_su_eq (x : Nat) : (d.wr f v).su x = d.su x := rfl
@[simp] theorem Dev.wr_be_eq (x : Nat) : (d.wr f v).be x = d.be x := rfl
@[simp] theorem Dev.wr_wc_eq (x y : Nat) : (d.wr f v).wc x y = d.wc x y := rfl
@[simp] theorem Dev.wr_out_eq (x : Nat) : (d.wr f v).out x = d.out x := rfl
@[simp] theorem Dev.wr_layer_eq (x : Nat) : (d.wr f v).layer x = d.layer x := rfl
@[simp] theorem Dev.wr_pipe_eq (x : Nat) : (d.wr f v).pipe x = d.pipe x := rfl
@[simp] theorem Dev.wr_stream_eq (x : Nat) : (d.wr f v).stream x = d.stream x := rfl
@[simp] theorem Dev.wr_byte_eq (x : Nat) : (d.wr f v).byte x = d.byte x := rfl
@[simp] theorem Dev.wr_bytes_eq (x y : Nat) : (d.wr f v).bytes x y = d.bytes x y := rfl
@[simp] theorem Dev.wr_held_eq  : (d.wr f v).held = d.held := rfl
end

section
variable (d : Dev) (b : Bool) (f : Fld) (v : Nat)
@[simp] theorem Dev.wrIf_core_eq (x : Nat) : (d.wrIf b f v).core x = d.core x := rfl
@[simp] theorem Dev.wrIf_task_eq (x y : Nat) : (d.wrIf b f v).task x y = d.task x y := rfl
@[simp] theorem Dev.wrIf_su_eq (x : Nat) : (d.wrIf b f v).su x = d.su x := rfl
@[simp] theorem Dev.wrIf_be_eq (x : Nat) : (d.wrIf b f v).be x = d.be x := rfl
@[simp] theorem Dev.wrIf_wc_eq (x y : Nat) : (d.wrIf b f v).wc x y = d.wc x y := rfl
@[simp] theorem Dev.wrIf_out_eq (x : Nat) : (d.wrIf b f v).out x = d.out x := rfl
@[simp] theorem Dev.wrIf_layer_eq (x : Nat) : (d.wrIf b f v).layer x = d.layer x := rfl
@[simp] theorem Dev.wrIf_pipe_eq (x : Nat) : (d.wrIf b f v).pipe x = d.pipe x := rfl
@[simp] theorem Dev.wrIf_stream_eq (x : Nat) : (d.wrIf b f v).stream x = d.stream x := rfl
@[simp] theorem Dev.wrIf_byte_eq (x : Nat) : (d.wrIf b f v).byte x = d.byte x := rfl
@[simp] theorem Dev.wrIf_bytes_eq (x y : Nat) : (d.wrIf b f v).bytes x y = d.bytes x y := rfl
@[simp] theorem Dev.wrIf_held_eq  : (d.wrIf b f v).held = d.held := rfl
end

section
variable (d : Dev) (f : Fld) (v : Nat)
@[simp] theorem Dev.wrS_core_eq (x : Nat) : (d.wrS f v).core x = d.core x := rfl
@[simp] theorem Dev.wrS_task_eq (x y : Nat) : (d.wrS f v).task x y = d.task x y := rfl
@[simp] theorem Dev.wrS_su_eq (x : Nat) : (d.wrS f v).su x = d.su x := rfl
@[simp] theorem Dev.wrS_be_eq (x : Nat) : (d.wrS f v).be x = d.be x := rfl
@[simp] theorem Dev.wrS_wc_eq (x y : Nat) : (d.wrS f v).wc x y = d.wc x y := rfl
@[simp] theorem Dev.wrS_out_eq (x : Nat) : (d.wrS f v).out x = d.out x := rfl
@[simp] theorem Dev.wrS_layer_eq (x : Nat) : (d.wrS f v).layer x = d.layer x := rfl
@[simp] theorem Dev.wrS_pipe_eq (x : Nat) : (d.wrS f v).pipe x = d.pipe x := rfl
@[simp] theorem Dev.wrS_stream_eq (x : Nat) : (d.wrS f v).stream x = d.stream x := rfl
@[simp] theorem Dev.wrS_byte_eq (x : Nat) : (d.wrS f v).byte x = d.byte x := rfl
@[simp] theorem Dev.wrS_bytes_eq (x y : Nat) : (d.wrS f v).bytes x y = d.bytes x y := rfl
@[simp] theorem Dev.wrS_held_eq  : (d.wrS f v).held = d.held := rfl
end

section
variable (d : Dev) (n : Nat)
@[simp] theorem Dev.useFree_rd_eq (g : Fld) : (d.useFree n).rd g = d.rd g := rfl
@[simp] theorem Dev.useFree_rdS_eq (g : Fld) : (d.useFree n).rdS g = d.rdS g := rfl
@[simp] theorem Dev.useFree_bit_eq (g : Fld) : (d.useFree n).bit g = d.bit g := rfl
@[simp] theorem Dev.useFree_bitAt_eq (g : Fld) (x : Nat) : (d.useFree n).bitAt g x = d.bitAt g x := rfl
@[simp] theorem Dev.useFree_tstate_eq (x y : Nat) : (d.useFree n).tstate x y = d.tstate x y := rfl
@[simp] theorem Dev.useFree_mcState_eq (x : Nat) : (d.useFree n).mcState x = d.mcState x := rfl
@[simp] theorem Dev.useFree_hostOpen_eq  : (d.useFree n).hostOpen = d.hostOpen := rfl
@[simp] theorem Dev.useFree_core_eq (x : Nat) : (d.useFree n).core x = d.core x := rfl
@[simp] theorem Dev.useFree_task_eq (x y : Nat) : (d.useFree n).task x y = d.task x y := rfl
@[simp] theorem Dev.useFree_su_eq (x : Nat) : (d.useFree n).su x = d.su x := rfl
@[simp] theorem Dev.useFree_be_eq (x : Nat) : (d.useFree n).be x = d.be x := rfl
@[simp] theorem Dev.useFree_wc_eq (x y : Nat) : (d.useFree n).wc x y = d.wc x y := rfl
@[simp] theorem Dev.useFree_out_eq (x : Nat) : (d.useFree n).out x = d.out x := rfl
@[simp] theorem Dev.useFree_layer_eq (x : Nat) : (d.useFree n).layer x = d.layer x := rfl
@[simp] theorem Dev.useFree_pipe_eq (x : Nat) : (d.useFree n).pipe x = d.pipe x := rfl
@[simp] theorem Dev.useFree_stream_eq (x : Nat) : (d.useFree n).stream x = d.stream x := rfl
@[simp] theorem Dev.useFree_byte_eq (x : Nat) : (d.useFree n).byte x = d.byte x := rfl
@[simp] theorem Dev.useFree_bytes_eq (x y : Nat) : (d.useFree n).bytes x y = d.bytes x y := rfl
@[simp] theorem Dev.useFree_held_eq  : (d.useFree n).held = d.held := rfl
end

section
variable (d : Dev) 
@[simp] theorem Dev.padOk_rd_eq (g : Fld) : (d.padOk).rd g = d.rd g := rfl
@[simp] theorem Dev.padOk_rdS_eq (g : Fld) : (d.padOk).rdS g = d.rdS g := rfl
@[simp] theorem Dev.padOk_bit_eq (g : Fld) : (d.padOk).bit g = d.bit g := rfl
@[simp] theorem Dev.padOk_bitAt_eq (g : Fld) (x : Nat) : (d.padOk).bitAt g x = d.bitAt g x := rfl
@[simp] theorem Dev.padOk_tstate_eq (x y : Nat) : (d.padOk).tstate x y = d.tstate x y := rfl
@[simp] theorem Dev.padOk_mcState_eq (x : Nat) : (d.padOk).mcState x = d.mcState x := rfl
@[simp] theorem Dev.padOk_hostOpen_eq  : (d.padOk).hostOpen = d.hostOpen := rfl
@[simp] theorem Dev.padOk_core_eq (x : Nat) : (d.padOk).core x = d.core x := rfl
@[simp] theorem Dev.padOk_task_eq (x y : Nat) : (d.padOk).task x y = d.task x y := rfl
@[simp] theorem Dev.padOk_su_eq (x : Nat) : (d.padOk).su x = d.su x := rfl
@[simp] theorem Dev.padOk_be_eq (x : Nat) : (d.padOk).be x = d.be x := rfl
@[simp] theorem Dev.padOk_wc_eq (x y : Nat) : (d.padOk).wc x y = d.wc x y := rfl
@[simp] theorem Dev.padOk_out_eq (x : Nat) : (d.padOk).out x = d.out x := rfl
@[simp] theorem Dev.padOk_layer_eq (x : Nat) : (d.padOk).layer x = d.layer x := rfl
@[simp] theorem Dev.padOk_pipe_eq (x : Nat) : (d.padOk).pipe x = d.pipe x := rfl
@[simp] theorem Dev.padOk_stream_eq (x : Nat) : (d.padOk).stream x = d.stream x := rfl
@[simp] theorem Dev.padOk_byte_eq (x : Nat) : (d.padOk).byte x = d.byte x := rfl
@[simp] theorem Dev.padOk_bytes_eq (x y : Nat) : (d.padOk).bytes x y = d.bytes x y := rfl
@[simp] theorem Dev.padOk_held_eq  : (d.padOk).held = d.held := rfl
end

section
variable (d : Dev) (a : Nat) (b : Byte)
@[simp] theorem Dev.setByte_rd_eq (g : Fld) : (d.setByte a b).rd g = d.rd g := rfl
@[simp] theorem Dev.setByte_rdS_eq (g : Fld) : (d.setByte a b).rdS g = d.rdS g := rfl
@[simp] theorem Dev.setByte_bit_eq (g : Fld) : (d.setByte a b).bit g = d.bit g := rfl
@[simp] theorem Dev.setByte_bitAt_eq (g : Fld) (x : Nat) : (d.setByte a b).bitAt g x = d.bitAt g x := rfl
@[simp] theorem Dev.setByte_tstate_eq (x y : Nat) : (d.setByte a b).tstate x y = d.tstate x y := rfl
@[simp] theorem Dev.setByte_mcState_eq (x : Nat) : (d.setByte a b).mcState x = d.mcState x := rfl
@[simp] theorem Dev.setByte_hostOpen_eq  : (d.setByte a b).hostOpen = d.hostOpen := rfl
@[simp] theorem Dev.setByte_core_eq (x : Nat) : (d.setByte a b).core x = d.core x := rfl
@[simp] theorem Dev.setByte_task_eq (x y : Nat) : (d.setByte a b).task x y = d.task x y := rfl
@[simp] theorem Dev.setByte_su_eq (x : Nat) : (d.setByte a b).su x = d.su x := rfl
@[simp] theorem Dev.setByte_be_eq (x : Nat) : (d.setByte a b).be x = d.be x := rfl
@[simp] theorem Dev.setByte_wc_eq (x y : Nat) : (d.setByte a b).wc x y = d.wc x y := rfl
@[simp] theorem Dev.setByte_out_eq (x : Nat) : (d.setByte a b).out x = d.out x := rfl
@[simp] theorem Dev.setByte_layer_eq (x : Nat) : (d.setByte a b).layer x = d.layer x := rfl
@[simp] theorem Dev.setByte_pipe_eq (x : Nat) : (d.setByte a b).pipe x = d.pipe x := rfl
@[simp] theorem Dev.setByte_stream_eq (x : Nat) : (d.setByte a b).stream x = d.stream x := rfl
@[simp] theorem Dev.setByte_held_eq  : (d.setByte a b).held = d.held := rfl
end

section
variable (d : Dev) (a : Nat) (bs : Bytes)
@[simp] theorem Dev.setBytes_rd_eq (g : Fld) : (d.setBytes a bs).rd g = d.rd g := rfl
@[simp] theorem Dev.setBytes_rdS_eq (g : Fld) : (d.setBytes a bs).rdS g = d.rdS g := rfl
@[simp] theorem Dev.setBytes_bit_eq (g : Fld) : (d.setBytes a bs).bit g = d.bit g := rfl
@[simp] theorem Dev.setBytes_bitAt_eq (g : Fld) (x : Nat) : (d.setBytes a bs).bitAt g x = d.bitAt g x := rfl
@[simp] theorem Dev.setBytes_tstate_eq (x y : Nat) : (d.setBytes a bs).tstate x y = d.tstate x y := rfl
@[simp] theorem Dev.setBytes_mcState_eq (x : Nat) : (d.setBytes a bs).mcState x = d.mcState x := rfl
@[simp] theorem Dev.setBytes_hostOpen_eq  : (d.setBytes a bs).hostOpen = d.hostOpen := rfl
@[simp] theorem Dev.setBytes_core_eq (x : Nat) : (d.setBytes a bs).core x = d.core x := rfl
@[simp] theorem Dev.setBytes_task_eq (x y : Nat) : (d.setBytes a bs).task x y = d.task x y := rfl
@[simp] theorem Dev.setBytes_su_eq (x : Nat) : (d.setBytes a bs).su x = d.su x := rfl
@[simp] theorem Dev.setBytes_be_eq (x : Nat) : (d.setBytes a bs).be x = d.be x := rfl
@[simp] theorem Dev.setBytes_wc_eq (x y : Nat) : (d.setBytes a bs).wc x y = d.wc x y := rfl
@[simp] theorem Dev.setBytes_out_eq (x : Nat) : (d.setBytes a bs).out x = d.out x := rfl
@[simp] theorem Dev.setBytes_layer_eq (x : Nat) : (d.setBytes a bs).layer x = d.layer x := rfl
@[simp] theorem Dev.setBytes_pipe_eq (x : Nat) : (d.setBytes a bs).pipe x = d.pipe x := rfl
@[simp] theorem Dev.setBytes_stream_eq (x : Nat) : (d.setBytes a bs).stream x = d.stream x := rfl
@[simp] theorem Dev.setBytes_held_eq  : (d.setBytes a bs).held = d.held := rfl
end

section
variable (d : Dev) (c : Nat) (f : Core → Core)
@[simp] theorem Dev.onCore_rd_eq (g : Fld) : (d.onCore c f).rd g = d.rd g := rfl
@[simp] theorem Dev.onCore_rdS_eq (g : Fld) : (d.onCore c f).rdS g = d.rdS g := rfl
@[simp] theorem Dev.onCore_bit_eq (g : Fld) : (d.onCore c f).bit g = d.bit g := rfl
@[simp] theorem Dev.onCore_bitAt_eq (g : Fld) (x : Nat) : (d.onCore c f).bitAt g x = d.bitAt g x := rfl
@[simp] theorem Dev.onCore_tstate_eq (x y : Nat) : (d.onCore c f).tstate x y = d.tstate x y := rfl
@[simp] theorem Dev.onCore_mcState_eq (x : Nat) : (d.onCore c f).mcState x = d.mcState x := rfl
@[simp] theorem Dev.onCore_hostOpen_eq  : (d.onCore c f).hostOpen = d.hostOpen := rfl
@[simp] theorem Dev.onCore_su_eq (x : Nat) : (d.onCore c f).su x = d.su x := rfl
@[simp] theorem Dev.onCore_be_eq (x : Nat) : (d.onCore c f).be x = d.be x := rfl
@[simp] theorem Dev.onCore_wc_eq (x y : Nat) : (d.onCore c f).wc x y = d.wc x y := rfl
@[simp] theorem Dev.onCore_out_eq (x : Nat) : (d.onCore c f).out x = d.out x := rfl
@[simp] theorem Dev.onCore_layer_eq (x : Nat) : (d.onCore c f).layer x = d.layer x := rfl
@[simp] theorem Dev.onCore_pipe_eq (x : Nat) : (d.onCore c f).pipe x = d.pipe x := rfl
@[simp] theorem Dev.onCore_stream_eq (x : Nat) : (d.onCore c f).stream x = d.stream x := rfl
@[simp] theorem Dev.onCore_byte_eq (x : Nat) : (d.onCore c f).byte x = d.byte x := rfl
@[simp] theorem Dev.onCore_bytes_eq (x y : Nat) : (d.onCore c f).bytes x y = d.bytes x y := rfl
@[simp] theorem Dev.onCore_held_eq  : (d.onCore c f).held = d.held := rfl
end

section
variable (d : Dev) (c t : Nat) (f : Task → Task)
@[simp] theorem Dev.onTask_rd_eq (g : Fld) : (d.onTask c t f).rd g = d.rd g := rfl
@[simp] theorem Dev.onTask_rdS_eq (g : Fld) : (d.onTask c t f).rdS g = d.rdS g := rfl
@[simp] theorem Dev.onTask_bit_eq (g : Fld) : (d.onTask c t f).bit g = d.bit g := rfl
@[simp] theorem Dev.onTask_bitAt_eq (g : Fld) (x : Nat) : (d.onTask c t f).bitAt g x = d.bitAt g x := rfl
@[simp] theorem Dev.onTask_tstate_eq (x y : Nat) : (d.onTask c t f).tstate x y = d.tstate x y := rfl
@[simp] theorem Dev.onTask_mcState_eq (x : Nat) : (d.onTask c t f).mcState x = d.mcState x := rfl
@[simp] theorem Dev.onTask_hostOpen_eq  : (d.onTask c t f).hostOpen = d.hostOpen := rfl
@[simp] theorem Dev.onTask_su_eq (x : Nat) : (d.onTask c t f).su x = d.su x := rfl
@[simp] theorem Dev.onTask_be_eq (x : Nat) : (d.onTask c t f).be x = d.be x := rfl
@[simp] theorem Dev.onTask_wc_eq (x y : Nat) : (d.onTask c t f).wc x y = d.wc x y := rfl
@[simp] theorem Dev.onTask_out_eq (x : Nat) : (d.onTask c t f).out x = d.out x := rfl
@[simp] theorem Dev.onTask_layer_eq (x : Nat) : (d.onTask c t f).layer x = d.layer x := rfl
@[simp] theorem Dev.onTask_pipe_eq (x : Nat) : (d.onTask c t f).pipe x = d.pipe x := rfl
@[simp] theorem Dev.onTask_stream_eq (x : Nat) : (d.onTask c t f).stream x = d.stream x := rfl
@[simp] theorem Dev.onTask_byte_eq (x : Nat) : (d.onTask c t f).byte x = d.byte x := rfl
@[simp] theorem Dev.onTask_bytes_eq (x y : Nat) : (d.onTask c t f).bytes x y = d.bytes x y := rfl
@[simp] theorem Dev.onTask_held_eq  : (d.onTask c t f).held = d.held := rfl
end

section
variable (d : Dev) (a b : Node) (m : Body)
@[simp] theorem Dev.send_rd_eq (g : Fld) : (d.send a b m).rd g = d.rd g := rfl
@[simp] theorem Dev.send_rdS_eq (g : Fld) : (d.send a b m).rdS g = d.rdS g := rfl
@[simp] theorem Dev.send_bit_eq (g : Fld) : (d.send a b m).bit g = d.bit g := rfl
@[simp] theorem Dev.send_bitAt_eq (g : Fld) (x : Nat) : (d.send a b m).bitAt g x = d.bitAt g x := rfl
@[simp] theorem Dev.send_tstate_eq (x y : Nat) : (d.send a b m).tstate x y = d.tstate x y := rfl
@[simp] theorem Dev.send_mcState_eq (x : Nat) : (d.send a b m).mcState x = d.mcState x := rfl
@[simp] theorem Dev.send_hostOpen_eq  : (d.send a b m).hostOpen = d.hostOpen := rfl
@[simp] theorem Dev.send_core_eq (x : Nat) : (d.send a b m).core x = d.core x := rfl
@[simp] theorem Dev.send_task_eq (x y : Nat) : (d.send a b m).task x y = d.task x y := rfl
@[simp] theorem Dev.send_su_eq (x : Nat) : (d.send a b m).su x = d.su x := rfl
@[simp] theorem Dev.send_be_eq (x : Nat) : (d.send a b m).be x = d.be x := rfl
@[simp] theorem Dev.send_wc_eq (x y : Nat) : (d.send a b m).wc x y = d.wc x y := rfl
@[simp] theorem Dev.send_out_eq (x : Nat) : (d.send a b m).out x = d.out x := rfl
@[simp] theorem Dev.send_layer_eq (x : Nat) : (d.send a b m).layer x = d.layer x := rfl
@[simp] theorem Dev.send_pipe_eq (x : Nat) : (d.send a b m).pipe x = d.pipe x := rfl
@[simp] theorem Dev.send_stream_eq (x : Nat) : (d.send a b m).stream x = d.stream x := rfl
@[simp] theorem Dev.send_byte_eq (x : Nat) : (d.send a b m).byte x = d.byte x := rfl
@[simp] theorem Dev.send_bytes_eq (x y : Nat) : (d.send a b m).bytes x y = d.bytes x y := rfl
@[simp] theorem Dev.send_held_eq  : (d.send a b m).held = d.held := rfl
end

section
variable (d : Dev) (i : Nat)
@[simp] theorem Dev.taken_rd_eq (g : Fld) : (d.taken i).rd g = d.rd g := rfl
@[simp] theorem Dev.taken_rdS_eq (g : Fld) : (d.taken i).rdS g = d.rdS g := rfl
@[simp] theorem Dev.taken_bit_eq (g : Fld) : (d.taken i).bit g = d.bit g := rfl
@[simp] theorem Dev.taken_bitAt_eq (g : Fld) (x : Nat) : (d.taken i).bitAt g x = d.bitAt g x := rfl
@[simp] theorem Dev.taken_tstate_eq (x y : Nat) : (d.taken i).tstate x y = d.tstate x y := rfl
@[simp] theorem Dev.taken_mcState_eq (x : Nat) : (d.taken i).mcState x = d.mcState x := rfl
@[simp] theorem Dev.taken_hostOpen_eq  : (d.taken i).hostOpen = d.hostOpen := rfl
@[simp] theorem Dev.taken_core_eq (x : Nat) : (d.taken i).core x = d.core x := rfl
@[simp] theorem Dev.taken_task_eq (x y : Nat) : (d.taken i).task x y = d.task x y := rfl
@[simp] theorem Dev.taken_su_eq (x : Nat) : (d.taken i).su x = d.su x := rfl
@[simp] theorem Dev.taken_be_eq (x : Nat) : (d.taken i).be x = d.be x := rfl
@[simp] theorem Dev.taken_wc_eq (x y : Nat) : (d.taken i).wc x y = d.wc x y := rfl
@[simp] theorem Dev.taken_out_eq (x : Nat) : (d.taken i).out x = d.out x := rfl
@[simp] theorem Dev.taken_layer_eq (x : Nat) : (d.taken i).layer x = d.layer x := rfl
@[simp] theorem Dev.taken_pipe_eq (x : Nat) : (d.taken i).pipe x = d.pipe x := rfl
@[simp] theorem Dev.taken_stream_eq (x : Nat) : (d.taken i).stream x = d.stream x := rfl
@[simp] theorem Dev.taken_byte_eq (x : Nat) : (d.taken i).byte x = d.byte x := rfl
@[simp] theorem Dev.taken_bytes_eq (x y : Nat) : (d.taken i).bytes x y = d.bytes x y := rfl
@[simp] theorem Dev.taken_held_eq  : (d.taken i).held = d.held := rfl
end

section
variable (d : Dev) (a b c : Nat) (l : List Nat) (p q : Bool)
@[simp] theorem Dev.raise_core_eq (x : Nat) : (d.raise a b c l p q).core x = d.core x := rfl
@[simp] theorem Dev.raise_task_eq (x y : Nat) : (d.raise a b c l p q).task x y = d.task x y := rfl
@[simp] theorem Dev.raise_su_eq (x : Nat) : (d.raise a b c l p q).su x = d.su x := rfl
@[simp] theorem Dev.raise_be_eq (x : Nat) : (d.raise a b c l p q).be x = d.be x := rfl
@[simp] theorem Dev.raise_wc_eq (x y : Nat) : (d.raise a b c l p q).wc x y = d.wc x y := rfl
@[simp] theorem Dev.raise_out_eq (x : Nat) : (d.raise a b c l p q).out x = d.out x := rfl
@[simp] theorem Dev.raise_layer_eq (x : Nat) : (d.raise a b c l p q).layer x = d.layer x := rfl
@[simp] theorem Dev.raise_pipe_eq (x : Nat) : (d.raise a b c l p q).pipe x = d.pipe x := rfl
@[simp] theorem Dev.raise_stream_eq (x : Nat) : (d.raise a b c l p q).stream x = d.stream x := rfl
@[simp] theorem Dev.raise_byte_eq (x : Nat) : (d.raise a b c l p q).byte x = d.byte x := rfl
@[simp] theorem Dev.raise_bytes_eq (x y : Nat) : (d.raise a b c l p q).bytes x y = d.bytes x y := rfl
@[simp] theorem Dev.raise_held_eq  : (d.raise a b c l p q).held = d.held := rfl
end

section
variable (d : Dev) (u : Nat) (f : Su → Su)
@[simp] theorem Dev.onSu_rd_eq (g : Fld) : (d.onSu u f).rd g = d.rd g := rfl
@[simp] theorem Dev.onSu_rdS_eq (g : Fld) : (d.onSu u f).rdS g = d.rdS g := rfl
@[simp] theorem Dev.onSu_bit_eq (g : Fld) : (d.onSu u f).bit g = d.bit g := rfl
@[simp] theorem Dev.onSu_bitAt_eq (g : Fld) (x : Nat) : (d.onSu u f).bitAt g x = d.bitAt g x := rfl
@[simp] theorem Dev.onSu_tstate_eq (x y : Nat) : (d.onSu u f).tstate x y = d.tstate x y := rfl
@[simp] theorem Dev.onSu_mcState_eq (x : Nat) : (d.onSu u f).mcState x = d.mcState x := rfl
@[simp] theorem Dev.onSu_hostOpen_eq  : (d.onSu u f).hostOpen = d.hostOpen := rfl
@[simp] theorem Dev.onSu_core_eq (x : Nat) : (d.onSu u f).core x = d.core x := rfl
@[simp] theorem Dev.onSu_task_eq (x y : Nat) : (d.onSu u f).task x y = d.task x y := rfl
@[simp] theorem Dev.onSu_be_eq (x : Nat) : (d.onSu u f).be x = d.be x := rfl
@[simp] theorem Dev.onSu_wc_eq (x y : Nat) : (d.onSu u f).wc x y = d.wc x y := rfl
@[simp] theorem Dev.onSu_out_eq (x : Nat) : (d.onSu u f).out x = d.out x := rfl
@[simp] theorem Dev.onSu_layer_eq (x : Nat) : (d.onSu u f).layer x = d.layer x := rfl
@[simp] theorem Dev.onSu_pipe_eq (x : Nat) : (d.onSu u f).pipe x = d.pipe x := rfl
@[simp] theorem Dev.onSu_stream_eq (x : Nat) : (d.onSu u f).stream x = d.stream x := rfl
@[simp] theorem Dev.onSu_byte_eq (x : Nat) : (d.onSu u f).byte x = d.byte x := rfl
@[simp] theorem Dev.onSu_bytes_eq (x y : Nat) : (d.onSu u f).bytes x y = d.bytes x y := rfl
@[simp] theorem Dev.onSu_held_eq  : (d.onSu u f).held = d.held := rfl
end

section
variable (d : Dev) (u : Nat) (f : Be → Be)
@[simp] theorem Dev.onBe_rd_eq (g : Fld) : (d.onBe u f).rd g = d.rd g := rfl
@[simp] theorem Dev.onBe_rdS_eq (g : Fld) : (d.onBe u f).rdS g = d.rdS g := rfl
@[simp] theorem Dev.onBe_bit_eq (g : Fld) : (d.onBe u f).bit g = d.bit g := rfl
@[simp] theorem Dev.onBe_bitAt_eq (g : Fld) (x : Nat) : (d.onBe u f).bitAt g x = d.bitAt g x := rfl
@[simp] theorem Dev.onBe_tstate_eq (x y : Nat) : (d.onBe u f).tstate x y = d.tstate x y := rfl
@[simp] theorem Dev.onBe_mcState_eq (x : Nat) : (d.onBe u f).mcState x = d.mcState x := rfl
@[simp] theorem Dev.onBe_hostOpen_eq  : (d.onBe u f).hostOpen = d.hostOpen := rfl
@[simp] theorem Dev.onBe_core_eq (x : Nat) : (d.onBe u f).core x = d.core x := rfl
@[simp] theorem Dev.onBe_task_eq (x y : Nat) : (d.onBe u f).task x y = d.task x y := rfl
@[simp] theorem Dev.onBe_su_eq (x : Nat) : (d.onBe u f).su x = d.su x := rfl
@[simp] theorem Dev.onBe_wc_eq (x y : Nat) : (d.onBe u f).wc x y = d.wc x y := rfl
@[simp] theorem Dev.onBe_out_eq (x : Nat) : (d.onBe u f).out x = d.out x := rfl
@[simp] theorem Dev.onBe_layer_eq (x : Nat) : (d.onBe u f).layer x = d.layer x := rfl
@[simp] theorem Dev.onBe_pipe_eq (x : Nat) : (d.onBe u f).pipe x = d.pipe x := rfl
@[simp] theorem Dev.onBe_stream_eq (x : Nat) : (d.onBe u f).stream x = d.stream x := rfl
@[simp] theorem Dev.onBe_byte_eq (x : Nat) : (d.onBe u f).byte x = d.byte x := rfl
@[simp] theorem Dev.onBe_bytes_eq (x y : Nat) : (d.onBe u f).bytes x y = d.bytes x y := rfl
@[simp] theorem Dev.onBe_held_eq  : (d.onBe u f).held = d.held := rfl
end

section
variable (d : Dev) (n w : Nat) (f : Wc → Wc)
@[simp] theorem Dev.onWc_rd_eq (g : Fld) : (d.onWc n w f).rd g = d.rd g := rfl
@[simp] theorem Dev.onWc_rdS_eq (g : Fld) : (d.onWc n w f).rdS g = d.rdS g := rfl
@[simp] theorem Dev.onWc_bit_eq (g : Fld) : (d.onWc n w f).bit g = d.bit g := rfl
@[simp] theorem Dev.onWc_bitAt_eq (g : Fld) (x : Nat) : (d.onWc n w f).bitAt g x = d.bitAt g x := rfl
@[simp] theorem Dev.onWc_tstate_eq (x y : Nat) : (d.onWc n w f).tstate x y = d.tstate x y := rfl
@[simp] theorem Dev.onWc_mcState_eq (x : Nat) : (d.onWc n w f).mcState x = d.mcState x := rfl
@[simp] theorem Dev.onWc_hostOpen_eq  : (d.onWc n w f).hostOpen = d.hostOpen := rfl
@[simp] theorem Dev.onWc_core_eq (x : Nat) : (d.onWc n w f).core x = d.core x := rfl
@[simp] theorem Dev.onWc_task_eq (x y : Nat) : (d.onWc n w f).task x y = d.task x y := rfl
@[simp] theorem Dev.onWc_su_eq (x : Nat) : (d.onWc n w f).su x = d.su x := rfl
@[simp] theorem Dev.onWc_be_eq (x : Nat) : (d.onWc n w f).be x = d.be x := rfl
@[simp] theorem Dev.onWc_out_eq (x : Nat) : (d.onWc n w f).out x = d.out x := rfl
@[simp] theorem Dev.onWc_layer_eq (x : Nat) : (d.onWc n w f).layer x = d.layer x := rfl
@[simp] theorem Dev.onWc_pipe_eq (x : Nat) : (d.onWc n w f).pipe x = d.pipe x := rfl
@[simp] theorem Dev.onWc_stream_eq (x : Nat) : (d.onWc n w f).stream x = d.stream x := rfl
@[simp] theorem Dev.onWc_byte_eq (x : Nat) : (d.onWc n w f).byte x = d.byte x := rfl
@[simp] theorem Dev.onWc_bytes_eq (x y : Nat) : (d.onWc n w f).bytes x y = d.bytes x y := rfl
@[simp] theorem Dev.onWc_held_eq  : (d.onWc n w f).held = d.held := rfl
end

section
variable (d : Dev) (o : Nat) (f : OutSt → OutSt)
@[simp] theorem Dev.onOut_rd_eq (g : Fld) : (d.onOut o f).rd g = d.rd g := rfl
@[simp] theorem Dev.onOut_rdS_eq (g : Fld) : (d.onOut o f).rdS g = d.rdS g := rfl
@[simp] theorem Dev.onOut_bit_eq (g : Fld) : (d.onOut o f).bit g = d.bit g := rfl
@[simp] theorem Dev.onOut_bitAt_eq (g : Fld) (x : Nat) : (d.onOut o f).bitAt g x = d.bitAt g x := rfl
@[simp] theorem Dev.onOut_tstate_eq (x y : Nat) : (d.onOut o f).tstate x y = d.tstate x y := rfl
@[simp] theorem Dev.onOut_mcState_eq (x : Nat) : (d.onOut o f).mcState x = d.mcState x := rfl
@[simp] theorem Dev.onOut_hostOpen_eq  : (d.onOut o f).hostOpen = d.hostOpen := rfl
@[simp] theorem Dev.onOut_core_eq (x : Nat) : (d.onOut o f).core x = d.core x := rfl
@[simp] theorem Dev.onOut_task_eq (x y : Nat) : (d.onOut o f).task x y = d.task x y := rfl
@[simp] theorem Dev.onOut_su_eq (x : Nat) : (d.onOut o f).su x = d.su x := rfl
@[simp] theorem Dev.onOut_be_eq (x : Nat) : (d.onOut o f).be x = d.be x := rfl
@[simp] theorem Dev.onOut_wc_eq (x y : Nat) : (d.onOut o f).wc x y = d.wc x y := rfl
@[simp] theorem Dev.onOut_layer_eq (x : Nat) : (d.onOut o f).layer x = d.layer x := rfl
@[simp] theorem Dev.onOut_pipe_eq (x : Nat) : (d.onOut o f).pipe x = d.pipe x := rfl
@[simp] theorem Dev.onOut_stream_eq (x : Nat) : (d.onOut o f).stream x = d.stream x := rfl
@[simp] theorem Dev.onOut_byte_eq (x : Nat) : (d.onOut o f).byte x = d.byte x := rfl
@[simp] theorem Dev.onOut_bytes_eq (x y : Nat) : (d.onOut o f).bytes x y = d.bytes x y := rfl
@[simp] theorem Dev.onOut_held_eq  : (d.onOut o f).held = d.held := rfl
end

section
variable (d : Dev) (j : Nat) (f : Layer → Layer)
@[simp] theorem Dev.onLayer_rd_eq (g : Fld) : (d.onLayer j f).rd g = d.rd g := rfl
@[simp] theorem Dev.onLayer_rdS_eq (g : Fld) : (d.onLayer j f).rdS g = d.rdS g := rfl
@[simp] theorem Dev.onLayer_bit_eq (g : Fld) : (d.onLayer j f).bit g = d.bit g := rfl
@[simp] theorem Dev.onLayer_bitAt_eq (g : Fld) (x : Nat) : (d.onLayer j f).bitAt g x = d.bitAt g x := rfl
@[simp] theorem Dev.onLayer_tstate_eq (x y : Nat) : (d.onLayer j f).tstate x y = d.tstate x y := rfl
@[simp] theorem Dev.onLayer_mcState_eq (x : Nat) : (d.onLayer j f).mcState x = d.mcState x := rfl
@[simp] theorem Dev.onLayer_hostOpen_eq  : (d.onLayer j f).hostOpen = d.hostOpen := rfl
@[simp] theorem Dev.onLayer_core_eq (x : Nat) : (d.onLayer j f).core x = d.core x := rfl
@[simp] theorem Dev.onLayer_task_eq (x y : Nat) : (d.onLayer j f).task x y = d.task x y := rfl
@[simp] theorem Dev.onLayer_su_eq (x : Nat) : (d.onLayer j f).su x = d.su x := rfl
@[simp] theorem Dev.onLayer_be_eq (x : Nat) : (d.onLayer j f).be x = d.be x := rfl
@[simp] theorem Dev.onLayer_wc_eq (x y : Nat) : (d.onLayer j f).wc x y = d.wc x y := rfl
@[simp] theorem Dev.onLayer_out_eq (x : Nat) : (d.onLayer j f).out x = d.out x := rfl
@[simp] theorem Dev.onLayer_pipe_eq (x : Nat) : (d.onLayer j f).pipe x = d.pipe x := rfl
@[simp] theorem Dev.onLayer_stream_eq (x : Nat) : (d.onLayer j f).stream x = d.stream x := rfl
@[simp] theorem Dev.onLayer_byte_eq (x : Nat) : (d.onLayer j f).byte x = d.byte x := rfl
@[simp] theorem Dev.onLayer_bytes_eq (x y : Nat) : (d.onLayer j f).bytes x y = d.bytes x y := rfl
@[simp] theorem Dev.onLayer_held_eq  : (d.onLayer j f).held = d.held := rfl
end

section
variable (d : Dev) (p : Nat) (f : Pipe → Pipe)
@[simp] theorem Dev.onPipe_rd_eq (g : Fld) : (d.onPipe p f).rd g = d.rd g := rfl
@[simp] theorem Dev.onPipe_rdS_eq (g : Fld) : (d.onPipe p f).rdS g = d.rdS g := rfl
@[simp] theorem Dev.onPipe_bit_eq (g : Fld) : (d.onPipe p f).bit g = d.bit g := rfl
@[simp] theorem Dev.onPipe_bitAt_eq (g : Fld) (x : Nat) : (d.onPipe p f).bitAt g x = d.bitAt g x := rfl
@[simp] theorem Dev.onPipe_tstate_eq (x y : Nat) : (d.onPipe p f).tstate x y = d.tstate x y := rfl
@[simp] theorem Dev.onPipe_mcState_eq (x : Nat) : (d.onPipe p f).mcState x = d.mcState x := rfl
@[simp] theorem Dev.onPipe_hostOpen_eq  : (d.onPipe p f).hostOpen = d.hostOpen := rfl
@[simp] theorem Dev.onPipe_core_eq (x : Nat) : (d.onPipe p f).core x = d.core x := rfl
@[simp] theorem Dev.onPipe_task_eq (x y : Nat) : (d.onPipe p f).task x y = d.task x y := rfl
@[simp] theorem Dev.onPipe_su_eq (x : Nat) : (d.onPipe p f).su x = d.su x := rfl
@[simp] theorem Dev.onPipe_be_eq (x : Nat) : (d.onPipe p f).be x = d.be x := rfl
@[simp] theorem Dev.onPipe_wc_eq (x y : Nat) : (d.onPipe p f).wc x y = d.wc x y := rfl
@[simp] theorem Dev.onPipe_out_eq (x : Nat) : (d.onPipe p f).out x = d.out x := rfl
@[simp] theorem Dev.onPipe_layer_eq (x : Nat) : (d.onPipe p f).layer x = d.layer x := rfl
@[simp] theorem Dev.onPipe_stream_eq (x : Nat) : (d.onPipe p f).stream x = d.stream x := rfl
@[simp] theorem Dev.onPipe_byte_eq (x : Nat) : (d.onPipe p f).byte x = d.byte x := rfl
@[simp] theorem Dev.onPipe_bytes_eq (x y : Nat) : (d.onPipe p f).bytes x y = d.bytes x y := rfl
@[simp] theorem Dev.onPipe_held_eq  : (d.onPipe p f).held = d.held := rfl
end

section
variable (d : Dev) (i : Nat) (f : Stream → Stream)
@[simp] theorem Dev.onStream_rd_eq (g : Fld) : (d.onStream i f).rd g = d.rd g := rfl
@[simp] theorem Dev.onStream_rdS_eq (g : Fld) : (d.onStream i f).rdS g = d.rdS g := rfl
@[simp] theorem Dev.onStream_bit_eq (g : Fld) : (d.onStream i f).bit g = d.bit g := rfl
@[simp] theorem Dev.onStream_bitAt_eq (g : Fld) (x : Nat) : (d.onStream i f).bitAt g x = d.bitAt g x := rfl
@[simp] theorem Dev.onStream_tstate_eq (x y : Nat) : (d.onStream i f).tstate x y = d.tstate x y := rfl
@[simp] theorem Dev.onStream_mcState_eq (x : Nat) : (d.onStream i f).mcState x = d.mcState x := rfl
@[simp] theorem Dev.onStream_hostOpen_eq  : (d.onStream i f).hostOpen = d.hostOpen := rfl
@[simp] theorem Dev.onStream_core_eq (x : Nat) : (d.onStream i f).core x = d.core x := rfl
@[simp] theorem Dev.onStream_task_eq (x y : Nat) : (d.onStream i f).task x y = d.task x y := rfl
@[simp] theorem Dev.onStream_su_eq (x : Nat) : (d.onStream i f).su x = d.su x := rfl
@[simp] theorem Dev.onStream_be_eq (x : Nat) : (d.onStream i f).be x = d.be x := rfl
@[simp] theorem Dev.onStream_wc_eq (x y : Nat) : (d.onStream i f).wc x y = d.wc x y := rfl
@[simp] theorem Dev.onStream_out_eq (x : Nat) : (d.onStream i f).out x = d.out x := rfl
@[simp] theorem Dev.onStream_layer_eq (x : Nat) : (d.onStream i f).layer x = d.layer x := rfl
@[simp] theorem Dev.onStream_pipe_eq (x : Nat) : (d.onStream i f).pipe x = d.pipe x := rfl
@[simp] theorem Dev.onStream_byte_eq (x : Nat) : (d.onStream i f).byte x = d.byte x := rfl
@[simp] theorem Dev.onStream_bytes_eq (x y : Nat) : (d.onStream i f).bytes x y = d.bytes x y := rfl
@[simp] theorem Dev.onStream_held_eq  : (d.onStream i f).held = d.held := rfl
end

section
variable (d : Dev) (f : HostSide → HostSide)
@[simp] theorem Dev.onHost_rd_eq (g : Fld) : (d.onHost f).rd g = d.rd g := rfl
@[simp] theorem Dev.onHost_rdS_eq (g : Fld) : (d.onHost f).rdS g = d.rdS g := rfl
@[simp] theorem Dev.onHost_bit_eq (g : Fld) : (d.onHost f).bit g = d.bit g := rfl
@[simp] theorem Dev.onHost_bitAt_eq (g : Fld) (x : Nat) : (d.onHost f).bitAt g x = d.bitAt g x := rfl
@[simp] theorem Dev.onHost_tstate_eq (x y : Nat) : (d.onHost f).tstate x y = d.tstate x y := rfl
@[simp] theorem Dev.onHost_mcState_eq (x : Nat) : (d.onHost f).mcState x = d.mcState x := rfl
@[simp] theorem Dev.onHost_hostOpen_eq  : (d.onHost f).hostOpen = d.hostOpen := rfl
@[simp] theorem Dev.onHost_core_eq (x : Nat) : (d.onHost f).core x = d.core x := rfl
@[simp] theorem Dev.onHost_task_eq (x y : Nat) : (d.onHost f).task x y = d.task x y := rfl
@[simp] theorem Dev.onHost_su_eq (x : Nat) : (d.onHost f).su x = d.su x := rfl
@[simp] theorem Dev.onHost_be_eq (x : Nat) : (d.onHost f).be x = d.be x := rfl
@[simp] theorem Dev.onHost_wc_eq (x y : Nat) : (d.onHost f).wc x y = d.wc x y := rfl
@[simp] theorem Dev.onHost_out_eq (x : Nat) : (d.onHost f).out x = d.out x := rfl
@[simp] theorem Dev.onHost_layer_eq (x : Nat) : (d.onHost f).layer x = d.layer x := rfl
@[simp] theorem Dev.onHost_pipe_eq (x : Nat) : (d.onHost f).pipe x = d.pipe x := rfl
@[simp] theorem Dev.onHost_stream_eq (x : Nat) : (d.onHost f).stream x = d.stream x := rfl
@[simp] theorem Dev.onHost_byte_eq (x : Nat) : (d.onHost f).byte x = d.byte x := rfl
@[simp] theorem Dev.onHost_bytes_eq (x y : Nat) : (d.onHost f).bytes x y = d.bytes x y := rfl
@[simp] theorem Dev.onHost_held_eq  : (d.onHost f).held = d.held := rfl
end

section
variable (d : Dev) (f : Beacon → Beacon)
@[simp] theorem Dev.onBeacon_rd_eq (g : Fld) : (d.onBeacon f).rd g = d.rd g := rfl
@[simp] theorem Dev.onBeacon_rdS_eq (g : Fld) : (d.onBeacon f).rdS g = d.rdS g := rfl
@[simp] theorem Dev.onBeacon_bit_eq (g : Fld) : (d.onBeacon f).bit g = d.bit g := rfl
@[simp] theorem Dev.onBeacon_bitAt_eq (g : Fld) (x : Nat) : (d.onBeacon f).bitAt g x = d.bitAt g x := rfl
@[simp] theorem Dev.onBeacon_tstate_eq (x y : Nat) : (d.onBeacon f).tstate x y = d.tstate x y := rfl
@[simp] theorem Dev.onBeacon_mcState_eq (x : Nat) : (d.onBeacon f).mcState x = d.mcState x := rfl
@[simp] theorem Dev.onBeacon_hostOpen_eq  : (d.onBeacon f).hostOpen = d.hostOpen := rfl
@[simp] theorem Dev.onBeacon_core_eq (x : Nat) : (d.onBeacon f).core x = d.core x := rfl
@[simp] theorem Dev.onBeacon_task_eq (x y : Nat) : (d.onBeacon f).task x y = d.task x y := rfl
@[simp] theorem Dev.onBeacon_su_eq (x : Nat) : (d.onBeacon f).su x = d.su x := rfl
@[simp] theorem Dev.onBeacon_be_eq (x : Nat) : (d.onBeacon f).be x = d.be x := rfl
@[simp] theorem Dev.onBeacon_wc_eq (x y : Nat) : (d.onBeacon f).wc x y = d.wc x y := rfl
@[simp] theorem Dev.onBeacon_out_eq (x : Nat) : (d.onBeacon f).out x = d.out x := rfl
@[simp] theorem Dev.onBeacon_layer_eq (x : Nat) : (d.onBeacon f).layer x = d.layer x := rfl
@[simp] theorem Dev.onBeacon_pipe_eq (x : Nat) : (d.onBeacon f).pipe x = d.pipe x := rfl
@[simp] theorem Dev.onBeacon_stream_eq (x : Nat) : (d.onBeacon f).stream x = d.stream x := rfl
@[simp] theorem Dev.onBeacon_byte_eq (x : Nat) : (d.onBeacon f).byte x = d.byte x := rfl
@[simp] theorem Dev.onBeacon_bytes_eq (x y : Nat) : (d.onBeacon f).bytes x y = d.bytes x y := rfl
@[simp] theorem Dev.onBeacon_held_eq  : (d.onBeacon f).held = d.held := rfl
end

section
variable (d : Dev) (f : Lantern → Lantern)
@[simp] theorem Dev.onLantern_rd_eq (g : Fld) : (d.onLantern f).rd g = d.rd g := rfl
@[simp] theorem Dev.onLantern_rdS_eq (g : Fld) : (d.onLantern f).rdS g = d.rdS g := rfl
@[simp] theorem Dev.onLantern_bit_eq (g : Fld) : (d.onLantern f).bit g = d.bit g := rfl
@[simp] theorem Dev.onLantern_bitAt_eq (g : Fld) (x : Nat) : (d.onLantern f).bitAt g x = d.bitAt g x := rfl
@[simp] theorem Dev.onLantern_tstate_eq (x y : Nat) : (d.onLantern f).tstate x y = d.tstate x y := rfl
@[simp] theorem Dev.onLantern_mcState_eq (x : Nat) : (d.onLantern f).mcState x = d.mcState x := rfl
@[simp] theorem Dev.onLantern_hostOpen_eq  : (d.onLantern f).hostOpen = d.hostOpen := rfl
@[simp] theorem Dev.onLantern_core_eq (x : Nat) : (d.onLantern f).core x = d.core x := rfl
@[simp] theorem Dev.onLantern_task_eq (x y : Nat) : (d.onLantern f).task x y = d.task x y := rfl
@[simp] theorem Dev.onLantern_su_eq (x : Nat) : (d.onLantern f).su x = d.su x := rfl
@[simp] theorem Dev.onLantern_be_eq (x : Nat) : (d.onLantern f).be x = d.be x := rfl
@[simp] theorem Dev.onLantern_wc_eq (x y : Nat) : (d.onLantern f).wc x y = d.wc x y := rfl
@[simp] theorem Dev.onLantern_out_eq (x : Nat) : (d.onLantern f).out x = d.out x := rfl
@[simp] theorem Dev.onLantern_layer_eq (x : Nat) : (d.onLantern f).layer x = d.layer x := rfl
@[simp] theorem Dev.onLantern_pipe_eq (x : Nat) : (d.onLantern f).pipe x = d.pipe x := rfl
@[simp] theorem Dev.onLantern_stream_eq (x : Nat) : (d.onLantern f).stream x = d.stream x := rfl
@[simp] theorem Dev.onLantern_byte_eq (x : Nat) : (d.onLantern f).byte x = d.byte x := rfl
@[simp] theorem Dev.onLantern_bytes_eq (x y : Nat) : (d.onLantern f).bytes x y = d.bytes x y := rfl
@[simp] theorem Dev.onLantern_held_eq  : (d.onLantern f).held = d.held := rfl
end

section
variable (d : Dev) (f : Power → Power)
@[simp] theorem Dev.onPower_rd_eq (g : Fld) : (d.onPower f).rd g = d.rd g := rfl
@[simp] theorem Dev.onPower_rdS_eq (g : Fld) : (d.onPower f).rdS g = d.rdS g := rfl
@[simp] theorem Dev.onPower_bit_eq (g : Fld) : (d.onPower f).bit g = d.bit g := rfl
@[simp] theorem Dev.onPower_bitAt_eq (g : Fld) (x : Nat) : (d.onPower f).bitAt g x = d.bitAt g x := rfl
@[simp] theorem Dev.onPower_tstate_eq (x y : Nat) : (d.onPower f).tstate x y = d.tstate x y := rfl
@[simp] theorem Dev.onPower_mcState_eq (x : Nat) : (d.onPower f).mcState x = d.mcState x := rfl
@[simp] theorem Dev.onPower_hostOpen_eq  : (d.onPower f).hostOpen = d.hostOpen := rfl
@[simp] theorem Dev.onPower_core_eq (x : Nat) : (d.onPower f).core x = d.core x := rfl
@[simp] theorem Dev.onPower_task_eq (x y : Nat) : (d.onPower f).task x y = d.task x y := rfl
@[simp] theorem Dev.onPower_su_eq (x : Nat) : (d.onPower f).su x = d.su x := rfl
@[simp] theorem Dev.onPower_be_eq (x : Nat) : (d.onPower f).be x = d.be x := rfl
@[simp] theorem Dev.onPower_wc_eq (x y : Nat) : (d.onPower f).wc x y = d.wc x y := rfl
@[simp] theorem Dev.onPower_out_eq (x : Nat) : (d.onPower f).out x = d.out x := rfl
@[simp] theorem Dev.onPower_layer_eq (x : Nat) : (d.onPower f).layer x = d.layer x := rfl
@[simp] theorem Dev.onPower_pipe_eq (x : Nat) : (d.onPower f).pipe x = d.pipe x := rfl
@[simp] theorem Dev.onPower_stream_eq (x : Nat) : (d.onPower f).stream x = d.stream x := rfl
@[simp] theorem Dev.onPower_byte_eq (x : Nat) : (d.onPower f).byte x = d.byte x := rfl
@[simp] theorem Dev.onPower_bytes_eq (x y : Nat) : (d.onPower f).bytes x y = d.bytes x y := rfl
end

section
variable (d : Dev) (f : Wear → Wear)
@[simp] theorem Dev.onWear_rd_eq (g : Fld) : (d.onWear f).rd g = d.rd g := rfl
@[simp] theorem Dev.onWear_rdS_eq (g : Fld) : (d.onWear f).rdS g = d.rdS g := rfl
@[simp] theorem Dev.onWear_bit_eq (g : Fld) : (d.onWear f).bit g = d.bit g := rfl
@[simp] theorem Dev.onWear_bitAt_eq (g : Fld) (x : Nat) : (d.onWear f).bitAt g x = d.bitAt g x := rfl
@[simp] theorem Dev.onWear_tstate_eq (x y : Nat) : (d.onWear f).tstate x y = d.tstate x y := rfl
@[simp] theorem Dev.onWear_mcState_eq (x : Nat) : (d.onWear f).mcState x = d.mcState x := rfl
@[simp] theorem Dev.onWear_hostOpen_eq  : (d.onWear f).hostOpen = d.hostOpen := rfl
@[simp] theorem Dev.onWear_core_eq (x : Nat) : (d.onWear f).core x = d.core x := rfl
@[simp] theorem Dev.onWear_task_eq (x y : Nat) : (d.onWear f).task x y = d.task x y := rfl
@[simp] theorem Dev.onWear_su_eq (x : Nat) : (d.onWear f).su x = d.su x := rfl
@[simp] theorem Dev.onWear_be_eq (x : Nat) : (d.onWear f).be x = d.be x := rfl
@[simp] theorem Dev.onWear_wc_eq (x y : Nat) : (d.onWear f).wc x y = d.wc x y := rfl
@[simp] theorem Dev.onWear_out_eq (x : Nat) : (d.onWear f).out x = d.out x := rfl
@[simp] theorem Dev.onWear_layer_eq (x : Nat) : (d.onWear f).layer x = d.layer x := rfl
@[simp] theorem Dev.onWear_pipe_eq (x : Nat) : (d.onWear f).pipe x = d.pipe x := rfl
@[simp] theorem Dev.onWear_stream_eq (x : Nat) : (d.onWear f).stream x = d.stream x := rfl
@[simp] theorem Dev.onWear_byte_eq (x : Nat) : (d.onWear f).byte x = d.byte x := rfl
@[simp] theorem Dev.onWear_bytes_eq (x y : Nat) : (d.onWear f).bytes x y = d.bytes x y := rfl
@[simp] theorem Dev.onWear_held_eq  : (d.onWear f).held = d.held := rfl
end

section
variable (d : Dev) (f : Auxp → Auxp)
@[simp] theorem Dev.onAuxp_rd_eq (g : Fld) : (d.onAuxp f).rd g = d.rd g := rfl
@[simp] theorem Dev.onAuxp_rdS_eq (g : Fld) : (d.onAuxp f).rdS g = d.rdS g := rfl
@[simp] theorem Dev.onAuxp_bit_eq (g : Fld) : (d.onAuxp f).bit g = d.bit g := rfl
@[simp] theorem Dev.onAuxp_bitAt_eq (g : Fld) (x : Nat) : (d.onAuxp f).bitAt g x = d.bitAt g x := rfl
@[simp] theorem Dev.onAuxp_tstate_eq (x y : Nat) : (d.onAuxp f).tstate x y = d.tstate x y := rfl
@[simp] theorem Dev.onAuxp_mcState_eq (x : Nat) : (d.onAuxp f).mcState x = d.mcState x := rfl
@[simp] theorem Dev.onAuxp_hostOpen_eq  : (d.onAuxp f).hostOpen = d.hostOpen := rfl
@[simp] theorem Dev.onAuxp_core_eq (x : Nat) : (d.onAuxp f).core x = d.core x := rfl
@[simp] theorem Dev.onAuxp_task_eq (x y : Nat) : (d.onAuxp f).task x y = d.task x y := rfl
@[simp] theorem Dev.onAuxp_su_eq (x : Nat) : (d.onAuxp f).su x = d.su x := rfl
@[simp] theorem Dev.onAuxp_be_eq (x : Nat) : (d.onAuxp f).be x = d.be x := rfl
@[simp] theorem Dev.onAuxp_wc_eq (x y : Nat) : (d.onAuxp f).wc x y = d.wc x y := rfl
@[simp] theorem Dev.onAuxp_out_eq (x : Nat) : (d.onAuxp f).out x = d.out x := rfl
@[simp] theorem Dev.onAuxp_layer_eq (x : Nat) : (d.onAuxp f).layer x = d.layer x := rfl
@[simp] theorem Dev.onAuxp_pipe_eq (x : Nat) : (d.onAuxp f).pipe x = d.pipe x := rfl
@[simp] theorem Dev.onAuxp_stream_eq (x : Nat) : (d.onAuxp f).stream x = d.stream x := rfl
@[simp] theorem Dev.onAuxp_byte_eq (x : Nat) : (d.onAuxp f).byte x = d.byte x := rfl
@[simp] theorem Dev.onAuxp_bytes_eq (x y : Nat) : (d.onAuxp f).bytes x y = d.bytes x y := rfl
@[simp] theorem Dev.onAuxp_held_eq  : (d.onAuxp f).held = d.held := rfl
end

section
variable (d : Dev) (p q : Nat) (f : SeamTx → SeamTx)
@[simp] theorem Dev.onTx_rd_eq (g : Fld) : (d.onTx p q f).rd g = d.rd g := rfl
@[simp] theorem Dev.onTx_rdS_eq (g : Fld) : (d.onTx p q f).rdS g = d.rdS g := rfl
@[simp] theorem Dev.onTx_bit_eq (g : Fld) : (d.onTx p q f).bit g = d.bit g := rfl
@[simp] theorem Dev.onTx_bitAt_eq (g : Fld) (x : Nat) : (d.onTx p q f).bitAt g x = d.bitAt g x := rfl
@[simp] theorem Dev.onTx_tstate_eq (x y : Nat) : (d.onTx p q f).tstate x y = d.tstate x y := rfl
@[simp] theorem Dev.onTx_mcState_eq (x : Nat) : (d.onTx p q f).mcState x = d.mcState x := rfl
@[simp] theorem Dev.onTx_hostOpen_eq  : (d.onTx p q f).hostOpen = d.hostOpen := rfl
@[simp] theorem Dev.onTx_core_eq (x : Nat) : (d.onTx p q f).core x = d.core x := rfl
@[simp] theorem Dev.onTx_task_eq (x y : Nat) : (d.onTx p q f).task x y = d.task x y := rfl
@[simp] theorem Dev.onTx_su_eq (x : Nat) : (d.onTx p q f).su x = d.su x := rfl
@[simp] theorem Dev.onTx_be_eq (x : Nat) : (d.onTx p q f).be x = d.be x := rfl
@[simp] theorem Dev.onTx_wc_eq (x y : Nat) : (d.onTx p q f).wc x y = d.wc x y := rfl
@[simp] theorem Dev.onTx_out_eq (x : Nat) : (d.onTx p q f).out x = d.out x := rfl
@[simp] theorem Dev.onTx_layer_eq (x : Nat) : (d.onTx p q f).layer x = d.layer x := rfl
@[simp] theorem Dev.onTx_pipe_eq (x : Nat) : (d.onTx p q f).pipe x = d.pipe x := rfl
@[simp] theorem Dev.onTx_stream_eq (x : Nat) : (d.onTx p q f).stream x = d.stream x := rfl
@[simp] theorem Dev.onTx_byte_eq (x : Nat) : (d.onTx p q f).byte x = d.byte x := rfl
@[simp] theorem Dev.onTx_bytes_eq (x y : Nat) : (d.onTx p q f).bytes x y = d.bytes x y := rfl
@[simp] theorem Dev.onTx_held_eq  : (d.onTx p q f).held = d.held := rfl
end

section
variable (d : Dev) (p q : Nat) (f : SeamRx → SeamRx)
@[simp] theorem Dev.onRx_rd_eq (g : Fld) : (d.onRx p q f).rd g = d.rd g := rfl
@[simp] theorem Dev.onRx_rdS_eq (g : Fld) : (d.onRx p q f).rdS g = d.rdS g := rfl
@[simp] theorem Dev.onRx_bit_eq (g : Fld) : (d.onRx p q f).bit g = d.bit g := rfl
@[simp] theorem Dev.onRx_bitAt_eq (g : Fld) (x : Nat) : (d.onRx p q f).bitAt g x = d.bitAt g x := rfl
@[simp] theorem Dev.onRx_tstate_eq (x y : Nat) : (d.onRx p q f).tstate x y = d.tstate x y := rfl
@[simp] theorem Dev.onRx_mcState_eq (x : Nat) : (d.onRx p q f).mcState x = d.mcState x := rfl
@[simp] theorem Dev.onRx_hostOpen_eq  : (d.onRx p q f).hostOpen = d.hostOpen := rfl
@[simp] theorem Dev.onRx_core_eq (x : Nat) : (d.onRx p q f).core x = d.core x := rfl
@[simp] theorem Dev.onRx_task_eq (x y : Nat) : (d.onRx p q f).task x y = d.task x y := rfl
@[simp] theorem Dev.onRx_su_eq (x : Nat) : (d.onRx p q f).su x = d.su x := rfl
@[simp] theorem Dev.onRx_be_eq (x : Nat) : (d.onRx p q f).be x = d.be x := rfl
@[simp] theorem Dev.onRx_wc_eq (x y : Nat) : (d.onRx p q f).wc x y = d.wc x y := rfl
@[simp] theorem Dev.onRx_out_eq (x : Nat) : (d.onRx p q f).out x = d.out x := rfl
@[simp] theorem Dev.onRx_layer_eq (x : Nat) : (d.onRx p q f).layer x = d.layer x := rfl
@[simp] theorem Dev.onRx_pipe_eq (x : Nat) : (d.onRx p q f).pipe x = d.pipe x := rfl
@[simp] theorem Dev.onRx_stream_eq (x : Nat) : (d.onRx p q f).stream x = d.stream x := rfl
@[simp] theorem Dev.onRx_byte_eq (x : Nat) : (d.onRx p q f).byte x = d.byte x := rfl
@[simp] theorem Dev.onRx_bytes_eq (x y : Nat) : (d.onRx p q f).bytes x y = d.bytes x y := rfl
@[simp] theorem Dev.onRx_held_eq  : (d.onRx p q f).held = d.held := rfl
end

section
variable (d : Dev) (i : Nat) (f : Ddr → Ddr)
@[simp] theorem Dev.onChan_rd_eq (g : Fld) : (d.onChan i f).rd g = d.rd g := rfl
@[simp] theorem Dev.onChan_rdS_eq (g : Fld) : (d.onChan i f).rdS g = d.rdS g := rfl
@[simp] theorem Dev.onChan_bit_eq (g : Fld) : (d.onChan i f).bit g = d.bit g := rfl
@[simp] theorem Dev.onChan_bitAt_eq (g : Fld) (x : Nat) : (d.onChan i f).bitAt g x = d.bitAt g x := rfl
@[simp] theorem Dev.onChan_tstate_eq (x y : Nat) : (d.onChan i f).tstate x y = d.tstate x y := rfl
@[simp] theorem Dev.onChan_mcState_eq (x : Nat) : (d.onChan i f).mcState x = d.mcState x := rfl
@[simp] theorem Dev.onChan_hostOpen_eq  : (d.onChan i f).hostOpen = d.hostOpen := rfl
@[simp] theorem Dev.onChan_core_eq (x : Nat) : (d.onChan i f).core x = d.core x := rfl
@[simp] theorem Dev.onChan_task_eq (x y : Nat) : (d.onChan i f).task x y = d.task x y := rfl
@[simp] theorem Dev.onChan_su_eq (x : Nat) : (d.onChan i f).su x = d.su x := rfl
@[simp] theorem Dev.onChan_be_eq (x : Nat) : (d.onChan i f).be x = d.be x := rfl
@[simp] theorem Dev.onChan_wc_eq (x y : Nat) : (d.onChan i f).wc x y = d.wc x y := rfl
@[simp] theorem Dev.onChan_out_eq (x : Nat) : (d.onChan i f).out x = d.out x := rfl
@[simp] theorem Dev.onChan_layer_eq (x : Nat) : (d.onChan i f).layer x = d.layer x := rfl
@[simp] theorem Dev.onChan_pipe_eq (x : Nat) : (d.onChan i f).pipe x = d.pipe x := rfl
@[simp] theorem Dev.onChan_stream_eq (x : Nat) : (d.onChan i f).stream x = d.stream x := rfl
@[simp] theorem Dev.onChan_byte_eq (x : Nat) : (d.onChan i f).byte x = d.byte x := rfl
@[simp] theorem Dev.onChan_bytes_eq (x y : Nat) : (d.onChan i f).bytes x y = d.bytes x y := rfl
@[simp] theorem Dev.onChan_held_eq  : (d.onChan i f).held = d.held := rfl
end

/-! ### Registers -/

/-- A device write of a field reads back cut to the field's width. -/
@[simp] theorem Dev.rd_wr_same (d : Dev) (f : Fld) (v : Nat) : (d.wr f v).rd f = trunc f.width v := by
  unfold Dev.rd Dev.wr; cases f.rws <;> simp

/-- A device write leaves every other field alone. -/
theorem Dev.rd_wr_ne (d : Dev) {f g : Fld} (v : Nat) (h : g.key ≠ f.key) : (d.wr f v).rd g = d.rd g := by
  unfold Dev.rd Dev.wr; cases f.rws <;> cases g.rws <;> simp [Tab.get_put_ne _ _ _ _ h]

theorem Dev.rdS_wr_ne (d : Dev) {f g : Fld} (v : Nat) (h : g.key ≠ f.key) : (d.wr f v).rdS g = d.rdS g := by
  unfold Dev.rdS; rw [Dev.rd_wr_ne d v h]; rfl

theorem Dev.rd_wrIf_ne (d : Dev) {f g : Fld} (b : Bool) (v : Nat) (h : g.key ≠ f.key) : (d.wrIf b f v).rd g = d.rd g := by
  cases b
  · rfl
  · exact Dev.rd_wr_ne d v h

theorem Dev.wrIf_true (d : Dev) (f : Fld) (v : Nat) : d.wrIf true f v = d.wr f v := rfl
theorem Dev.wrIf_false (d : Dev) (f : Fld) (v : Nat) : d.wrIf false f v = d := rfl

/-- A shadow write reads back, of an RWS field. -/
theorem Dev.rdS_wrS_same (d : Dev) (f : Fld) (v : Nat) : (d.wrS f v).rdS f = trunc f.width v := by
  unfold Dev.rdS Dev.wrS Dev.rd Dev.wr; cases f.rws <;> simp

/-- A shadow write of an RWS field does not touch the values in force (R8). -/
theorem Dev.rd_wrS_rws (d : Dev) {f : Fld} (g : Fld) (v : Nat) (h : f.rws = true) : (d.wrS f v).rd g = d.rd g := by
  unfold Dev.wrS Dev.rd; simp [h]

theorem Dev.rd_wrS_ne (d : Dev) {f g : Fld} (v : Nat) (h : g.key ≠ f.key) : (d.wrS f v).rd g = d.rd g := by
  unfold Dev.rd Dev.wrS Dev.wr; cases f.rws <;> cases g.rws <;> simp [Tab.get_put_ne _ _ _ _ h]

theorem Dev.rdS_wrS_ne (d : Dev) {f g : Fld} (v : Nat) (h : g.key ≠ f.key) : (d.wrS f v).rdS g = d.rdS g := by
  unfold Dev.rdS; rw [Dev.rd_wrS_ne d v h]; unfold Dev.wrS; cases f.rws <;> cases g.rws <;> simp [Tab.get_put_ne _ _ _ _ h]

/-- An event changes EVT_SEQ, MEM_UE and EVT_DROPPED and no other field (R362 to R365). -/
theorem Dev.rd_raise_ne (d : Dev) (a b c : Nat) (l : List Nat) (p q : Bool) {g : Fld}
    (h1 : g.key ≠ (Reg.TOP_EVT_SEQ.at []).key) (h2 : g.key ≠ (Reg.TOP_MEM_UE.at []).key) (h3 : g.key ≠ (Reg.TOP_EVT_DROPPED.at []).key) :
    (d.raise a b c l p q).rd g = d.rd g := by
  unfold Dev.raise
  show ((Dev.wrIf _ _ _ _).rd g) = _
  rw [Dev.rd_wrIf_ne _ _ _ h3, Dev.rd_wrIf_ne _ _ _ h2, Dev.rd_wr_ne _ _ h1]

/-! ### Cores and tasks -/

@[simp] theorem Dev.core_onCore_same (d : Dev) (c : Nat) (f : Core → Core) : (d.onCore c f).core c = f (d.core c) := by
  simp [Dev.core, Dev.onCore]

theorem Dev.core_onCore_ne (d : Dev) {c j : Nat} (f : Core → Core) (h : j ≠ c) : (d.onCore c f).core j = d.core j :=
  Tab.get_modify_ne _ _ _ h

@[simp] theorem Dev.task_onTask_same (d : Dev) (c t : Nat) (f : Task → Task) : (d.onTask c t f).task c t = f (d.task c t) := by
  simp [Dev.task, Dev.onTask]

theorem Dev.task_onTask_ne (d : Dev) (c : Nat) {t u : Nat} (f : Task → Task) (h : u ≠ t) : (d.onTask c t f).task c u = d.task c u := by
  simp [Dev.task, Dev.onTask, Tab.get_modify_ne _ _ _ h]

theorem Dev.core_onTask_ne (d : Dev) {c j : Nat} (t : Nat) (f : Task → Task) (h : j ≠ c) : (d.onTask c t f).core j = d.core j :=
  Dev.core_onCore_ne d _ h

/-! ### Memory -/

/-- A byte just stored reads back; every other byte is left alone. -/
theorem Dev.byte_setByte (d : Dev) (a b : Nat) (v : Byte) : (d.setByte a v).byte b = if b = a then v else d.byte b :=
  Tab.get_put _ _ _ _ _

/-- Bytes just stored read back. -/
theorem Dev.bytes_setBytes (d : Dev) (a : Nat) (bs : Bytes) : (d.setBytes a bs).bytes a bs.length = bs := Tab.getList_putList _ _ _ _

/-- Every byte outside the stored ones is left alone. -/
theorem Dev.byte_setBytes_out (d : Dev) (a : Nat) (bs : Bytes) (b : Nat) (h : b < a ∨ a + bs.length ≤ b) :
    (d.setBytes a bs).byte b = d.byte b := Tab.get_putList_out _ _ _ _ _ h



/-! ### Outcomes -/

/-- A command on a device that is not held. -/
theorem State.act_run (s : State) (f : Dev → Dev) (h : s.dev.held = false) : s.act f = .next { s with dev := f s.dev } := by
  simp [State.act, h]

/-- A command on a held device changes nothing (R358, R456). -/
theorem State.act_held (s : State) (f : Dev → Dev) (h : s.dev.held = true) : s.act f = .next s := by
  simp [State.act, h]

theorem State.actIf_run (s : State) (ok : Bool) (f : Dev → Dev) (h : s.dev.held = false) (w : ok = true) :
    s.actIf ok f = .next { s with dev := f s.dev } := by simp [State.actIf, State.act, h, w]

theorem State.actHost_run (s : State) (f : Dev → Dev) (h : s.dev.held = false) (w : s.dev.hostOpen = true) :
    s.actHost f = .next { s with dev := f s.dev } := by simp [State.actHost, State.act, h, w]

theorem State.readHost_run (s : State) (f : Dev → Dev) (h : s.dev.held = false) (w : s.dev.hostOpen = true) :
    s.readHost f = .next { s with dev := f s.dev } := by simp [State.readHost, State.act, h, w]

/-- `act` answers a next state that has the same queue. -/
theorem State.act_next (s : State) (f : Dev → Dev) : ∃ e, s.act f = .next { s with dev := e } := ⟨_, rfl⟩

end Sys2Proof.Machine
end

