-- ==== Sys2Proof/Laws/Completes.lean ====
section
/-! SUPPORT. A command whose meaning is an effect on the device completes with that effect. -/

namespace Sys2Proof.Machine

theorem completes_act {i : Instr} {s : State} {f : Dev → Dev} {P : Dev → Prop} (he : exec i s = s.act f) (h : s.dev.held = false)
    (hp : P (f s.dev)) : completes i s P := ⟨{ s with dev := f s.dev }, by rw [he, State.act_run _ _ h], rfl, hp⟩

theorem completes_actAlways {i : Instr} {s : State} {f : Dev → Dev} {P : Dev → Prop} (he : exec i s = s.actAlways f)
    (hp : P (f s.dev)) : completes i s P := ⟨{ s with dev := f s.dev }, he, rfl, hp⟩

theorem completes_actIf {i : Instr} {s : State} {b : Bool} {f : Dev → Dev} {P : Dev → Prop} (he : exec i s = s.actIf b f)
    (hb : b = true) (h : s.dev.held = false) (hp : P (f s.dev)) : completes i s P :=
  ⟨{ s with dev := f s.dev }, by rw [he, State.actIf_run _ _ _ h hb], rfl, hp⟩

theorem completes_actHost {i : Instr} {s : State} {f : Dev → Dev} {P : Dev → Prop} (he : exec i s = s.actHost f) (h : s.dev.held = false)
    (ho : s.dev.hostOpen = true) (hp : P (f s.dev)) : completes i s P :=
  ⟨{ s with dev := f s.dev }, by rw [he, State.actHost_run _ _ h ho], rfl, hp⟩

theorem completes_readHost {i : Instr} {s : State} {f : Dev → Dev} {P : Dev → Prop} (he : exec i s = s.readHost f) (h : s.dev.held = false)
    (ho : s.dev.hostOpen = true) (hp : P (f s.dev)) : completes i s P :=
  ⟨{ s with dev := f s.dev }, by rw [he, State.readHost_run _ _ h ho], rfl, hp⟩

end Sys2Proof.Machine
end

