-- ==== Sys2Proof/Laws/Issue.lean ====
section
/-! SUPPORT. What issuing an instruction does: the legal instruction the selected task is at, ISSUED, PC and the loops. -/

namespace Sys2Proof.Machine

/-- A bounded loop keeps what each round keeps. -/
theorem upTo_keeps {α : Type} (P : α → Prop) (n : Nat) (f : Nat → α → α) (a : α) (h0 : P a) (h : ∀ i b, i < n → P b → P (f i b)) :
    P (upTo n f a) := by
  unfold upTo
  have key : ∀ (l : List Nat) (b : α), (∀ i ∈ l, i < n) → P b → P (l.foldl (fun acc i => f i acc) b) := by
    intro l
    induction l with
    | nil => intro b _ hb; exact hb
    | cons i l ih =>
      intro b hl hb
      exact ih _ (fun j hj => hl j (List.mem_cons_of_mem _ hj)) (h i b (hl i (List.mem_cons_self ..)) hb)
  exact key _ a (fun i hi => List.mem_range.1 hi) h0

/-- The core issues a legal instruction of the opcode named. -/
theorem Dev.issue_run (d : Dev) (c op : Nat) (f : Ctx → Dev → Dev) (t pc : Nat) (w : IWord) (hr : d.running c = some t)
    (hp : d.rd (Reg.TASK_PC.at (cix c [t])) = pc) (hw : Tab.get 0 (d.core c).prog pc = w) (he : d.progEcc c pc = 0)
    (hop : coreOpcodes.contains op = true) (ho : ifld w 0 8 = op) (hl : coreLegal w pc = true) :
    d.issue c op f = f ⟨c, t, pc, w, d.task c t⟩ d.padOk := by
  subst hp hw ho
  have h2 : Dev.progEcc d.padOk c (d.rd (Reg.TASK_PC.at (cix c [t]))) = 0 := he
  simp only [Dev.issue, hr, Dev.nextIns, h2, Ctx.f, Dev.setIf]
  simp only [hop, hl]
  simp [Dev.wrIf_false]

/-- The other tasks' contexts after an issue. -/
theorem Dev.issued_spec (d : Dev) (x : Ctx) :
    ∃ cs, d.issued x = { (d.inc (Reg.TASK_ISSUED.at (cix x.c [x.t]))) with cores := cs } ∧
      (∀ j, j ≠ x.c → (d.issued x).core j = d.core j) ∧
      (d.issued x).core x.c = { d.core x.c with tasks := ((d.issued x).core x.c).tasks } ∧
      (d.issued x).task x.c x.t = d.task x.c x.t ∧
      (∀ u < 8, u ≠ x.t → (d.issued x).task x.c u = { d.task x.c u with yielded := false }) := by
  have key : ∀ n, ∃ cs, upTo n (fun t (d : Dev) => if t ≠ x.t && (d.task x.c t).yielded then
      d.onTask x.c t (fun k => { k with yielded := false }) else d) (d.inc (Reg.TASK_ISSUED.at (cix x.c [x.t]))) =
      { (d.inc (Reg.TASK_ISSUED.at (cix x.c [x.t]))) with cores := cs } ∧
      (∀ j, j ≠ x.c → Tab.get {} cs j = d.core j) ∧
      Tab.get {} cs x.c = { d.core x.c with tasks := (Tab.get {} cs x.c).tasks } ∧
      (∀ u, Tab.get {} (Tab.get {} cs x.c).tasks u = if u < n ∧ u ≠ x.t then { d.task x.c u with yielded := false } else d.task x.c u) := by
    intro n
    induction n with
    | zero => exact ⟨d.cores, rfl, fun _ _ => rfl, rfl, fun u => by simp [Dev.task, Dev.core]⟩
    | succ n ih =>
      obtain ⟨cs, he, h1, h2, h3⟩ := ih
      have hs : ∀ (f : Nat → Dev → Dev) (a : Dev), upTo (n + 1) f a = f n (upTo n f a) := by
        intro f a; simp [upTo, List.range_succ]
      rw [hs, he]
      by_cases hc : n ≠ x.t ∧ (d.task x.c n).yielded = true
      · refine ⟨Tab.modify {} cs x.c (fun k => { k with tasks := Tab.modify {} k.tasks n (fun k => { k with yielded := false }) }), ?_, ?_, ?_, ?_⟩
        · have : (({ (d.inc (Reg.TASK_ISSUED.at (cix x.c [x.t]))) with cores := cs } : Dev).task x.c n).yielded = true := by
            show (Tab.get {} (Tab.get {} cs x.c).tasks n).yielded = true
            rw [h3]; simp [hc.2]
          simp only [this, Bool.and_true]
          simp only [decide_eq_true_eq, ne_eq, hc.1, not_false_eq_true, if_true]
          rfl
        · intro j hj; rw [Tab.get_modify_ne _ _ _ hj]; exact h1 j hj
        · rw [Tab.get_modify_same, h2]
        · intro u
          rw [Tab.get_modify_same]
          by_cases hu : u = n
          · subst hu; simp [h3, hc.1]
          · simp only [Tab.get_modify_ne _ _ _ hu, h3]
            have : (u < n + 1 ∧ u ≠ x.t) ↔ (u < n ∧ u ≠ x.t) := by omega
            simp only [this]
      · refine ⟨cs, ?_, h1, h2, ?_⟩
        · have : (n ≠ x.t && (({ (d.inc (Reg.TASK_ISSUED.at (cix x.c [x.t]))) with cores := cs } : Dev).task x.c n).yielded) = false := by
            show (n ≠ x.t && (Tab.get {} (Tab.get {} cs x.c).tasks n).yielded) = false
            rw [h3]
            by_cases hn : n = x.t
            · simp [hn]
            · have : (d.task x.c n).yielded = false := by
                cases hy : (d.task x.c n).yielded
                · rfl
                · exact absurd ⟨hn, hy⟩ hc
              simp [hn, this]
          simp only [this, Bool.false_eq_true, if_false]
        · intro u
          rw [h3]
          by_cases hu : u = n
          · subst hu
            by_cases hn : u = x.t
            · simp [hn]
            · have : (d.task x.c u).yielded = false := by
                cases hy : (d.task x.c u).yielded
                · rfl
                · exact absurd ⟨hn, hy⟩ hc
              have h4 : ({ d.task x.c u with yielded := false } : Task) = d.task x.c u := by rw [← this]
              simp [h4]
          · have : (u < n + 1 ∧ u ≠ x.t) ↔ (u < n ∧ u ≠ x.t) := by omega
            simp only [this]
  obtain ⟨cs, he, h1, h2, h3⟩ := key 8
  have e1 : d.issued x = { (d.inc (Reg.TASK_ISSUED.at (cix x.c [x.t]))) with cores := cs } := he
  refine ⟨cs, e1, ?_, ?_, ?_, ?_⟩
  · intro j hj; rw [e1]; exact h1 j hj
  · rw [e1]; exact h2
  · rw [e1]; show Tab.get {} (Tab.get {} cs x.c).tasks x.t = _; rw [h3]; simp
  · intro u hu hn; rw [e1]; show Tab.get {} (Tab.get {} cs x.c).tasks u = _; rw [h3]; simp [hu, hn]


/-- The serving of loops reads the loop registers and the active loops only. -/
theorem Dev.advance_run (d : Dev) (x : Ctx) (at_ : Nat) (h : (serveLoops (d.task x.c x.t) at_ (d.task x.c x.t).nest).2.2 < 4096) :
    d.advance x at_ = (d.onTask x.c x.t (fun _ => { (serveLoops (d.task x.c x.t) at_ (d.task x.c x.t).nest).1 with
        nest := (serveLoops (d.task x.c x.t) at_ (d.task x.c x.t).nest).2.1 })).wr (Reg.TASK_PC.at (cix x.c [x.t]))
      (serveLoops (d.task x.c x.t) at_ (d.task x.c x.t).nest).2.2 := by
  unfold Dev.advance Dev.setPc
  simp only [show ¬ 4096 ≤ (serveLoops (d.task x.c x.t) at_ (d.task x.c x.t).nest).2.2 by omega, if_false]

/-- What a control instruction that changes registers of its task only does. -/
theorem issueRegs_completes (d : Dev) (c op : Nat) (f : Ctx → Task → Task) (t pc : Nat) (w : IWord)  (hr : d.running c = some t)
    (hp : d.rd (Reg.TASK_PC.at (cix c [t])) = pc) (hw : Tab.get 0 (d.core c).prog pc = w) (he : d.progEcc c pc = 0)
    (hop : coreOpcodes.contains op = true) (ho : ifld w 0 8 = op) (hl : coreLegal w pc = true) (k : Task) (hk : f ⟨c, t, pc, w, d.task c t⟩ (d.task c t) = k)
    (hlt : (passed k pc).2 < 4096) : 
    let e := d.issueRegs c op f
    e.task c t = (passed k pc).1 ∧
    e.rd (Reg.TASK_PC.at (cix c [t])) = (passed k pc).2 ∧
    issueFrame c t [] d.fabric d e ∧ onlyTasks c d e := by
  intro e
  obtain ⟨cs, e1, h1, h2, h3, h4⟩ := Dev.issued_spec d.padOk ⟨c, t, pc, w, d.task c t⟩
  have ee : e = ((((d.padOk.issued ⟨c, t, pc, w, d.task c t⟩).onTask c t (f ⟨c, t, pc, w, d.task c t⟩)).onTask c t (fun _ => (passed k pc).1)).wr (Reg.TASK_PC.at (cix c [t])) (passed k pc).2) := by
    show d.issueRegs c op f = _
    unfold Dev.issueRegs
    rw [Dev.issue_run d c op _ t pc w hr hp hw he hop ho hl]
    have hk2 : ((d.padOk.issued ⟨c, t, pc, w, d.task c t⟩).onTask c t (f ⟨c, t, pc, w, d.task c t⟩)).task c t = k := by
      rw [Dev.task_onTask_same, h3]; exact hk
    dsimp only
    rw [Dev.advance_run]
    · dsimp only
      rw [hk2]; rfl
    · dsimp only
      rw [hk2]; exact hlt
  generalize hi : d.padOk.issued ⟨c, t, pc, w, d.task c t⟩ = di at *
  dsimp only at h1 h2 h3 h4
  have hk1 : (Reg.TASK_ISSUED.at (cix c [t])).key ≠ (Reg.TASK_PC.at (cix c [t])).key := by
    simp [RegDef.at, RegDef.addr, RegDef.lowBit, Reg.TASK_ISSUED, Reg.TASK_PC, weigh, cix] <;> omega
  refine ⟨?_, ?_, ⟨?_, ?_, ?_, ?_, ?_⟩, ?_⟩
  · rw [ee]; simp
  · rw [ee]; simp; exact Nat.mod_eq_of_lt hlt
  · rw [ee, Dev.rd_wr_ne _ _ hk1]; simp only [Dev.onTask_rd_eq]; rw [e1]; exact Dev.rd_wr_same d.padOk _ _
  · intro g hg
    simp at hg
    rw [ee, Dev.rd_wr_ne _ _ hg.1,  Dev.rdS_wr_ne _ _ hg.1]
    simp
    rw [e1]
    exact ⟨Dev.rd_wr_ne d.padOk _ hg.2, Dev.rdS_wr_ne d.padOk _ hg.2⟩
  · rw [ee, e1]; rfl
  · intro j hj; rw [ee]; simp [Dev.core_onTask_ne _ _ _ hj]; exact h1 j hj
  · intro u hu hut; rw [ee]; simp [Dev.task_onTask_ne _ _ _ hut]; exact h4 u hu hut
  · have h2' : di.core c = { d.core c with tasks := (di.core c).tasks } := h2
    unfold onlyTasks; rw [ee]; simp only [Dev.wr_core_eq, Dev.onTask, Dev.core_onCore_same]
    rw [h2']

end Sys2Proof.Machine
end

