-- ==== Sys2Proof/Laws/Memory.lean ====
section
/-! SUPPORT. Every operation over memory keeps its canonical form. -/

namespace Sys2Proof.Machine

theorem Tab.keysAbove_filter {α : Type} {t : Tab α} {j : Nat} (p : Nat × α → Bool) (h : Tab.keysAbove j t = true) :
    Tab.keysAbove j (t.filter p) = true := by
  induction t with
  | nil => rfl
  | cons e t ih =>
    simp only [Tab.keysAbove, Bool.and_eq_true, decide_eq_true_eq] at h
    by_cases hp : p e = true
    · simp [hp, Tab.keysAbove, h.1, ih h.2]
    · simpa [hp] using ih h.2

theorem Tab.wf_filter {α : Type} [DecidableEq α] {d : α} {t : Tab α} (p : Nat × α → Bool) (h : Tab.wf d t = true) :
    Tab.wf d (t.filter p) = true := by
  induction t with
  | nil => rfl
  | cons e t ih =>
    simp only [Tab.wf, Bool.and_eq_true, decide_eq_true_eq] at h
    by_cases hp : p e = true
    · simp [hp, Tab.wf, h.1.1, ih h.2, Tab.keysAbove_filter p h.1.2]
    · simpa [hp] using ih h.2

theorem Dev.setByte_keeps_wf {d : Dev} (a : Nat) (b : Byte) (h : Memory.wf d.mem = true) : Memory.wf (d.setByte a b).mem = true := Tab.wf_put _ _ h

theorem Dev.setBytes_keeps_wf {d : Dev} (a : Nat) (bs : Bytes) (h : Memory.wf d.mem = true) : Memory.wf (d.setBytes a bs).mem = true :=
  Tab.wf_putList _ _ h

/-- Filling a half with zeros or powering a bank down takes entries off the list. -/
theorem Memory.wf_filter {m : Tab Byte} (p : Nat × Byte → Bool) (h : Memory.wf m = true) : Memory.wf (m.filter p) = true := Tab.wf_filter p h

theorem Dev.clearBank_keeps_wf {d : Dev} (c b : Nat) (h : Memory.wf d.mem = true) : Memory.wf (d.clearBank c b).mem = true := Tab.wf_filter _ h

theorem Memory.wf_reset : Memory.wf State.reset.dev.mem = true := rfl

end Sys2Proof.Machine
end

