-- ==== Sys2Proof/Tests/Slice0.lean ====
section
/-! SUPPORT. Tests: terms that the well-formedness checks refuse, states and operands that meet the hypotheses of each statement, and results worked out by hand from the specification. -/

open Sys2Proof Sys2Proof.Machine

namespace Sys2Proof.Tests

set_option Elab.async false

/-! ### Helpers -/

/-- A device with the listed values written. -/
def put (l : List (Fld × Nat)) (d : Dev := {}) : Dev := l.foldl (fun d x => d.wr x.1 x.2) d

/-- A word with the listed fields (lowest bit, value). -/
def word (l : List (Nat × Nat)) : IWord := BitVec.ofNat 128 (l.foldl (fun n p => n + p.2 * 2 ^ p.1) 0)

/-- Fields of a core 0 whose task 0 runs at `pc`, with handle 1 a local buffer of two halves and handle 2 a REMOTE one, and all of the scratchpad in the task's bound. -/
def coreFields (pc : Nat) : List (Fld × Nat) :=
  [(Reg.MC_STATE.at (cix 0), 2), (Reg.TASK_TSTATE.at (cix 0 [0]), 2), (Reg.TASK_ENABLE.at (cix 0 [0]), 1), (Reg.TASK_PC.at (cix 0 [0]), pc),
   (Reg.SP_TASK_BOUND.at (cix 0 [0]), 0x300000), (Reg.MC_ACC_CNT.at (cix 0 [0]), 8),
   (Reg.HND_VALID.at (cix 0 [1]), 1), (Reg.HND_OWNERS.at (cix 0 [1]), 1), (Reg.HND_TAGMODE.at (cix 0 [1]), 1), (Reg.HND_HALVES.at (cix 0 [1]), 1),
   (Reg.HND_VALID.at (cix 0 [2]), 1), (Reg.HND_OWNERS.at (cix 0 [2]), 1), (Reg.HND_KIND.at (cix 0 [2]), 1), (Reg.HND_BASE_ROW.at (cix 0 [2]), 7),
   (Reg.HND_SIZE.at (cix 0 [2]), 3 * 64 + 5), (Reg.HND_TSIZE.at (cix 0 [2]), 7)]

/-- Core 0 about to issue `w` at `pc`: address register 0 is relative to the task's base, 1 to 3 name handles 1 to 3. -/
def atWord (pc : Nat) (w : IWord) (k : Task := {}) (c : Core := {}) (l : List (Fld × Nat) := []) : Dev :=
  { put (coreFields pc ++ l) with cores := [(0, { c with prog := Tab.put 0 [] pc w, tasks := Tab.put {} [] 0 { k with
      a := [(0, 0x10000000), (1, 0x00400000), (2, 0x00800000), (3, 0x00C00000)] ++ k.a } })] }

/-- The context of that instruction. -/
def ctxOf (d : Dev) (pc : Nat) (w : IWord) : Ctx := ⟨0, 0, pc, w, d.task 0 0⟩

/-- Stream unit 0 about to issue `w` at `pc`. -/
def suWord (pc : Nat) (w : IWord) (q : Su := {}) (l : List (Fld × Nat) := []) : Dev :=
  { put ([(Reg.SU_STATE.at (six 0), 1), (Reg.SU_PC.at (six 0), pc)] ++ l) with sus := [(0, { q with prog := Tab.put 0 [] pc w })] }

/-! ### Ill-formed commands -/

/-- A write to TOP_COMMIT that does not set the bit it is named after. -/
theorem test_wf_armOut0 : exec (.armOut0 2) State.reset = .fault .illFormed := by rfl
theorem test_wf_armOut1 : exec (.armOut1 1) State.reset = .fault .illFormed := by rfl
theorem test_wf_armPipe : exec (.armPipe 3) State.reset = .fault .illFormed := by rfl
theorem test_wf_discard : exec (.discard 7) State.reset = .fault .illFormed := by rfl
/-- A link of a width the part has not, and a BAR2 of a size it cannot have. -/
theorem test_wf_hostLinkUp : exec (.hostLinkUp 3 16 28 {}) State.reset = .fault .illFormed ∧ exec (.hostLinkUp 3 8 37 {}) State.reset = .fault .illFormed := ⟨rfl, rfl⟩
/-- A capacity the part has not. -/
theorem test_wf_ddrTrainingDone : exec (.ddrTrainingDone 0xFFF 9600 64 10) State.reset = .fault .illFormed := by rfl
theorem test_wf_ownerSet : exec (.ownerSet 1 []) State.reset = .fault .illFormed := by rfl
theorem test_wf_lkeySet : exec (.lkeySet 1 (List.replicate 95 0)) State.reset = .fault .illFormed := by rfl
theorem test_wf_attest : exec (.attest 1 (List.replicate 33 0)) State.reset = .fault .illFormed := by rfl
/-- Well-formed ones beside them. -/
theorem test_wf_accepts : (Instr.wf (.armOut0 1) && Instr.wf (.armOut1 2) && Instr.wf (.armPipe 7) && Instr.wf (.discard 0x10) && Instr.wf (.hostLinkUp 5 8 36 {}) &&
    Instr.wf (.ddrTrainingDone 0xFFF 10667 24 11) && Instr.wf (.attest 1 (List.replicate 32 0))) = true := by decide

/-! ### The hypotheses of the statements about cores -/

/-- A SOP, a SRSET, a LDMASK, a NOP, and an AROP whose offset is the largest and one whose offset is the smallest. -/
theorem test_RegisterInstructions : let P (w : IWord) := issuing (atWord 5 w) 0 0 5 w ∧ (passed ((atWord 5 w).task 0 0) 5).2 < 4096
    P 0 ∧ P (word [(0, 8), (8, 3), (32, 5)]) ∧ P (word [(0, 0x0A), (8, 1)]) ∧ P (word [(0, 0x0B), (8, 1), (11, 1)]) ∧
    P (word [(0, 9), (8, 4), (32, 0x3FFFFF)]) ∧ P (word [(0, 9), (8, 4), (32, 0)]) ∧
    (aOffset (((atWord 5 0).task 0 0).av 0) : Int) + toSigned 32 0x3FFFFF = 0x3FFFFF := by
  simp only [issuing]; and_intros <;> decide +kernel

/-- A LOOP inside an active one with the same end, with a count and without; a BR that is taken and one that is not. -/
theorem test_LoopAndBranch : let k : Task := { nest := [0], lc := [(0, ⟨2, 1, 9⟩)], g := [(1, 0xFFFFFFFF)] }
    let w := word [(0, 4), (8, 1), (16, 9), (32, 2)]
    let w0 := word [(0, 4), (8, 1), (10, 1), (11, 2), (16, 9)]
    let b := word [(0, 5), (8, 3), (11, 1), (16, 4)]
    let b0 := word [(0, 5), (8, 4), (11, 1), (16, 4)]
    issuing (atWord 3 w k) 0 0 3 w ∧ issuing (atWord 3 w0 k) 0 0 3 w0 ∧ 1 ∉ k.nest ∧ (∀ j ∈ k.nest, 9 ≤ (k.lcv j).stop) ∧ (k.gv 2).toNat = 0 ∧ (passed k 9).2 < 4096 ∧
    issuing (atWord 3 b k) 0 0 3 b ∧ issuing (atWord 3 b0 k) 0 0 3 b0 ∧ (k.gv 1).toInt < toSigned 32 0 ∧ ¬ toSigned 32 0 ≤ (k.gv 1).toInt ∧ (passed k 3).2 < 4096 := by
  simp only [issuing]; and_intros <;> decide +kernel

/-- The last index of two bodies: the inner loop ends, and the outer one has an iteration left, or ends too inside one that ends later, or inside none. -/
theorem test_HardwareLoops : let k (n : Nat) (l : List Nat) : Task := { nest := [1, 0] ++ l, lc := [(0, ⟨n, 2, 5⟩), (1, ⟨1, 3, 5⟩), (2, ⟨4, 1, 9⟩)] }
    issuing (atWord 5 0 (k 2 [])) 0 0 5 0 ∧ issuing (atWord 5 0 (k 1 [2])) 0 0 5 0 ∧ issuing (atWord 5 0 (k 1 [])) 0 0 5 0 ∧
    ((k 2 []).lcv 1).stop = 5 ∧ ((k 2 []).lcv 1).count ≤ 1 ∧ ((k 2 []).lcv 0).stop = 5 ∧ 1 < ((k 2 []).lcv 0).count ∧ ((k 2 []).lcv 0).start < 4096 ∧
    ((k 1 [2]).lcv 0).stop = 5 ∧ ((k 1 [2]).lcv 0).count ≤ 1 ∧ ((k 1 [2]).lcv 2).stop ≠ 5 := by
  simp only [issuing]; and_intros <;> decide +kernel

/-- The inner loop ends and two iterations of the outer remain: its body starts again with one. -/
theorem test_nop_loops : let k : Task := { nest := [1, 0], lc := [(0, ⟨2, 3, 5⟩), (1, ⟨1, 4, 5⟩)] }
    ∃ t, exec (.nop 0) ⟨[], atWord 5 0 k⟩ = .next t ∧ t.dev.rd (Reg.TASK_PC.at (cix 0 [0])) = 3 ∧ ((t.dev.task 0 0).lcv 0).count = 1 ∧ (t.dev.task 0 0).nest = [0] :=
  ⟨_, rfl, by decide +kernel⟩

/-- END with and without a pending launch; YIELD beside a READY task and alone. -/
theorem test_EndAndYield : let w := word [(0, 1)]
    let y := word [(0, 2)]
    let ready := [(Reg.TASK_TSTATE.at (cix 0 [3]), 1), (Reg.TASK_ENABLE.at (cix 0 [3]), 1)]
    issuing (atWord 5 w) 0 0 5 w ∧ ((atWord 5 w).task 0 0).pending = none ∧ issuing (atWord 5 w { pending := some ⟨7, 9⟩ }) 0 0 5 w ∧
    ((atWord 5 w { pending := some ⟨7, 9⟩ }).task 0 0).pending = some ⟨7, 9⟩ ∧
    issuing (atWord 5 y) 0 0 5 y ∧ issuing (atWord 5 y {} {} ready) 0 0 5 y ∧ (passed ((atWord 5 y).task 0 0) 5).2 < 4096 ∧
    (∀ u < 8, u ≠ 0 → (atWord 5 y).tstate 0 u ≠ 1 ∧ (atWord 5 y).tstate 0 u ≠ 2) ∧ (∃ u < 8, u ≠ 0 ∧ (atWord 5 y {} {} ready).tstate 0 u = 1) := by
  simp only [issuing]; and_intros <;> decide +kernel

/-- Core 0 with tasks 3 (BACKGROUND class, 50 ns to its deadline) and 5 (ENHANCED, 60 ns) READY: 5 ranks above 3 by rule 1, its deadline being within ENH_WINDOW. -/
def twoReady (w : IWord) (window : Nat) : Dev := atWord 5 w {} {} [(Reg.MC_ENH_WINDOW.at (cix 0), window),
  (Reg.TASK_TSTATE.at (cix 0 [3]), 1), (Reg.TASK_ENABLE.at (cix 0 [3]), 1), (Reg.TASK_CLASS.at (cix 0 [3]), 1), (Reg.TASK_DL.at (cix 0 [3]), 50),
  (Reg.TASK_TSTATE.at (cix 0 [5]), 1), (Reg.TASK_ENABLE.at (cix 0 [5]), 1), (Reg.TASK_CLASS.at (cix 0 [5]), 0), (Reg.TASK_DL.at (cix 0 [5]), 60)]

/-- Which of them is first, by rule 1, and by the deadlines alone where the window is 0. -/
theorem test_firstReady : let d (n : Nat) := twoReady (word [(0, 2)]) n
    firstReady 0 0 5 (d 1) ∧ firstReady 0 0 3 (d 0) ∧ issuing (d 1) 0 0 5 (word [(0, 2)]) ∧ (∀ u < 8, u ≠ 0 → (d 1).tstate 0 u ≠ 2) := by
  have h (n : Nat) (hn : n = 0 ∨ n = 1) : ∀ v < 8, v ≠ 3 → v ≠ 5 → (twoReady (word [(0, 2)]) n).rd (Reg.TASK_TSTATE.at (cix 0 [v])) ≠ 1 ∨ v = 0 := by
    rcases hn with rfl | rfl <;> decide +kernel
  refine ⟨⟨by decide +kernel, fun v hv n => ?_⟩, ⟨by decide +kernel, fun v hv n => ?_⟩, by simp only [issuing]; decide +kernel, by decide +kernel⟩
  · by_cases e : v = 3
    · subst e; simp only [outranks, ruleOne]; decide +kernel
    · exact (h 1 (.inr rfl) v hv.1 e n).elim (absurd hv.2.2.1) (absurd · hv.2.1)
  · by_cases e : v = 5
    · subst e; simp only [outranks, ruleOne]; decide +kernel
    · exact (h 0 (.inl rfl) v hv.1 n e).elim (absurd hv.2.2.1) (absurd · hv.2.1)

/-- TAKE; DONE with no write and with one under way; WAITTAG on a half that holds what is wanted, and on one that does not, at the two bounds of GEN. -/
theorem test_TakeDoneWait : let tk := word [(0, 0x0C), (8, 31), (13, 6)]
    let dn := word [(0, 0x0D), (8, 31), (13, 6), (16, 6)]
    let wt := word [(0, 0x0E), (8, 1), (14, 1), (16, 1), (17, 1), (18, 2)]
    let wr : Msg := ⟨.core 0, .core 1, .write ⟨0, 0, none, 1, 0, 0, 0, [], 0, 0, []⟩⟩
    let full := [(Reg.SLOT_FULL.at (cix 0 [3]), 1), (Reg.SLOT_GEN.at (cix 0 [3]), 0xFFFF)]
    let d := atWord 5 wt { g := [(2, 0xFFFF)] } {} full
    issuing (atWord 5 tk) 0 0 5 tk ∧ issuing (atWord 5 dn) 0 0 5 dn ∧ ((atWord 5 dn).core 0).doneQ = [] ∧ ((atWord 5 dn).core 0).freezeOwed = [] ∧ ((atWord 5 dn).core 0).closeOwed = false ∧ (passed ((atWord 5 dn).task 0 0) 5).2 < 4096 ∧
    (atWord 5 dn).taskWrites 0 0 = false ∧ ({ atWord 5 dn with fabric := [wr] } : Dev).taskWrites 0 0 = true ∧ issuing { atWord 5 dn with fabric := [wr] } 0 0 5 dn ∧
    issuing d 0 0 5 wt ∧ d.handleFor 0 0 1 = true ∧ d.rd (Reg.HND_KIND.at (cix 0 [1])) = 0 ∧ d.rd (Reg.HND_TAGMODE.at (cix 0 [1])) = 1 ∧ d.rd (Reg.HND_HALVES.at (cix 0 [1])) = 1 ∧
    d.rd (Reg.SLOT_FULL.at (cix 0 [3])) = 1 ∧ toSigned 16 (d.rd (Reg.SLOT_GEN.at (cix 0 [3])) + 65536 - 0xFFFF) = 0 ∧ toSigned 16 (0xFFFE + 65536 - 0xFFFF) < 0 ∧
    (atWord 5 wt).rd (Reg.SLOT_FULL.at (cix 0 [3])) ≠ 1 ∧ issuing (atWord 5 wt) 0 0 5 wt := by
  simp only [issuing]; and_intros <;> decide +kernel

/-- SETTAG of half 1 of a local handle, and of half 0 of a REMOTE one; behind a VCVT in the waiting place that writes through the handle, and an EMPTY behind one that reads through it. -/
theorem test_SetTag : let w := word [(0, 0x0F), (8, 1), (14, 1), (16, 1)]
    let r := word [(0, 0x0F), (8, 2), (16, 1)]
    issuing (atWord 5 w) 0 0 5 w ∧ (atWord 5 w).handleFor 0 0 1 = true ∧ (atWord 5 w).rd (Reg.HND_TAGMODE.at (cix 0 [1])) = 1 ∧ (atWord 5 w).rd (Reg.HND_HALVES.at (cix 0 [1])) = 1 ∧
    (atWord 5 w).rd (Reg.HND_KIND.at (cix 0 [1])) ≠ 1 ∧ issuing (atWord 5 r) 0 0 5 r ∧ (atWord 5 r).handleFor 0 0 2 = true ∧ (atWord 5 r).rd (Reg.HND_KIND.at (cix 0 [2])) = 1 ∧
    (passed ((atWord 5 r).task 0 0) 5).2 < 4096 ∧
    (let cv (x y : Nat) : IWord := word [(0, 0x23), (8, 12), (12, 12), (16, x), (20, y)]
     let P (z : IWord) (x y : Nat) : Prop := issuing (atWord 5 z {} { vecNext := some ⟨0, 4, cv x y, (atWord 5 z).task 0 0⟩ }) 0 0 5 z
     let e := word [(0, 0x0F), (8, 1)]
     P w 0 1 ∧ vecDest (cv 0 1) ((atWord 5 w).task 0 0) = 1 ∧ P e 1 0 ∧ vecDest (cv 1 0) ((atWord 5 e).task 0 0) ≠ 1 ∧ 1 ∈ vecReads (cv 1 0) ((atWord 5 e).task 0 0)) := by
  simp only [issuing]; and_intros <;> decide +kernel

/-- An unassigned opcode, an illegal word, and legal words that fail each check. -/
theorem test_CoreFaults : let un := word [(0, 3)]
    let il := word [(0, 0), (8, 1)]
    let mma := word [(0, 0x10), (28, 7)]
    let wt (h : Nat) := word [(0, 0x0E), (8, h), (16, 1), (17, 1)]
    let ar (o : Nat) := word [(0, 9), (32, o)]
    let lp := word [(0, 4), (8, 1), (16, 9)]
    let nest : Task := { nest := [0], lc := [(0, ⟨2, 1, 8⟩)] }
    atInstruction (atWord 5 un) 0 0 5 un ∧ coreOpcodes.contains (ifld un 0 8) = false ∧ atInstruction (atWord 5 il) 0 0 5 il ∧ coreLegal il 5 = false ∧
    atInstruction (atWord 5 mma {} {} [(Reg.MC_ACC_CNT.at (cix 0 [0]), 7)]) 0 0 5 mma ∧ coreLegal mma 5 = true ∧
    (atWord 5 mma {} {} [(Reg.MC_ACC_CNT.at (cix 0 [0]), 7)]).rd (Reg.MC_ACC_CNT.at (cix 0 [0])) ≤ 7 ∧
    atInstruction (atWord 5 (wt 63)) 0 0 5 (wt 63) ∧ coreLegal (wt 63) 5 = true ∧ (atWord 5 (wt 63)).rd (Reg.HND_VALID.at (cix 0 [63])) = 0 ∧
    coreLegal (word [(0, 0x0F), (8, 63)]) 5 = true ∧
    (let P (o : Nat) := atInstruction (atWord 5 (ar o)) 0 0 5 (ar o) ∧ coreLegal (ar o) 5 = true ∧ (toSigned 32 o < 0 ∨ 0x3FFFFF < toSigned 32 o)
     P 0xFFFFFFFF ∧ P 0x400000) ∧
    atInstruction (atWord 5 lp nest) 0 0 5 lp ∧ coreLegal lp 5 = true ∧ (nest.lcv 0).stop < 9 ∧ atInstruction (atWord 5 lp { nest with nest := [1] }) 0 0 5 lp ∧
    (let d := atWord 5 (wt 1) {} {} [(Reg.SLOT_FULL.at (cix 0 [2]), 1), (Reg.SLOT_GEN.at (cix 0 [2]), 1)]
     atInstruction d 0 0 5 (wt 1) ∧ d.handleFor 0 0 1 = true ∧ d.rd (Reg.HND_KIND.at (cix 0 [1])) = 0 ∧ d.rd (Reg.HND_TAGMODE.at (cix 0 [1])) = 1 ∧ d.rd (Reg.SLOT_FULL.at (cix 0 [2])) = 1 ∧
     0 < toSigned 16 (d.rd (Reg.SLOT_GEN.at (cix 0 [2])) + 65536 - 0)) := by
  simp only [atInstruction]; and_intros <;> decide +kernel

/-- An MMA, a VCVT and a DRAIN of a bank that is off, and a NOP at the last index. -/
theorem test_CoreFaults_issue : let off := [(Reg.SP_BANK_PG_LO.at (cix 0), 1), (Reg.SP_BANK_ON_LO.at (cix 0), 0)]
    let dr := word [(0, 0x20), (8, 12)]
    let cv := word [(0, 0x23), (8, 12), (12, 12)]
    (let mm := word [(0, 0x10), (31, 1)]
     let d := atWord 5 mm {} {} off
     issuing d 0 0 5 mm ∧ (∀ r ∈ arrRows (ctxOf d 5 mm), d.slotOk (ctxOf d 5 mm) (ifld mm 28 3 + r / 64) = true) ∧
     ((d.mmaSpans (ctxOf d 5 mm)).any (fun r => r.2.2.2.all Span.inside && r.2.2.2.any (fun q => q.touches (d.anyGated 0)))) = true) ∧
    issuing (atWord 5 dr {} {} off) 0 0 5 dr ∧ ((atWord 5 dr {} {} off).drainCheck (ctxOf (atWord 5 dr {} {} off) 5 dr)).1 = .fault 8 ∧
    issuing (atWord 5 cv {} {} off) 0 0 5 cv ∧
    (((atWord 5 cv {} {} off).vecSpans (ctxOf (atWord 5 cv {} {} off) 5 cv)).any (fun r => r.2.all Span.inside &&
      r.2.any (fun q => q.touches ((atWord 5 cv {} {} off).anyGated 0)))) = true ∧
    issuing (atWord 4095 0) 0 0 4095 0 := by
  simp only [issuing]; and_intros <;> decide +kernel

/-- An INT8 MMA of one row, one column and one product, an MMAT of one tap, and an MMA with MXFP4 weights and their scales. -/
theorem test_MmaAccumulates : let w := word [(0, 0x10), (31, 1)]
    let t := word [(0, 0x11)]
    let mx := word [(0, 0x10), (8, 2), (12, 11)]
    let P (x : IWord) := let d := atWord 5 x
      let c := ctxOf d 5 x
      let ps := if ifld x 0 8 = 0x10 then mmaProblems c else mmatTaps c
      issuing d 0 0 5 x ∧ d.ecc = [] ∧ (d.core 0).ecc = [] ∧ d.arrWaits c = false ∧ (passed c.k 5).2 < 4096 ∧ ps.length = 1 ∧ ps.all (fun p => (List.range c.mma.m).all (fun m => d.slotOk c (c.mma.slot + (p.row + m) / 64))) = true ∧
      d.resolve 0 0 (c.k.av 0) false = some (.own 0 0x300000) ∧
      d.checkSpans 0 (problemSpans c.mma (.own 0 0x300000) (.own 0 0x300000) (if isMx c.mma.wfmt then some (.own 0 0x300000) else none) 0 0 0 0 ps) = .ok
    P w ∧ P t ∧ P mx := by
  simp only [issuing]; and_intros <;> decide +kernel

/-- INT8: 3 times -5, added to 100 (R46). -/
theorem test_accumulate_int : (accumulate 0 0 100 [.fin false 3 0] [.fin true 5 0] []).1 = 85 := by decide +kernel

/-- The sum saturates and says so (R46). -/
theorem test_accumulate_sat : (accumulate 0 0 0x7FFFFFFF [.fin false 3 0] [.fin false 5 0] []) = (0x7FFFFFFF, { accSat := true }) := by decide +kernel

/-- FP8: 1.5 times 1.5 added to 1.0 gives 3.25 in FP32 (R46). -/
theorem test_accumulate_float : (accumulate 2 2 0x3F800000 [elemNum 2 0x3C] [elemNum 2 0x3C] []).1 = 0x40500000 := by decide +kernel

/-- A DWB of one group, one tap and one row. -/
theorem test_DwbAccumulates : let w := word [(0, 0x12)]
    let d := atWord 5 w
    let c := ctxOf d 5 w
    issuing d 0 0 5 w ∧ d.arrWaits c = false ∧ (passed c.k 5).2 < 4096 ∧ d.slotOk c 0 = true ∧ d.resolve 0 0 (c.k.av 0) false = some (.own 0 0x300000) ∧
    d.checkSpans 0 ((List.range c.dwb.m).flatMap (fun m => (dwbTapOffsets c m).map (fun o => (⟨.own 0 0x300000, 0 + o, fmtBytes 0 1⟩ : Span))) ++
      [⟨.own 0 0x300000, 0, fmtBytes 0 1⟩]) = .ok := by
  simp only [issuing]; and_intros <;> decide +kernel

/-- A VADD, a VCVT and a VPOOL in the own scratchpad; pooled pixels that lie one element apart, and some that overlap (a pitch of 0). -/
theorem test_VectorElements : let va := word [(0, 0x21), (8, 12), (12, 12), (28, 12)]
    let vc := word [(0, 0x23), (8, 13), (12, 2)]
    let vp := word [(0, 0x22), (8, 13), (12, 13), (41, 1)]
    let P (w : IWord) (n : Word) := let d := atWord 5 w { s := [(1, n)] }
      let c := ctxOf d 5 w
      issuing d 0 0 5 w ∧ (d.core 0).drainQ = [] ∧ (passed c.k 5).2 < 4096 ∧
      (d.vecSpans c).any (fun r => decide (2 ≤ r.1.length) && decide (d.checkSpans 0 r.2 = .ok)) = true ∧ c.k.sv 1 = n.toInt
    P va 4 ∧ P vc 4 ∧ P vp 4 ∧ P vp 0 := by
  simp only [issuing]; and_intros <;> decide +kernel

/-- A raw DRAIN of two elements, and an accumulate-on-write of an aligned one. -/
theorem test_DrainElements :
    let P (w : IWord) : Prop := let d := atWord 5 w
      let c := ctxOf d 5 w
      let a := drainArgs c
      let pos := fun (m n : Nat) => (drainDest a m n).toNat
      issuing d 0 0 5 w ∧ d.drainCheck c = (.ok, some (.own 0 0x300000, 0, 0)) ∧ (passed c.k 5).2 < 4096 ∧
      (∀ m < a.rows, ∀ n < a.cols, pos m n % 4 = 0 ∧ ∀ n' < a.cols, n ≠ n' → pos m n + 4 ≤ pos m n' ∨ pos m n' + 4 ≤ pos m n) ∧ a.rows = 1
    P (word [(0, 0x20), (8, 12), (44, 1)]) ∧ P (word [(0, 0x20), (8, 12), (13, 1)]) := by
  simp only [issuing]; and_intros <;> decide +kernel

/-- A buffer of one pixel at offset 64 with a border of one pixel at its right. -/
theorem test_PadBorder : let w := word [(0, 0x24), (8, 12), (12, 2), (16, 4), (20, 1), (23, 2), (60, 1)]
    let d := atWord 5 w { a := [(4, 0x10000040)], s := [(1, 16), (2, 4)] }
    let c := ctxOf d 5 w
    issuing d 0 0 5 w ∧ c.k.sv 1 = 16 ∧ c.k.sv 2 = 4 ∧
    (d.vecSpans c).any (fun r => decide (r.1.length = 1) && decide (d.checkSpans 0 r.2 = .ok)) = true := by
  simp only [issuing]; and_intros <;> decide +kernel

/-- The two pixels of that padded buffer do not overlap. -/
theorem test_PadBorder_apart (y z y' z' : Int) (h1 : 0 ≤ y ∧ y < 1 ∧ 0 ≤ z ∧ z < 2) (h2 : 0 ≤ y' ∧ y' < 1 ∧ 0 ≤ z' ∧ z' < 2) (h : (y, z) ≠ (y', z')) :
    64 + y * 16 + z * 4 + 4 ≤ 64 + y' * 16 + z' * 4 ∨ 64 + y' * 16 + z' * 4 + 4 ≤ 64 + y * 16 + z * 4 := by
  have : ¬ (y = y' ∧ z = z') := fun e => h (by rw [e.1, e.2])
  omega

/-- Behind a DRAIN that waits, with its place free and taken; a DRAIN to core 7 without credit and with credit. -/
theorem test_VectorUnitWaits : let w := word [(0, 0x23), (8, 12), (12, 12)]
    let x : Txn := ⟨0, 0, some 3, 7, 5, 0, 0, [], 0, 0, []⟩
    let dr := word [(0, 0x20), (8, 12), (16, 2)]
    let d := atWord 5 w {} { drainQ := [x] }
    let full := atWord 5 w {} { drainQ := [x], vecNext := some ⟨1, 0, 0, {}⟩ }
    let rem (n : Nat) := atWord 5 dr {} {} [(Reg.SP_OUTRT_CRED.at (cix 0 [3]), n)]
    let P (n : Nat) : Prop := issuing (rem n) 0 0 5 dr ∧ (rem n).drainCheck (ctxOf (rem n) 5 dr) = (.ok, some (.remote 7 5 3 0 4096, 0, 0)) ∧
      (rem n).rd (Reg.SP_OUTRT_CRED.at (cix 0 [3])) = n
    issuing d 0 0 5 w ∧ d.vecCheck (ctxOf d 5 w) = .ok ∧ (d.core 0).drainQ ≠ [] ∧ (d.core 0).vecNext = none ∧ issuing full 0 0 5 w ∧ (full.core 0).vecNext ≠ none ∧
    full.vecCheck (ctxOf full 5 w) = .ok ∧
    P 0 ∧ P 8192 ∧ P 16383 := by
  simp only [issuing]; and_intros <;> decide +kernel

/-- An MMA that updates the slot which a DRAIN in the waiting place still has to read, with no earlier array instruction waiting and with two; and a VCVT in that place whose destination handle the MMA reads. -/
theorem test_ArrayUnitWaits : let w := word [(0, 0x10), (31, 1)]
    let dr := word [(0, 0x20), (8, 12)]
    let cv := word [(0, 0x23), (8, 12), (12, 12), (16, 1)]
    let job (x : IWord) : VecJob := ⟨0, 4, x, (atWord 5 w).task 0 0⟩
    let d (x : IWord) (q : List VecJob) := atWord 5 w {} { vecNext := some (job x), arrQ := q }
    let P (x : IWord) (q : List VecJob) : Prop := issuing (d x q) 0 0 5 w ∧ (d x q).arrCheck (ctxOf (d x q) 5 w) = .ok ∧ (d x q).arrWaits (ctxOf (d x q) 5 w) = true ∧
      ((d x q).core 0).arrQ.length = q.length
    P dr [] ∧ P cv [] ∧ P dr [⟨0, 3, w, {}⟩, ⟨0, 4, w, {}⟩] ∧ (passed ((atWord 5 w).task 0 0) 5).2 < 4096 := by
  simp only [issuing]; and_intros <;> decide +kernel

/-! ### The hypotheses of the statements about messages, work counters and stream units -/

/-- A device with one message in flight. -/
def carrying (m : Msg) (l : List (Fld × Nat) := []) : Dev := { put l with fabric := [m] }

/-- A launch of a task that is not enabled, of an idle one, and of one that waits; a response to TAKE and one to DONE. -/
theorem test_LaunchesAndResponses : let m : Msg := ⟨.seq, .core 0, .launch 7 ⟨5, 9⟩⟩
    let en := (Reg.TASK_ENABLE.at (cix 0 [7]), 1)
    let d := carrying m [en, (Reg.MC_STATE.at (cix 0), 1)]
    let w := carrying m [en, (Reg.MC_STATE.at (cix 0), 2), (Reg.TASK_TSTATE.at (cix 0 [7]), 3)]
    let r (b : Body) (x : Wait) : Dev :=
      { carrying ⟨.wc 0 1, .core 0, b⟩ [en, (Reg.MC_STATE.at (cix 0), 2), (Reg.TASK_TSTATE.at (cix 0 [7]), 5)] with cores := [(0, { tasks := [(7, { wait := x })] })] }
    let fz := carrying m [en, (Reg.MC_STATE.at (cix 0), 3)]
    d.held = false ∧ (carrying m).arriving 0 = some m ∧ (carrying m).rd (Reg.TASK_ENABLE.at (cix 0 [7])) = 0 ∧ d.arriving 0 = some m ∧ d.coreUp 0 = true ∧ d.tstate 0 7 = 0 ∧
    d.rd (Reg.TASK_ENABLE.at (cix 0 [7])) = 1 ∧ w.rd (Reg.TASK_ENABLE.at (cix 0 [7])) = 1 ∧ w.arriving 0 = some m ∧ w.coreUp 0 = true ∧ w.tstate 0 7 ≠ 0 ∧
    fz.arriving 0 = some m ∧ fz.rd (Reg.TASK_ENABLE.at (cix 0 [7])) = 1 ∧ fz.coreUp 0 = false ∧ (r (.takeResp 7 1 2) (.take 6)).coreUp 0 = true ∧
    (r (.takeResp 7 1 2) (.take 6)).tstate 0 7 = 5 ∧ (∀ gd, ((r (.takeResp 7 1 2) .none).task 0 7).wait ≠ .take gd) ∧ (∀ gd, ((r (.doneResp 7 1 2) .none).task 0 7).wait ≠ .done gd) ∧
    (r (.takeResp 7 1 2) .none).arriving 0 = some ⟨.wc 0 1, .core 0, .takeResp 7 1 2⟩ ∧ (r (.doneResp 7 1 0) .none).arriving 0 = some ⟨.wc 0 1, .core 0, .doneResp 7 1 0⟩ ∧
    (r (.doneResp 7 1 0) (.done 6)).coreUp 0 = true ∧ (r (.doneResp 7 1 0) (.done 6)).tstate 0 7 = 5 ∧ (r (.takeResp 7 1 2) (.take 6)).arriving 0 = some ⟨.wc 0 1, .core 0, .takeResp 7 1 2⟩ ∧
    ((r (.takeResp 7 1 2) (.take 6)).task 0 7).wait = .take 6 ∧ (r (.doneResp 7 1 0) (.done 6)).arriving 0 = some ⟨.wc 0 1, .core 0, .doneResp 7 1 0⟩ ∧
    ((r (.doneResp 7 1 0) (.done 6)).task 0 7).wait = .done 6 := by
  and_intros
  all_goals first | decide +kernel | (intro gd h; cases h)

/-- A launch of a task with a DRAIN of it still waiting; of one that displaces the running task by PREEMPT_DELTA, and of one that does not; a core with no task READY or running. -/
theorem test_Launch_runs : let m : Msg := ⟨.seq, .core 0, .launch 7 ⟨5, 9⟩⟩
    let x : Txn := ⟨0, 0, some 3, 7, 5, 0, 0, [], 7, 0, []⟩
    let d (dl : Nat) := carrying m [(Reg.TASK_ENABLE.at (cix 0 [7]), 1), (Reg.MC_STATE.at (cix 0), 2), (Reg.TASK_TSTATE.at (cix 0 [1]), 2), (Reg.TASK_ENABLE.at (cix 0 [1]), 1), (Reg.TASK_DL.at (cix 0 [1]), dl), (Reg.MC_PREEMPT_DELTA.at (cix 0), 1)]
    let h : Dev := { carrying m [(Reg.TASK_ENABLE.at (cix 0 [7]), 1), (Reg.MC_STATE.at (cix 0), 1)] with cores := [(0, { drainQ := [x] })] }
    let P (dl : Nat) : Prop := (d dl).drainHeld 0 7 = false ∧ (d dl).running 0 = some 1 ∧ (d dl).coreUp 0 = true ∧ (d dl).tstate 0 7 = 0 ∧ (d dl).arriving 0 = some m
    h.drainHeld 0 7 = true ∧ h.coreUp 0 = true ∧ h.tstate 0 7 = 0 ∧ h.arriving 0 = some m ∧ (∀ u < 8, h.rd (Reg.TASK_TSTATE.at (cix 0 [u])) ≠ 1 ∧ h.rd (Reg.TASK_TSTATE.at (cix 0 [u])) ≠ 2) ∧
    P 1009 ∧ P 1008 ∧ (1000 : Int) ≤ toDeadline (d 1009) 1009 - toDeadline (d 1009) 9 ∧ ¬ (1000 : Int) ≤ toDeadline (d 1008) 1008 - toDeadline (d 1008) 9 := by
  and_intros <;> decide +kernel

/-- A release behind none of its task and half, and one behind a write of the vector unit; a task that waits on a tag it sees, on one it does not, and with the generation gone past; a stall with its limit set. -/
theorem test_TagsAtTheCore : let r (h : Nat) : Release := ⟨0, h, ⟨0, none, 7, h, 0, true, 0, 0, 0, 0⟩, 0⟩
    let d : Dev := { cores := [(0, { releases := [r 1, r 2] })] }
    let w (g : Nat) (full gen : Nat) : Dev := { put [(Reg.MC_STATE.at (cix 0), 1), (Reg.TASK_TSTATE.at (cix 0 [7]), 3), (Reg.MC_WAIT_LIMIT.at (cix 0), 1), (Reg.SLOT_FULL.at (cix 0 [127]), full),
      (Reg.SLOT_GEN.at (cix 0 [127]), gen)] with cores := [(0, { tasks := [(7, { wait := .tag 127 true true g 5 })] })] }
    (d.core 0).releases[1]? = some (r 2) ∧ (r 2).behind = 0 ∧ ({ r 2 with behind := 2 } : Release).behind ≠ 0 ∧ (r 2).upd.tcore < 72 ∧ (d.core 0).releases[0]? = some (r 1) ∧ ¬ (1 = 2) ∧
    (w 3 1 3).coreUp 0 = true ∧ (w 3 1 3).tstate 0 7 = 3 ∧ ((w 3 1 3).task 0 7).wait = .tag 127 true true 3 5 ∧ (∀ u < 8, u ≠ 7 → (w 3 1 3).tstate 0 u ≠ 3) ∧
    decide ((w 3 1 3).rd (Reg.SLOT_FULL.at (cix 0 [127])) ≠ 0) = true ∧ toSigned 16 ((w 3 1 3).rd (Reg.SLOT_GEN.at (cix 0 [127])) + 65536 - 3) = 0 ∧
    0 < toSigned 16 ((w 3 1 4).rd (Reg.SLOT_GEN.at (cix 0 [127])) + 65536 - 3) ∧ toSigned 16 ((w 3 1 2).rd (Reg.SLOT_GEN.at (cix 0 [127])) + 65536 - 3) < 0 ∧
    decide ((w 3 0 3).rd (Reg.SLOT_FULL.at (cix 0 [127])) ≠ 0) ≠ true ∧ (w 3 1 3).rd (Reg.MC_WAIT_LIMIT.at (cix 0)) ≠ 0 ∧ ((w 3 1 3).task 0 7).stalled = false := by
  and_intros <;> decide +kernel

/-- A tag update of a handle in both TAGMODEs, at an EMPTY and a FULL slot, at the last release count; and one of a handle that is not valid, by a core that is up. -/
theorem test_TagStateMachine : let u (h : Nat) : TagUpd := ⟨8, none, 0, h, 1, true, 1, 0, 7, 4095⟩
    let m (h : Nat) : Msg := ⟨.core 8, .core 0, .tag (u h)⟩
    let hn (tm f : Nat) := [(Reg.HND_VALID.at (cix 0 [1]), 1), (Reg.HND_TAGMODE.at (cix 0 [1]), tm), (Reg.HND_HALVES.at (cix 0 [1]), 1), (Reg.HND_RELN.at (cix 0 [1]), 3),
      (Reg.SLOT_FULL.at (cix 0 [3]), f), (Reg.SLOT_RELCNT.at (cix 0 [3]), 3), (Reg.SLOT_GEN.at (cix 0 [3]), 65535), (Reg.MC_STATE.at (cix 8), 2), (Reg.HND_ZFILL.at (cix 0 [1]), 1)]
    (carrying (m 1) (hn 1 0)).arriving 0 = some (m 1) ∧ (carrying (m 1) (hn 1 0)).tagAccepted 0 (u 1) = true ∧ (∀ z ∈ ((carrying (m 1) (hn 1 0)).core 0).zfills, z.slot ≠ 3) ∧
    ({ carrying (m 1) (hn 2 1) with cores := [(0, { zfills := [⟨3, 7, []⟩] })] } : Dev).tagAccepted 0 (u 1) = true ∧ (carrying (m 1) (hn 2 0)).tagAccepted 0 (u 1) = true ∧
    (carrying (m 1) (hn 2 1)).tagAccepted 0 (u 1) = true ∧ (carrying (m 1) (hn 2 0)).rd (Reg.SLOT_FULL.at (cix 0 [3])) = 0 ∧ (carrying (m 1) (hn 2 1)).rd (Reg.SLOT_FULL.at (cix 0 [3])) = 1 ∧
    (carrying (m 1) (hn 2 0)).rd (Reg.HND_RELN.at (cix 0 [1])) ≤ (carrying (m 1) (hn 2 0)).rd (Reg.SLOT_RELCNT.at (cix 0 [3])) ∧
    (carrying (m 1) (hn 2 0)).rd (Reg.SLOT_GEN.at (cix 0 [3])) < 65536 ∧ (carrying (m 63) (hn 1 0)).arriving 0 = some (m 63) ∧
    (carrying (m 63) (hn 1 0)).rd (Reg.HND_VALID.at (cix 0 [63])) = 0 ∧ (carrying (m 63) (hn 1 0)).coreUp 8 = true ∧ (carrying (m 63) (hn 1 0)).events.store.length < 1000 := by
  and_intros <;> decide +kernel

/-- Releases counted: the fourth makes the slot FULL with the next generation (R142, R143: RELN 3). -/
theorem test_tag_count : let u : TagUpd := ⟨8, none, 0, 1, 0, true, 0, 0, 0, 0⟩
    let d := carrying ⟨.core 8, .core 0, .tag u⟩ [(Reg.HND_VALID.at (cix 0 [1]), 1), (Reg.HND_TAGMODE.at (cix 0 [1]), 2), (Reg.HND_RELN.at (cix 0 [1]), 3), (Reg.SLOT_RELCNT.at (cix 0 [2]), 3)]
    ∃ t, exec (.tagUpdate 0) ⟨[], d⟩ = .next t ∧ t.dev.rd (Reg.SLOT_FULL.at (cix 0 [2])) = 1 ∧ t.dev.rd (Reg.SLOT_GEN.at (cix 0 [2])) = 1 ∧ t.dev.rd (Reg.SLOT_RELCNT.at (cix 0 [2])) = 0 :=
  ⟨_, rfl, by decide +kernel⟩

/-- Write transactions that end at the last byte of the half: of a stream unit, accepted, with the banks on, and waking, and off; of a handle that is not valid, by a core and by a stream unit. -/
theorem test_WriteTransactions : let q (w h : Nat) : Txn := ⟨w, 2, none, 0, h, 1, 508, [1, 2, 3, 4], 7, 0, []⟩
    let m (w h : Nat) : Msg := ⟨.su 0, .core 0, .write (q w h)⟩
    let hn := [(Reg.HND_VALID.at (cix 0 [1]), 1), (Reg.HND_TAGMODE.at (cix 0 [1]), 1), (Reg.HND_HALVES.at (cix 0 [1]), 1), (Reg.MC_STATE.at (cix 8), 1)]
    let d := carrying (m 0x100 1) hn
    let off := carrying (m 8 1) (hn ++ [(Reg.SP_BANK_PG_LO.at (cix 0), 1), (Reg.SP_BANK_ON_LO.at (cix 0), 0)])
    d.arriving 0 = some (m 0x100 1) ∧ d.writeAccepted 0 (q 0x100 1) = true ∧ d.anyGated 0 1020 4 = false ∧ d.anyWaking 0 1020 4 = false ∧ d.ecc = [] ∧ 72 ≤ (q 0x100 1).writer ∧ d.suAway 0 0x100 = true ∧ d.mcState 0 = 0 ∧ d.suState 0 ≠ 7 ∧
    (carrying (m 0x100 1) ((Reg.MC_STATE.at (cix 0), 1) :: hn)).suAway 0 0x100 = false ∧ (carrying (m 0x100 1) ((Reg.MC_STATE.at (cix 0), 1) :: hn)).writeAccepted 0 (q 0x100 1) = true ∧
    (carrying (m 0x100 63) [(Reg.MC_STATE.at (cix 0), 1)]).suAway 0 0x100 = false ∧ (carrying (m 0x100 63) [(Reg.MC_STATE.at (cix 0), 1)]).rd (Reg.HND_VALID.at (cix 0 [63])) = 0 ∧
    ({ d with cores := [(0, { waking := [0] })] } : Dev).anyWaking 0 1020 4 = true ∧ off.writeAccepted 0 (q 8 1) = true ∧ off.anyGated 0 1020 4 = true ∧ off.coreUp 8 = true ∧
    (carrying (m 8 63) hn).arriving 0 = some (m 8 63) ∧ (carrying (m 8 63) hn).rd (Reg.HND_VALID.at (cix 0 [63])) = 0 ∧ (carrying (m 8 63) hn).coreUp 8 = true ∧ d.events.store.length < 1000 ∧ (carrying (m 0x100 63) hn).suState 0 ≠ 7 := by
  and_intros <;> decide +kernel

/-- Credits that reach a core at the bound, and ports of a stream unit. -/
theorem test_CreditReturns : let c : Msg := ⟨.core 7, .core 0, .credit 15 2⟩
    let u : Msg := ⟨.core 7, .su 127, .credit 15 2⟩
    let d := carrying c [(Reg.SP_OUTRT_CRED.at (cix 0 [15]), 16382)]
    let e := carrying u [(Reg.SU_RT_VALID.at (six 127 [7]), 1), (Reg.SU_RT_ROUTE.at (six 127 [7]), 15)]
    d.arriving 0 = some c ∧ (d.core 0).drainQ = [] ∧ (d.core 0).vecNext = none ∧ (d.core 0).doneQ = [] ∧ (d.core 0).freezeOwed = [] ∧ (d.core 0).closeOwed = false ∧ (∀ t < 8, d.tstate 0 t ≠ 4) ∧ 16383 < d.rd (Reg.SP_OUTRT_CRED.at (cix 0 [15])) + 2 ∧
    e.arriving 0 = some u ∧ e.seamRx = [] ∧ e.rd (Reg.SU_RT_VALID.at (six 127 [7])) = 1 ∧ e.rd (Reg.SU_RT_ROUTE.at (six 127 [7])) = 15 := by
  and_intros <;> decide +kernel

/-- Work counter 31 of cluster 7: ARMED with a tile to lease, with one in its reissue queue behind one held back, with none left; CLOSING; idle. -/
theorem test_TakeAndArm : let m : Msg := ⟨.core 71, .wc 7 31, .take 7⟩
    let a : Msg := ⟨.seq, .wc 7 31, .arm 3⟩
    let wc (st next : Nat) := [(Reg.CL_WC_STATE.at [7, 31], st), (Reg.CL_WC_TILES.at [7, 31], 6), (Reg.CL_WC_NEXT.at [7, 31], next), (Reg.CL_WC_PER_ROW.at [7, 31], 2)]
    let d (st next : Nat) (l : List (Nat × Option Nat)) : Dev := { carrying m (wc st next) with wcs := [(7 * 32 + 31, { reissue := l })] }
    (d 1 5 []).arriving 0 = some m ∧ (d 1 5 []).rd (Reg.CL_WC_STATE.at [7, 31]) = 1 ∧ (d 1 5 []).rd (Reg.CL_WC_ACCEPTED.at [7, 31]) ≠ (d 1 5 []).rd (Reg.CL_WC_TILES.at [7, 31]) ∧
    (d 1 5 [(4, some 2), (2, none)]).wc 7 31 = { reissue := [(4, some 2)] ++ (2, none) :: [] } ∧
    (d 1 5 []).rd (Reg.CL_WC_NEXT.at [7, 31]) < (d 1 5 []).rd (Reg.CL_WC_TILES.at [7, 31]) ∧ (d 1 6 []).rd (Reg.CL_WC_TILES.at [7, 31]) ≤ (d 1 6 []).rd (Reg.CL_WC_NEXT.at [7, 31]) ∧
    (d 2 0 []).rd (Reg.CL_WC_STATE.at [7, 31]) = 2 ∧ (d 0 0 []).rd (Reg.CL_WC_STATE.at [7, 31]) = 0 ∧ (carrying a (wc 0 0)).arriving 0 = some a ∧
    ((carrying a (wc 0 0)).wc 7 31).waiting = [] ∧ 3 * (carrying a (wc 0 0)).rd (Reg.CL_WC_PER_ROW.at [7, 31]) < 65536 := by
  and_intros <;> decide +kernel

/-- The next tile is leased, and the answer names it (R208). -/
theorem test_wc_take : let d := carrying ⟨.core 3, .wc 0 1, .take 2⟩ [(Reg.CL_WC_STATE.at [0, 1], 1), (Reg.CL_WC_TILES.at [0, 1], 6), (Reg.CL_WC_NEXT.at [0, 1], 5), (Reg.CL_WC_LGEN.at [0, 1], 9)]
    ∃ t, exec (.wcTake 0) ⟨[], d⟩ = .next t ∧ t.dev.fabric = [⟨.wc 0 1, .core 3, .takeResp 2 5 9⟩] ∧ t.dev.rd (Reg.CL_WC_NEXT.at [0, 1]) = 6 := ⟨_, rfl, by decide +kernel⟩

/-- DONE of a HELD lease, of the last one, of an expired and of a frozen one; a freeze, a close, an expiry and an unclosed lease. -/
theorem test_LeaseLife : let wc (acc : Nat) := [(Reg.CL_WC_STATE.at [0, 1], 1), (Reg.CL_WC_TILES.at [0, 1], 6), (Reg.CL_WC_ACCEPTED.at [0, 1], acc)]
    let l (st : Nat) : Lease := ⟨71, 7, 2, 9, st, false⟩
    let d (b : Body) (st acc : Nat) : Dev := { carrying ⟨.core 71, .wc 0 1, b⟩ (wc acc) with wcs := [(1, { leases := [l st], reissue := [(2, some 9)] })] }
    (d (.done 7 2 9) 0 3).arriving 0 = some ⟨.core 71, .wc 0 1, .done 7 2 9⟩ ∧ ((d (.done 7 2 9) 0 3).wc 0 1).leases = [] ++ l 0 :: [] ∧
    (d (.done 7 2 9) 0 3).rd (Reg.CL_WC_ACCEPTED.at [0, 1]) + 1 ≠ 6 ∧ (d (.done 7 2 9) 0 5).rd (Reg.CL_WC_ACCEPTED.at [0, 1]) + 1 = (d (.done 7 2 9) 0 5).rd (Reg.CL_WC_TILES.at [0, 1]) ∧
    (d .freeze 0 3).arriving 0 = some ⟨.core 71, .wc 0 1, .freeze⟩ ∧ (d .close 2 3).arriving 0 = some ⟨.core 71, .wc 0 1, .close⟩ ∧
    ((d .close 2 3).wc 0 1).leases[0]? = some (l 2) ∧ ((d .close 1 3).wc 0 1).leases[0]? = some (l 1) ∧ ((d .close 0 3).wc 0 1).leases[0]? = some (l 0) ∧ (d .close 1 3).unclosed = [] ∧
    (d .close 1 3).rd (Reg.CL_WC_STATE.at [0, 1]) = 1 := by
  and_intros <;> decide +kernel

/-- A ring of members 0 and 8: the stop of the last member in a ring that rotates, which sends its first slice, and has no room; of one that streams, which fetches; and the stop of the
first member there, which holds the slice fetched, and one that holds none. -/
theorem test_WeightRing : let g : RingRec := ⟨0, 0, 7, 63, 512⟩
    let d (f : Nat) : Dev := { put [(Reg.CL_RING_MEMBERS.at [7], 0x101), (Reg.SLOT_FULL.at (cix 63 [127]), f)] with rings := [g] }
    let e (n : Nat) : Dev := { put [(Reg.CL_RING_MEMBERS.at [7], 0x101), (Reg.CL_RING_STREAM.at [7], 1), (Reg.CL_RING_SU.at [7], 15)] with rings := [g], ringSent := [(71, n)] }
    let P (d : Dev) : Prop := d.held = false ∧ d.rings.find? (fun r => r.cluster = 7) = some g ∧ (d.rd (Reg.CL_RING_MEMBERS.at [7])).testBit 8 = true ∧ (d.rd (Reg.CL_RING_MEMBERS.at [7])).testBit 0 = true ∧
      d.ringNext 7 8 = some 0 ∧ d.ringNext 7 0 = some 8 ∧ d.ringPrev 7 0 = 8
    P (d 0) ∧ P (e 0) ∧ (d 0).rd (Reg.CL_RING_STREAM.at [7]) = 0 ∧ (e 0).rd (Reg.CL_RING_STREAM.at [7]) ≠ 0 ∧
    Tab.get 0 (d 0).ringSent 71 = 0 ∧ Tab.get 0 (d 0).ringSent 63 = 0 ∧ (d 0).rd (Reg.SLOT_FULL.at (cix 63 [2 * 63 + 1])) = 0 ∧ (d 0).ringFlying 7 112 63 1 = false ∧
    (d 1).rd (Reg.SLOT_FULL.at (cix 63 [2 * 63 + 1])) ≠ 0 ∧
    (e 0).rd (Reg.SLOT_FULL.at (cix 63 [2 * 63])) = 0 ∧ (e 0).ringFlying 7 127 63 0 = false ∧ (e 0).suState 127 ≠ 7 ∧
    (e 1).rd (Reg.SLOT_FULL.at (cix 71 [2 * 63])) = 0 ∧ (e 1).ringFlying 7 127 71 0 = false ∧ ((e 1).ringMembers 7).getLast? = some 8 ∧ (e 1).ringFlying 7 127 63 0 = false ∧
    Tab.get 0 (e 1).ringSent 63 < Tab.get 0 (e 1).ringSent 71 ∧ ¬ Tab.get 0 (e 0).ringSent 63 < Tab.get 0 (e 0).ringSent 71 := by
  and_intros <;> decide +kernel

/-- One instruction of each kind that changes registers of the unit, the last at index 30. -/
theorem test_StreamRegisterInstructions : let P (w : IWord) := suAt (suWord 30 w) 0 30 w ∧ suLegal w 30 = true ∧ (suPassed { (suWord 30 w).su 0 with fence := false } 30).2 < 32
    P 0 ∧ P (word [(0, 3), (8, 7)]) ∧ P (word [(0, 3), (11, 3)]) ∧ P (word [(0, 4), (8, 7), (32, 0x80000000)]) ∧ P (word [(0, 5), (8, 3), (32, 1)]) ∧
    P (word [(0, 6), (32, 5)]) ∧ P (word [(0, 0x0B), (32, 8), (45, 8)]) := by
  simp only [suAt]; and_intros <;> decide +kernel

/-- A LOOP to the last index, with a count and without; END; FENCE; SETTAG that toggles its half, through a route, and an EMPTY through a watch port. -/
theorem test_StreamControl : let q : Su := { nest := [0], lc := [(0, ⟨2, 1, 31⟩)] }
    let lp := word [(0, 2), (8, 1), (16, 31), (32, 2)]
    let l0 := word [(0, 2), (8, 1), (10, 1), (16, 31)]
    let tg := word [(0, 7), (8, 7), (12, 1), (15, 1), (16, 2)]
    let port := [(Reg.SU_RT_VALID.at (six 0 [7]), 1), (Reg.SU_RT_TCORE.at (six 0 [7]), 71), (Reg.SU_RT_CUR_HALF.at (six 0 [7]), 1)]
    suAt (suWord 3 lp q) 0 3 lp ∧ suLegal lp 3 = true ∧ suLegal l0 3 = true ∧ suAt (suWord 3 l0 q) 0 3 l0 ∧ 1 ∉ q.nest ∧ 31 ≤ (q.lcv 0).stop ∧ (q.nv 0).toNat = 0 ∧
    suLegal (word [(0, 1)]) 3 = true ∧ suAt (suWord 3 (word [(0, 1)])) 0 3 (word [(0, 1)]) ∧ suLegal (word [(0, 0x0C)]) 3 = true ∧ suAt (suWord 3 (word [(0, 0x0C)])) 0 3 (word [(0, 0x0C)]) ∧
    suAt (suWord 3 tg {} port) 0 3 tg ∧ suLegal tg 3 = true ∧ (suWord 3 tg {} port).rd (Reg.SU_RT_VALID.at (six 0 [7])) = 1 ∧ ((suWord 3 tg {} port).su 0).work = [] ∧
    (suWord 3 tg {} port).rd (Reg.SU_RT_TCORE.at (six 0 [7])) < 72 ∧ (suWord 3 tg {} port).rd (Reg.SU_RT_CUR_HALF.at (six 0 [7])) < 2 ∧
    (let em := word [(0, 7), (8, 3), (11, 1), (15, 1), (16, 2)]
     let d := suWord 3 em {} [(Reg.SU_WP_VALID.at (six 0 [3]), 1), (Reg.SU_WP_TCORE.at (six 0 [3]), 71), (Reg.SU_WP_CUR_HALF.at (six 0 [3]), 1), (Reg.SU_WP_EGEN1.at (six 0 [3]), 65535)]
     suAt d 0 3 em ∧ suLegal em 3 = true ∧ d.rd (Reg.SU_WP_VALID.at (six 0 [3])) = 1 ∧ (d.su 0).work = [] ∧ d.rd (Reg.SU_WP_TCORE.at (six 0 [3])) < 72 ∧ d.rd (Reg.SU_WP_CUR_HALF.at (six 0 [3])) < 2) := by
  simp only [suAt]; and_intros <;> decide +kernel

/-- A transfer with one request to issue. -/
def oneRead (r : Req) : Transfer := ⟨0, .plain, 0, none, [r], [], [], [], [], none, false⟩

/-- Units that are not ready, and units that fail each check. -/
theorem test_StreamUnitStops : let lp := word [(0, 2), (8, 1), (16, 31)]
    let tg := word [(0, 7), (8, 7)]
    let mt := word [(0, 9), (17, 1), (18, 7), (23, 1)]
    let ga := word [(0, 0x0A), (17, 1), (18, 7)]
    (suWord 3 0 { work := [.xfer (oneRead { addr := 0, len := 1, wp := none })] }).suReady 0 = false ∧ (suWord 3 0 { fence := true, work := [.rel ⟨0, false, ⟨0, none, 0, 0, 0, false, 0, 0, 0, 0⟩⟩] }).suReady 0 = false ∧
    (suWord 3 0 {} [(Reg.SU_STATE.at (six 0), 7)]).suState 0 = 7 ∧ suAt (suWord 3 (word [(0, 0x0D)])) 0 3 (word [(0, 0x0D)]) ∧ suOpcodes.contains 0x0D = false ∧
    suLegal (word [(0, 0), (8, 1)]) 3 = false ∧ suAt (suWord 31 0) 0 31 0 ∧ suLegal 0 31 = true ∧ suAt (suWord 3 lp { nest := [1] }) 0 3 lp ∧ suLegal lp 3 = true ∧
    (({ lc := [(0, ⟨2, 1, 30⟩)] } : Su).lcv 0).stop < 31 ∧ suAt (suWord 3 tg) 0 3 tg ∧ suLegal tg 3 = true ∧ (suWord 3 tg).rd (Reg.SU_RT_VALID.at (six 0 [7])) = 0 ∧
    suAt (suWord 3 mt) 0 3 mt ∧ suLegal mt 3 = true ∧ suAt (suWord 3 ga) 0 3 ga ∧ suLegal ga 3 = true := by
  simp only [suAt]; and_intros <;> decide +kernel

/-- A MOVE of two rows of four bytes, a MOVET of one element and a GATHER of one pixel, between device addresses. -/
theorem test_TransfersStart : let q : Su := { x := [(0, { base := 0x1000 }), (1, { base := 2 ^ 48 - 4 }), (2, { base := 0x3000 })] }
    let mv := word [(0, 8), (14, 1), (24, 3), (40, 1), (64, 4)]
    let mt := word [(0, 9), (14, 1), (23, 1)]
    let ga := word [(0, 0x0A), (11, 2), (14, 1)]
    let P (w : IWord) := suAt (suWord 3 w q) 0 3 w ∧ suLegal w 3 = true ∧ (suPassed q 3).2 < 32
    P mv ∧ P mt ∧ P ga ∧ ifld mv 11 1 = 0 ∧ ifld mv 17 1 = 0 ∧ q.ea 0 = 0x1000 ∧ q.ea 1 = 2 ^ 48 - 4 ∧ q.ea 1 < 2 ^ 48 ∧ q.ea 2 = 0x3000 ∧
    (let x : SuCtx := ⟨0, 3, mt, q⟩
     movetOffsets x 0 0 0 = (0, 0)) := by
  simp only [suAt]; and_intros <;> decide +kernel

/-- A MOVE, a MOVET and a GATHER through a route to a half of 512 bytes, whose last byte they write, the first two from a watch port, whose last byte they read. -/
theorem test_TransfersStart_routed : let q : Su := { x := [(0, { base := 508 }), (1, { base := 508 }), (2, { base := 0x3000 })] }
    let mv := word [(0, 8), (11, 1), (12, 3), (14, 1), (17, 1), (18, 7), (24, 3)]
    let mt := word [(0, 9), (11, 1), (12, 3), (14, 1), (17, 1), (18, 7), (22, 1), (23, 1)]
    let ga := word [(0, 0x0A), (11, 2), (14, 1), (17, 1), (18, 7), (32, 3)]
    let l := [(Reg.SU_RT_VALID.at (six 0 [7]), 1), (Reg.SU_RT_CUR_HALF.at (six 0 [7]), 1), (Reg.SU_WP_VALID.at (six 0 [3]), 1), (Reg.SU_WP_TCORE.at (six 0 [3]), 5), (Reg.SU_WP_EGEN0.at (six 0 [3]), 9)]
    let P (w : IWord) : Prop := suAt (suWord 3 w q l) 0 3 w ∧ suLegal w 3 = true ∧ (suPassed q 3).2 < 32 ∧ (suWord 3 w q l).rd (Reg.SU_RT_VALID.at (six 0 [7])) = 1 ∧
      (suWord 3 w q l).rd (Reg.SU_WP_VALID.at (six 0 [3])) = 1 ∧ (suWord 3 w q l).rd (Reg.SU_RT_TSIZE.at (six 0 [7])) = 0 ∧ (suWord 3 w q l).rd (Reg.SU_WP_TSIZE.at (six 0 [3])) = 0
    P mv ∧ P mt ∧ P ga ∧ ofSigned 22 (q.ea 0) + 4 = 512 ∧ (let x : SuCtx := ⟨0, 3, mt, q⟩
     movetOffsets x 0 0 0 = (0, 0)) ∧ ofSigned 22 (q.ea 1) + (ifld ga 32 13 + 1) = 512 := by
  simp only [suAt]; and_intros <;> decide +kernel

/-- A first request in LPDDR6, without a free tag, without a token, and with both; one that opens a transaction of a route, with credit and without; a request through a watch port whose half is EMPTY,
FULL with the generation expected, and FULL with a later one. -/
theorem test_RequestsIssue : let r : Req := { addr := 0x1000, len := 256, wp := none }
    let w : Req := { addr := 0x004000000000, len := 64, wp := some 3 }
    let q (r : Req) : Su := { work := [.xfer (oneRead r)] }
    let f := [(Reg.DDR_CAP_GIB.at [], 24), (Reg.CL_SC_EN.at [0], 0)]
    let d (n : Nat) := suWord 3 0 (q r) (f ++ [(Reg.SU_TAGLIM.at (six 0), n)])
    let flying : Su := { work := [.xfer { oneRead r with flying := [{ r with tag := true }] }] }
    let p := suWord 3 0 (q w) (f ++ [(Reg.MC_STATE.at (cix 0), 2)])
    ((d 0).su 0).work = [.xfer (oneRead r)] ∧ SuItem.writes 0x10 0x10 (.xfer (oneRead r)) = false ∧ (d 0).region 0x1000 = .ddr ∧ ((d 0).chan 4).writes ++ ((d 0).chan 4).waitWrites = [] ∧ (oneRead r).dest = .plain ∧ (d 0).rd (Reg.CL_SC_EN.at [0]) = 0 ∧ ((d 0).chan (0x1000 / 256 % 12)).reads.length < 64 ∧ (d 0).tagFree 0 = true ∧
    (suWord 3 0 flying (f ++ [(Reg.SU_TAGLIM.at (six 0), 1)])).tagFree 0 = false ∧ (d 0).rd (Reg.SU_REG_EN.at (six 0)) = 0 ∧
    (suWord 3 0 (q r) (f ++ [(Reg.SU_REG_EN.at (six 0), 1)])).rd (Reg.SU_REG_EN.at (six 0)) = 1 ∧
    (let t : Transfer := { oneRead r with dest := .route 7 1, txns := [⟨0, [.byte 0x1000, .byte 0x10FF], false⟩] }
     let x (n : Nat) := suWord 3 0 { work := [.xfer t] } (f ++ [(Reg.SU_TAGLIM.at (six 0), 1), (Reg.SU_RT_CRED.at (six 0 [7]), n)])
     let P (n : Nat) : Prop := ((x n).su 0).work = [.xfer t] ∧ (x n).region r.addr = .ddr ∧ (x n).rd (Reg.CL_SC_EN.at [0]) = 0 ∧ (x n).rd (Reg.SU_REG_EN.at (six 0)) = 0 ∧ (x n).tagFree 0 = true ∧
       ((x n).chan (0x1000 / 256 % 12)).reads.length < 64 ∧ (x n).rd (Reg.SU_RT_CRED.at (six 0 [7])) = n
     P 0 ∧ P 1 ∧ P 16383 ∧ (t.opens r).length = 1) ∧
    (let full (g : Nat) := suWord 3 0 { work := [.xfer { oneRead w with gchk := some 4 }] } (f ++ [(Reg.MC_STATE.at (cix 0), 2), (Reg.SLOT_FULL.at (cix 0 [0]), 1), (Reg.SLOT_GEN.at (cix 0 [0]), g)])
     let P (g : Nat) : Prop := (full g).region w.addr = .sp 0 0 ∧ (full g).mcState 0 = 2 ∧ (full g).anyShut 0 0 w.len = false ∧ (full g).rd (Reg.SLOT_FULL.at (cix 0 [0])) = 1 ∧
       (full g).rd (Reg.SU_WP_TCORE.at (six 0 [3])) = 0 ∧ (full g).rd (Reg.SU_REG_EN.at (six 0)) = 0
     P 4 ∧ P 5 ∧ toSigned 16 ((full 4).rd (Reg.SLOT_GEN.at (cix 0 [0])) + 65536 - 4) = 0 ∧ 0 < toSigned 16 ((full 5).rd (Reg.SLOT_GEN.at (cix 0 [0])) + 65536 - 4)) ∧
    p.region 0x004000000000 = .sp 0 0 ∧ p.mcState 0 = 2 ∧ p.anyShut 0 0 64 = false ∧ p.rd (Reg.SLOT_FULL.at (cix (p.rd (Reg.SU_WP_TCORE.at (six 0 [3]))) [0])) = 0 := by
  and_intros <;> decide +kernel

/-- The last bytes of a copy from a scratchpad to LPDDR6, and through a route to core 71. -/
theorem test_ReadsReturn : let r : Req := { addr := 0x004000000000, len := 4, wp := none }
    let p : TxnPlan := ⟨0x1000, (List.range 4).map (fun i => Source.byte (0x004000000000 + i)), true⟩
    let t : Transfer := ⟨0, .plain, 0, none, [], [r], [p], [], [], none, false⟩
    let d := suWord 3 0 { work := [.xfer t] } [(Reg.DDR_CAP_GIB.at [], 24)]
    (let x := suWord 3 0 { work := [.xfer { t with dest := .route 7 1 }] } [(Reg.SU_RT_TCORE.at (six 0 [7]), 71)]
     (x.su 0).work = [.xfer { t with dest := .route 7 1 }] ∧ x.rd (Reg.SU_RT_TCORE.at (six 0 [7])) < 72 ∧ x.region r.addr = .sp 0 0 ∧ x.anyWaking 0 0 4 = false) ∧
    (d.su 0).work = [.xfer t] ∧ p.srcs = (List.range r.len).map (fun i => Source.byte (r.addr + i)) ∧ d.region r.addr = .sp 0 0 ∧ d.anyWaking 0 0 4 = false ∧ d.region p.off = .ddr ∧
    d.ecc = [] ∧ d.cache = [] ∧ d.roomFor 0x100 0x1000 4 = true ∧ d.suState 0 ≠ 7 ∧ toSigned 32 (r.deadline + 2 ^ 32 - d.time % 2 ^ 32) ≥ 0 := by
  and_intros <;> decide +kernel

/-- A launch of a unit that is not enabled, idle, and running; a drain with and without a held launch; a stall on the first of two ports that wait; a pipeline under re-initialisation. -/
theorem test_StreamUnitRuns : let m : Msg := ⟨.seq, .su 127, .launch 0 ⟨1, 2⟩⟩
    let d (en st : Nat) := carrying m [(Reg.SU_ENABLE.at (six 127), en), (Reg.SU_STATE.at (six 127), st)]
    let c := put [(Reg.SU_STATE.at (six 127), 2), (Reg.SU_CSTALL_LIMIT.at (six 127), 1), (Reg.SU_RT_WAITING.at (six 127 [6]), 1), (Reg.SU_RT_WAITING.at (six 127 [7]), 1)]
    let r (l : List Nat) : Dev := { reinitRunning := [63], reinitQuiet := l }
    let b (st : Nat) : Dev := { d 1 6 with sus := [(127, { work := [.rel ⟨0, false, ⟨0, none, 0, 0, 0, false, 0, 0, 0, 0⟩⟩], stale := st })] }
    let q : Dev := { d 1 6 with sus := [(127, { stale := 1 })] }
    (b 0).suQuiet 127 = false ∧ (b 0).suState 127 = 6 ∧ q.suQuiet 127 = true ∧ (q.su 127).stale ≠ 0 ∧ (q.su 127).shadow = none ∧ q.suState 127 = 6 ∧ (d 1 6).rd (Reg.SU_ENABLE.at (six 127)) = 1 ∧
    ((d 1 6).su 127).stale = 0 ∧ (c.su 127).stalled = false ∧ (({ c with sus := [(127, { stalled := true })] } : Dev).su 127).stalled = true ∧
    (d 0 0).arriving 0 = some m ∧ (d 0 0).rd (Reg.SU_ENABLE.at (six 127)) = 0 ∧ (d 1 0).rd (Reg.SU_ENABLE.at (six 127)) = 1 ∧ (d 1 0).rd (Reg.SU_STATE.at (six 127)) = 0 ∧
    (d 1 6).rd (Reg.SU_STATE.at (six 127)) = 6 ∧ (d 1 6).suQuiet 127 = true ∧ ((d 1 6).su 127).shadow = none ∧
    (({ d 1 6 with sus := [(127, { shadow := some ⟨1, 2⟩ })] } : Dev).su 127).shadow = some ⟨1, 2⟩ ∧
    c.rd (Reg.SU_STATE.at (six 127)) = 2 ∧ c.rd (Reg.SU_CSTALL_LIMIT.at (six 127)) ≠ 0 ∧ c.rd (Reg.SU_RT_WAITING.at (six 127 [6])) = 1 ∧ (∀ j < 6, c.rd (Reg.SU_RT_WAITING.at (six 127 [j])) = 0) ∧
    (r []).pipeWrites 63 = false ∧ 63 ∈ (r []).reinitRunning ∧ 63 ∉ (r []).reinitQuiet ∧ 63 ∈ (r [63]).reinitQuiet ∧ (r [63]).pipeWrites 63 = false ∧ (r []).plan.beLayers = [] := by
  and_intros <;> decide +kernel

/-- No port of that device names a route beyond 15, and a route that is being reset keeps its pipeline from going on. -/
theorem test_StreamUnitRuns_ports (c i u r : Nat) : let d : Dev := { reinitRunning := [63] }
    d.rd (Reg.SP_INRT_ROUTE.at (cix c [i])) < 16 ∧ d.rd (Reg.SU_RT_ROUTE.at (six u [r])) < 16 := by
  constructor <;> exact Nat.zero_lt_succ _

/-- A unit of that pipeline has a transaction on its way. -/
theorem test_StreamUnitRuns_writes :
    ({ carrying ⟨.su 127, .core 0, .write ⟨0x17F, 0, some 0, 0, 0, 0, 0, [], 0, 0, []⟩⟩ [(Reg.SU_PIPELINE.at (six 127), 63)] with reinitRunning := [63] } : Dev).pipeWrites 63 = true := by
  decide +kernel

/-! ### The hypotheses of the statements about memories, the sequencer, the boundary engines and the display -/

/-- Pipeline 63 of one stripe member, task 7 of core 71, that reads stream 15 and makes layer 15. -/
def aMember : MemberRec := ⟨71, 7, false, false, true, 0, 8, 8, 0, false, false, 0, 0, 0, true⟩
def aPipe : PipeRec := ⟨63, false, true, 1, 15, 15, 8, 1, 0, [aMember]⟩

/-- A first or last layer of it, of one pixel and one channel. -/
def aBeLayer (last : Bool) : BeLayer :=
  ⟨63, last, 15, 1, 2, 1, 1, 1, 1, 1, 1, 1, 0, 0, 0, 0, [0], [0], [0], 0, 0, 0, 0, 0, 0, 0, [], [], [], 71, 63, 62, 0, 0, 512, false, 71, 63, 15, 0, 512, 62, 14, 0, 15, none, none, 0, 0, none, 0⟩

/-- A plan that holds them. -/
def aPlan : Plan := { ({} : Dev).plan with pipes := [aPipe], beLayers := [aBeLayer false, aBeLayer true] }

/-- The last bank of a core: it waits to power down with and without a write on its way, wakes, or fills a half with zeros. -/
theorem test_Scratchpads : let d (w : Nat) : Dev := { cores := [(71, { pgWait := [(47, w)], waking := [47, 3], zfills := [⟨127, 9, []⟩] })] }
    let x : Msg := ⟨.su 0, .core 71, .write ⟨0x100, 0, none, 71, 0, 0, 47 * 65536, [1], 0, 0, []⟩⟩
    Tab.get 0 ((d 1).core 71).pgWait 47 = 1 ∧ (d 1).takeReports 71 = d 1 ∧ Tab.get 0 ((d 1).core 71).owed 47 = 0 ∧ (d 1).bankWrites 71 47 = false ∧ (({ d 1 with fabric := [x] } : Dev).takeReports 71).bankWrites 71 47 = true ∧
    x.reportTo 71 = false ∧ Tab.get 0 ((d 2).core 71).pgWait 47 ≠ 1 ∧
    47 ∈ ((d 1).core 71).waking ∧ ((d 1).core 71).zfills = ⟨127, 9, []⟩ :: [] ∧ (127 : Fin 128).val / 2 = 63 := by
  and_intros <;> decide +kernel

/-- The scrub at the last logical row and at a spare row in use, with no error, one that is corrected and one that is not. -/
theorem test_Scratchpads_scrub : let d (p m : Nat) : Dev := { put [(Reg.SP_REMAP_VALID.at (cix 0 [47, 3]), 1), (Reg.SP_REMAP_ROW.at (cix 0 [47, 3]), 5)] with cores := [(0, { scrubRow := [(47, p)] })], ecc := Tab.put 0 [] (spAddr 0 (47 * 65536 + 127 * 512 + 63 * 8) / 8) m }
    (d 127 1).bankGated 0 47 = false ∧ (d 127 1).bankWaking 0 47 = false ∧ (d 127 1).rowAt 0 47 127 = some 127 ∧ (d 131 0).rowAt 0 47 131 = some 5 ∧
    (∀ k < 63, Tab.get 0 (d 127 2).ecc (spAddr 0 (47 * 65536 + 127 * 512 + k * 8) / 8) = 0) ∧ Tab.get 0 (d 127 1).ecc (spAddr 0 (47 * 65536 + 127 * 512 + 63 * 8) / 8) = 1 ∧
    Tab.get 0 (d 127 2).ecc (spAddr 0 (47 * 65536 + 127 * 512 + 63 * 8) / 8) = 2 := by
  and_intros <;> decide +kernel

/-- A spare row not in use, and a row that was replaced, with a double-bit error in its last word. -/
theorem test_Scratchpads_spare : let d (p : Nat) : Dev := { put [(Reg.SP_REMAP_VALID.at (cix 0 [47, 3]), 1), (Reg.SP_REMAP_ROW.at (cix 0 [47, 3]), 5)] with cores := [(0, { scrubRow := [(47, p)], ecc := Tab.put 0 [] (rowKey 47 p + 63) 2 })] }
    (∀ p ∈ [5, 130], (d p).rowAt 0 47 p = none ∧ (d p).bankGated 0 47 = false ∧ (d p).bankWaking 0 47 = false ∧ (∀ k < 63, Tab.get 0 ((d p).core 0).ecc (rowKey 47 p + k) = 0) ∧
      Tab.get 0 ((d p).core 0).ecc (rowKey 47 p + 63) = 2) ∧ rowKey 47 130 + 63 < rowKey 47 131 := by
  and_intros <;> decide +kernel

/-- Rows at the count that calls for a spare, one below it, and past 24 hours; a channel with two reads inside the slack. -/
theorem test_RowsAndSlots : let loc := 71 + 47 * 128 + 127 * 8192
    let d (cls n : Nat) : Dev := { corrRows := [⟨cls, if cls = 3 then 5 else loc, 0, n, false⟩], repair := [⟨0, true, loc % 8192, 0⟩] }
    let q : DdrEntry := ⟨0x100, 0, 100, false, false⟩
    let c : Dev := { put [(Reg.DDR_HIT_SLACK.at [], 1000)] with ddr := [(11, { reads := [q, { q with deadline := 50 }] })] }
    (d 0 4).corrRows.find? (fun r => decide (r.cls = 0) && decide (r.loc = loc % 2 ^ 20)) = some ⟨0, loc, 0, 4, false⟩ ∧ ¬ (4 ≤ 3) ∧ (d 0 4).freeSpare 0 loc = some 1 ∧ (d 0 4).repair.length < 65536 ∧
    (d 3 16).corrRows.find? (fun r => decide (r.cls = 3) && decide (r.loc = 5)) = some ⟨3, 5, 0, 16, false⟩ ∧ (∀ x ∈ (d 3 16).repair, x.cls ≠ 3) ∧
    (c.chan 11).writes = [] ∧ (c.chan 11).waitReads = [] ∧ (c.chan 11).waitWrites = [] ∧ c.criticalNow q = false ∧ c.criticalNow { q with deadline := 50 } = false ∧ (c.chan 11).reads = [q, { q with deadline := 50 }] ∧ toSigned 32 (100 + 2 ^ 32 - c.time % 2 ^ 32) ≤ (c.rd (Reg.DDR_HIT_SLACK.at []) : Int) := by
  and_intros <;> decide +kernel

/-- A latch with no frame yet and with two; a fence that is the last to be read and one that is not, met at its value and not met. -/
theorem test_LatchesAndFlips : let d : Dev := { put [(Reg.OUT_RUNNING.at [1], 1)] with plan := aPlan }
    let f : Flip := ⟨0x1000, 64, 0x2000, true, 5, 7⟩
    let l (n v : Nat) : Dev := { put [(Reg.LAY_KIND.at [15], 1)] with mem := [(0x2000, BitVec.ofNat 8 v)], layers := (if n = 1 then [(14, { fence := 1 })] else []) ++ [(15, { pend := some f, fence := 1 })] }
    d.pipeRec 63 = some aPipe ∧ d.outRuns (d.pipeRaster aPipe) = true ∧ (d.pipe 63).latches = [] ∧ (d.pipe 63).todo = [] ∧ (d.stream 15).done = [] ∧
    (({ d with streams := [(15, { done := [⟨1, 20, 2⟩, ⟨0, 10, 1⟩] })], time := 25 } : Dev).stream 15).done = ⟨1, 20, 2⟩ :: ⟨0, 10, 1⟩ :: [] ∧
    ((l 1 5).layer 15).pend = some f ∧ ((l 1 5).layer 15).fence = 1 ∧ 14 ∈ (l 1 5).rasterLayers ((l 1 5).rasterOf 15) ∧ ((l 1 5).layer 14).fence = 1 ∧
    f.fenceVal ≤ (l 0 5).readLe f.fenceAddr 8 ∧ ¬ f.fenceVal ≤ (l 0 4).readLe f.fenceAddr 8 ∧ (∀ i ∈ (l 0 5).rasterLayers 1, i ≠ 15 → ((l 0 5).layer i).fence ≠ 1) ∧
    (l 0 5).rd (Reg.LAY_KIND.at [15]) = 1 ∧ (l 0 5).rd (Reg.LAY_GROUP.at [15]) = 0 ∧ (l 0 5).asking (fenceMaster 15) = false ∧ (l 0 5).ecc = [] ∧ f.fenceEn = true ∧
    ({ l 0 5 with ddr := [(0, { reads := [⟨fenceMaster 15, 0x20, 0, true, false⟩] })] } : Dev).asking (fenceMaster 15) = true ∧ (d.layer 15).fence ≠ 1 ∧ (∀ i ∈ d.rasterLayers 1, (d.layer i).fence ≠ 1) ∧ (l 0 5).split = false ∧ 15 ∈ (l 0 5).rasterLayers 1 := by
  and_intros <;> decide +kernel

/-- A pipeline of two stripes with a stripe member on a core, one on a stream unit and a frame member: the first stripe of the next latched frame, and the last of the frame in progress; a member whose
queue is full, and one whose work counter holds a queued arm; launches of members that hold none, and one. -/
theorem test_ChainCommands : let l : Latch := { frame := 1, live := true, phase := 255 }
    let x : Launch := ⟨1, 2⟩
    let su : MemberRec := { aMember with master := 0x17F, task := 0 }
    let fr : MemberRec := { aMember with master := 70, frameMember := true }
    let r : PipeRec := { aPipe with stripes := 2, members := [aMember, su, fr] }
    let d (n : Nat) : Dev := { plan := { aPlan with pipes := [r] }, seqRun := true, pipes := [(63, { todo := [l] })], launchQ := [(71 * 8 + 7, List.replicate n x), (0x1100 + 127, [x])], sus := [(127, { shadow := some x })] }
    let b : Dev := { d 1 with pipes := [(63, { cur := some l, stripe := 1, q := 65536 })] }
    let a : MemberRec := { aMember with armsWc := true, wcCluster := 7, wc := 31 }
    (d 15).pipeRec 63 = some r ∧ (∀ m ∈ r.members, m.master < 0x180 ∧ m.task < 8) ∧ ((d 15).pipe 63).cur = none ∧ ((d 15).pipe 63).todo.head? = some l ∧ l.live = true ∧ l.phase < 256 ∧
    (b.pipe 63).cur = some l ∧ (b.pipe 63).stripe = 1 ∧ (b.pipe 63).wait0 = false ∧ (d 15).parked 63 = false ∧ 63 ∉ (d 15).stopped ∧ 63 ∉ (d 15).reinitRunning ∧ ({} : Dev).seqRun = false ∧
    (r.members.filter (fun m => !m.frameMember || 1 = 0)) = [aMember, su] ∧ (r.members.map (fun m => if m.master < 72 then m.master * 8 + m.task else 0x1000 + m.master)).Nodup ∧
    (Tab.get [] (d 15).launchQ (71 * 8 + 7)).length < 16 ∧ 16 ≤ (Tab.get [] (d 16).launchQ (71 * 8 + 7)).length ∧
    (a.armsWc && (Tab.get {} ({ d 1 with wcs := [(7 * 32 + 31, { queuedArm := some 1 })] } : Dev).wcs (a.wcCluster * 32 + a.wc)).queuedArm.isSome) = true ∧
    Tab.get [] (d 1).launchQ (71 * 8 + 7) = x :: [] ∧ ((d 1).task 71 7).pending = none ∧ (d 1).fabric = [] ∧ Tab.get [] (d 1).launchQ (0x1100 + 127) = x :: [] ∧ ((d 1).su 127).shadow ≠ none := by
  and_intros <;> decide +kernel

/-- A job that can start and one that cannot; the last but one and the last row of a first and of a last layer, decided or not. -/
theorem test_BoundaryEngineRows : let b (last : Bool) (next : Nat) : BeJob := ⟨63, last, 0, 1, 0, 0, BitVec.ofNat 32 (0x1001 + 65536), 0, next, 2, []⟩
    let d (l : List (Fld × Nat)) : Dev := { put l with plan := aPlan, bes := [(3, { row := some [1], job := some (b false 0) })] }
    let q : Dev := { put [(Reg.SLOT_FULL.at (cix 71 [126]), 1), (Reg.SLOT_GEN.at (cix 71 [126]), 1)] with plan := aPlan, bes := [(3, { queue := [b true 0] })] }
    let lay := [(Reg.LAY_KIND.at [15], 2), (Reg.OUT_RUNNING.at [1], 1), (Reg.OUT_VACTIVE.at [1], 720)]
    let f : Dev := { put [(Reg.STR_W.at [0], 1), (Reg.STR_H.at [0], 2)] with plan := aPlan, beCredits := [(3 * 16 + 15, 2), (3 * 16 + 14, 2)], bes := [(3, { queue := [{ b false 1 with deadline := 1 }, b false 0] })] }
    f.jobLayer (b false 0) = some (aBeLayer false) ∧ (f.be 3).job = none ∧ (f.be 3).stopped = false ∧ (f.be 3).retired = false ∧ (f.be 3).row = none ∧ (f.be 3).ded = false ∧ b false 0 ∈ (f.be 3).queue ∧
    f.canStart 3 (b false 0) = true ∧ (∀ q ∈ (f.be 3).queue, f.canStart 3 q = true → q = b false 0 ∨ (b false 0).before f.time q = true) ∧ (b false 0).next < (b false 0).stop ∧ f.ecc = [] ∧
    0 ≤ (beCols (aBeLayer false) (b false 0)).1 ∧ (beCols (aBeLayer false) (b false 0)).2 ≤ f.rd (Reg.STR_W.at [0]) ∧ (∀ y ∈ beInputRows (aBeLayer false) 0, y < f.rd (Reg.STR_H.at [0])) ∧
    linePitch ((d []).rd (Reg.LAY_W.at [15])) < [1].length ∧ [1].length ≤ linePitch ((d [(Reg.LAY_W.at [15], 1)]).rd (Reg.LAY_W.at [15])) ∧ (aBeLayer false).eta = 0 ∧
    (d []).jobLayer (b false 0) = some (aBeLayer false) ∧ (d []).jobLayer (b true 0) = some (aBeLayer true) ∧ q.canStart 3 (b true 0) = true ∧ (d []).canStart 3 (b true 0) = false ∧
    ((d []).be 3).row = some [1] ∧ ((d []).be 3).job = some (b false 0) ∧ (aBeLayer false).tcore < 72 ∧ (b false 0).next + 1 < (b false 0).stop ∧ (b false 1).next + 1 = (b false 1).stop ∧
    (b false 1).word.getLsbD 12 = true ∧ (b true 1).word.getLsbD 0 = true ∧ ({ d lay with outs := [(1, { decFrame := 2 })] } : Dev).lineDecided 15 1 0 = true ∧ (d lay).lineDecided 15 1 0 = false ∧
    (d lay).rd (Reg.LAY_KIND.at [15]) = 2 ∧ (d lay).outRuns ((d lay).rasterOf 15) = true ∧ (d lay).rd (Reg.LAY_Y.at [15]) + 0 < (d lay).vactive 1 := by
  and_intros <;> decide +kernel

/-- A guard path that starts, holds 7 lines and 8, decided and not; a memory-fed layer with room and without. -/
theorem test_LinesFetched : let l : Latch := { frame := 1, live := true }
    let g (n dec : Nat) : Dev := { put [(Reg.OUT_RUNNING.at [1], 1), (Reg.OUT_VACTIVE.at [1], 720), (Reg.LAY_KIND.at [15], 2), (Reg.LAY_H.at [15], 720)] with plan := aPlan, pipes := [(63, { latches := [l] })], layers := [(15, { guardFor := some l, guardNext := n, glines := List.replicate n ⟨0, [], false⟩ })], outs := [(1, { decFrame := 1, decided := dec })] }
    let m := put [(Reg.OUT_RUNNING.at [1], 1), (Reg.OUT_VACTIVE.at [1], 720), (Reg.LAY_KIND.at [15], 1), (Reg.LAY_H.at [15], 720), (Reg.OUT_LB_LINES.at [1, 7], 2)]
    (g 7 0).guardLatch 15 ((g 7 0).outFrame ((g 7 0).rasterOf 15) + 1) = some l ∧ ((g 7 0).layer 15).guardFor = some l ∧ (({} : Dev).layer 15).guardFor.map Latch.frame ≠ some 1 ∧
    (g 7 0).guardLevel 15 < 8 ∧ 8 ≤ (g 8 0).guardLevel 15 ∧ (g 7 0).outRuns ((g 7 0).rasterOf 15) = true ∧ (g 7 8).lineDecided 15 1 7 = true ∧ (g 7 7).lineDecided 15 1 7 = false ∧ m.fencesOut 1 = false ∧ m.ecc = [] ∧ m.asking (lbMaster 15) = false ∧ (m.layer 15).asked = false ∧
    (({ m with layers := [(15, { asked := true })] } : Dev).layer 15).asked = true ∧ ({ m with ddr := [(0, { reads := [⟨lbMaster 15, 0, 0, true, false⟩] })] } : Dev).asking (lbMaster 15) = true ∧
    (g 7 0).asking (guardMaster 15) = false ∧ ({ g 7 0 with ddr := [(0, { reads := [⟨guardMaster 15, 0, 0, true, false⟩] })] } : Dev).asking (guardMaster 15) = true ∧ (g 7 0).ecc = [] ∧ l.live = true ∧
    (m.layer 15).nextRow < min (m.rd (Reg.LAY_H.at [15])) (m.vactive 1 - m.rd (Reg.LAY_Y.at [15])) ∧ (m.layer 15).rows.length < m.rd (Reg.OUT_LB_LINES.at [1, 7]) ∧
    m.rd (Reg.OUT_LB_LINES.at [1, 7]) ≤ (({ m with layers := [(15, { rows := List.replicate 2 ⟨0, [], false⟩ })] } : Dev).layer 15).rows.length := by
  and_intros <;> decide +kernel

/-- The last line of a frame is decided, of a memory-fed layer with and without its row, and of an enhanced one with its line, its guard line, and neither. -/
theorem test_LinesDecided : let l : Latch := { frame := 1, live := true }
    let d (kind : Nat) (x : Layer) : Dev := { put [(Reg.OUT_RUNNING.at [1], 1), (Reg.OUT_VACTIVE.at [1], 720), (Reg.LAY_KIND.at [15], kind), (Reg.LAY_H.at [15], 720), (Reg.LAY_W.at [15], 64)] with plan := aPlan, pipes := [(63, { latches := [l] })], layers := [(15, x)], outs := [(1, { decFrame := 1, decided := 719 })] }
    let o : HeldLine := ⟨719, [1], false⟩
    (d 1 {}).outRuns 1 = true ∧ 15 ∈ (d 1 {}).rasterLayers 1 ∧ (d 1 {}).layerLine 15 719 = some 719 ∧ (({ rows := [o], rowsFor := 1 } : Layer).rows.find? (fun r => r.line = 719)) = some o ∧
    (d 2 {}).guardLatch 15 1 = some l ∧ (d 2 {}).guardForced 15 = false ∧ ¬ ((d 2 {}).cut.kind ≠ 0 ∧ (d 2 {}).cut.step ≠ 0) ∧ (d 2 {}).pipeOfLayer 15 = some aPipe ∧ ((d 2 {}).pipe 63).guarded = 0 ∧ (d 2 {}).parked 63 = false ∧ ((d 2 {}).setParked 63 true).parked 63 = true ∧ 1 ≤ (d 2 {}).outFrame 1 + 1 ∧
    (({ d 2 {} with pipes := [(63, { latches := [l], guarded := 1 })] } : Dev).pipe 63).guarded ≠ 0 ∧ ((d 2 {}).out 1).decFrame = 1 ∧ (d 2 {}).neuralDone 15 1 719 = false ∧
    (d 2 { slots := [((d 2 {}).lineSlot 15 719, slotTag 1 719)] }).neuralDone 15 1 719 = true ∧ (({ guardFor := some l, glines := [o] } : Layer).guardFor.map Latch.frame) = some 1 := by
  and_intros <;> decide +kernel

/-- A boundary after the last line, the pacing output's and another's; an idle one; blanking lines; a line that is decided and the first that is not; a write-back buffer whose granules wait and one whose do not. -/
theorem test_BoundariesAndLines : let d (o : Nat) (q : OutSt) : Dev := { put [(Reg.OUT_RUNNING.at [o], 1), (Reg.OUT_ENABLE.at [o], 1), (Reg.OUT_VACTIVE.at [o], 720), (Reg.OUT_LINE.at [o], 719)] with outs := [(o, q)] }
    let a (q : OutSt) : Dev := { put [(Reg.OUT_RUNNING.at [1], 1), (Reg.OUT_VACTIVE.at [1], 720), (Reg.OUT_LINE.at [1], 718)] with outs := [(1, q)] }
    let w (g : Nat) : Dev := { put [(Reg.CMP_WB_PITCH.at [0], 256), (Reg.OUT_VACTIVE.at [0], 2), (Reg.CMP_WB_STRIDE.at [0], 4096)] with outs := [(0, { wbWait := [⟨3, 5, 0x3000, 512, 256, true⟩] })], ddr := [(0, { waitWrites := [⟨wbMaster 0, g, 0, false, false⟩] })] }
    (quiet (d 0 {})) ∧ (d 0 {}).outRuns 0 = true ∧ (d 0 {}).rd (Reg.OUT_LINE.at [0]) + 1 = (d 0 {}).vactive 0 ∧ (d 0 {}).pipePacer = some 0 ∧ ({} : Dev).pipePacer = none ∧
    ({ (d 0 { inBlank := some 3, blank := 5 } : Dev) with time := 0 }.out 0).inBlank = some 3 ∧ (a { decFrame := 1, decided := 719 }).outFrame 1 + 1 = 1 ∧ (a {}).vactive 1 = 720 ∧
    ¬ ((a { decFrame := 1, decided := 720 }).rd (Reg.OUT_LINE.at [1]) + 1 < 719) ∧ (a {}).beacon.handOff = false ∧
    (w 48).wbQueued 0 = [48] ∧ 0x3000 ≤ 48 * 256 ∧ 48 * 256 < 0x3000 + 512 ∧ (w 50).wbQueued 0 = [50] ∧ 0x3000 + 512 ≤ 50 * 256 ∧ ((w 48).out 0).wbWait.filter (fun g => g.whole) = [⟨3, 5, 0x3000, 512, 256, true⟩] := by
  simp only [quiet]; and_intros <;> decide +kernel

/-! ### The hypotheses of the statements about outputs, Lantern, inputs and the host -/

/-- HPD present and absent, a SYNC device and a STANDBY; a link that reaches its committed setting, one that fails and is to be tried again. -/
theorem test_Links : let d (l : List (Fld × Nat)) (q : OutSt) : Dev := { put (l ++ [(Reg.OUT_IFACE.at [1], 0), (Reg.OUT_RATE.at [1], 3), (Reg.OUT_LANES.at [1], 4)]) with outs := [(1, q)] }
    let on := [(Reg.OUT_HPD.at [1], 1)]
    (d [] {}).rd (Reg.OUT_HPD.at [1]) = 0 ∧ (d on {}).rd (Reg.OUT_HPD.at [1]) ≠ 0 ∧ (d [] {}).rd (Reg.BCN_ROLE.at []) ≠ 3 ∧ (d [(Reg.BCN_ROLE.at [], 3)] {}).rd (Reg.BCN_ROLE.at []) = 3 ∧
    ((d on { training := true }).out 1).training = true ∧ (d on {}).committedLink 1 3 4 = true ∧ (d on {}).selMine 1 = true ∧ (d (on ++ [(Reg.BCN_ROLE.at [], 3)]) {}).selMine 1 = true ∧
    ({ d (on ++ [(Reg.BCN_ROLE.at [], 3)]) {} with selB := [1] } : Dev).selMine 1 = false ∧ ((d on { retry := true }).out 1).retry = true ∧ (d on {}).committedLink 1 2 4 = false ∧
    (let f := d ((Reg.OUT_FALLBACK_EN.at [1], 1) :: (Reg.OUT_PCLK_KHZ.at [1], 74250) :: (Reg.OUT_HACTIVE.at [1], 1280) :: (Reg.OUT_HTOTAL.at [1], 1650) :: on) { training := true }
     f.rd (Reg.OUT_FALLBACK_EN.at [1]) ≠ 0 ∧ f.fallbackLink 1 2 4 = true ∧ f.linkFits 1 2 4 = true ∧ f.fallbackLink 1 3 4 = false ∧ f.fallbackLink 1 2 3 = false ∧ f.events.store.length < 1000) ∧
    (d [(Reg.BCN_ROLE.at [], 4)] {}).partner 0 = false ∧ ({ put [(Reg.BCN_ROLE.at [], 4), (Reg.BCN_PAIR_EN.at [], 1)] with beacon := { present := [0] } } : Dev).partner 0 = true := by
  and_intros <;> decide +kernel

/-- An output on an external reference in ACQUIRE, SLEW, LOCKED and HOLDOVER; an error just below a pixel and one at UNLOCK_PX. -/
theorem test_Genlock : let d (st : Nat) : Dev := put [(Reg.OUT_ENABLE.at [0], 1), (Reg.OUT_MODE.at [0], 2), (Reg.OUT_REF_SRC.at [0], 4), (Reg.OUT_GL_STATE.at [0], st), (Reg.OUT_VTOTAL.at [0], 750), (Reg.OUT_HTOTAL.at [0], 1650),
      (Reg.OUT_UNLOCK_PX.at [0], 2), (Reg.OUT_PCLK_KHZ.at [0], 74250)]
    let t : Int := 16 * 750 * 1650
    (d 3).referenced 0 = true ∧ (d 3).holdsOwn 0 = false ∧ (d 3).tokenPort 0 = none ∧ ((d 3).out 0).waitLock = false ∧ 0 < t ∧ (d 3).rd (Reg.OUT_GL_STATE.at [0]) = 3 ∧ ((d 3).out 0).slew = 0 ∧
    (15 : Int).natAbs < 16 * (d 4).rd (Reg.OUT_UNLOCK_PX.at [0]) ∧ 16 * (d 4).rd (Reg.OUT_UNLOCK_PX.at [0]) ≤ (32 : Int).natAbs ∧ (16 : Int).natAbs < 16 * (d 4).rd (Reg.OUT_UNLOCK_PX.at [0]) ∧
    (d 1).periodFits 0 (2 * 16666667) = false ∧ (d 5).rd (Reg.OUT_GL_STATE.at [0]) = 5 ∧ ({} : Dev).referenced 0 = false := by
  and_intros <;> decide +kernel

/-- AUXP running in COMMAND mode with its fields in force, with bands that wait for TE, and with two periods without one. -/
theorem test_AuxiliaryOutput : let c := put [(Reg.AUXP_RUNNING.at [], 1), (Reg.AUXP_MODE.at [], 1), (Reg.AUXP_ENABLE.at [], 1), (Reg.AUXP_VACTIVE.at [], 65), (Reg.AUXP_TE_SRC.at [], 1), (Reg.AUXP_FULL_EVERY.at [], 0)]
    let d : Dev := { c with auxp := { live := c.live.filter (fun e => auxpKey e.1), bands := [1], waiting := true, noTe := 2 } }
    d.rd (Reg.AUXP_RUNNING.at []) ≠ 0 ∧ d.ax (Reg.AUXP_MODE.at []) = 1 ∧ d.auxp.live = d.live.filter (fun e => auxpKey e.1) ∧ d.ax (Reg.AUXP_ENABLE.at []) = 1 ∧ d.ax (Reg.AUXP_FULL_EVERY.at []) = 0 ∧ d.ecc = [] ∧
    d.ax (Reg.AUXP_TE_SRC.at []) < 2 ∧ d.auxp.waiting = true ∧ 2 ≤ d.auxp.noTe := by
  and_intros <;> decide +kernel

/-- The window closed, open and locked on a device that runs; a verification with a nonce and one without; the third failure and the fourth. -/
theorem test_LanternWindow : let d (st fails : Nat) (l : Lantern) : Dev := { put [(Reg.SEC_BOOT_STATE.at [], 3), (Reg.LAN_STATE.at [], st), (Reg.LAN_FAILS.at [], fails)] with lantern := l }
    (d 0 0 {}).hostOpen = true ∧ (d 0 0 {}).rd (Reg.LAN_STATE.at []) = 0 ∧ (d 1 0 {}).rd (Reg.LAN_STATE.at []) = 1 ∧ (d 1 0 {}).lantern.copy = none ∧ (d 2 0 {}).rd (Reg.LAN_STATE.at []) = 2 ∧
    (d 0 2 { auth := some [] }).lantern.auth = some [] ∧ (d 0 2 { auth := some [] }).authGood [] = false ∧ (d 0 2 {}).rd (Reg.LAN_FAILS.at []) < 3 ∧ 3 ≤ (d 0 3 {}).rd (Reg.LAN_FAILS.at []) ∧
    (d 0 3 {}).rd (Reg.LAN_FAILS.at []) < 15 := by
  and_intros <;> decide +kernel

/-- The key of an unowned device, or of its owner, and a nonce whose MAC is the one sent: good. -/
theorem test_authGood : let k : Bytes := List.replicate 48 1
    let n : Bytes := List.replicate 16 2
    let d : Dev := { boot := { lkey := some k }, lantern := { nonce := some n } }
    let owned : Dev := { flash := { ({} : Dev).flash with owners := [(0, some ⟨[], [], 0, false, false, some k⟩)] }, lantern := { nonce := some n } }
    d.authGood (Config.hmacSha384 k (n ++ leBytes 4 0)) = true ∧ owned.authGood (Config.hmacSha384 k (n ++ leBytes 4 0)) = true := by
  intro k n d owned
  have hk : d.lanternKey = some k ∧ owned.lanternKey = some k := by decide
  have hc : d.rd (Reg.LAN_OPEN_COUNT.at []) = 0 ∧ owned.rd (Reg.LAN_OPEN_COUNT.at []) = 0 := by decide
  have hn : d.lantern.nonce = some n ∧ owned.lantern.nonce = some n := ⟨rfl, rfl⟩
  simp [Dev.authGood, hk, hc, hn]

/-- A held write of a line that is not, and of one that is, being scanned out; a copy to the end of the store; an open window; a full queue; planes that fit and one that does not. -/
theorem test_LanternStore : let plane := [(Reg.LAN_EN.at [1], 1), (Reg.LAN_W.at [1], 64), (Reg.LAN_H.at [1], 4), (Reg.LAN_PITCH.at [1], 256), (Reg.OUT_RUNNING.at [1], 1), (Reg.CMP_STARTED.at [1], 1), (Reg.SEC_BOOT_STATE.at [], 3),
      (Reg.LAN_STATE.at [], 1)]
    let c := put plane
    let live := [((Reg.LAN_EN.at [1]).key, 1), ((Reg.LAN_W.at [1]).key, 64), ((Reg.LAN_H.at [1]).key, 4), ((Reg.LAN_PITCH.at [1]).key, 256)]
    let d (q : List LanWrite) (r : Bool) : Dev := { c with lantern := { live := live, queue := q, copy := some (0x1000, 0xFFFF00, 256), copyRead := r } }
    let w : LanWrite := { off := 0, data := [1, 2, 3, 4] }
    let far : LanWrite := { off := 4096, data := [1, 2, 3, 4] }
    c.lanHeld 0 4 = false ∧ (d [] false).lanHeld 0 4 = true ∧ (d [] false).lanHeld 4096 4 = false ∧ (d [w] false).lantern.queue = [w] ∧ (d [w] false).lanHeld w.off w.data.length = true ∧
    (d [{ w with copied := true }] true).lantern.copyRead = true ∧ (d [far] true).lanHeld far.off far.data.length = false ∧ far.bad = [] ∧ (d [far] true).lantern.copyRead = true ∧
    0xFFFF00 + 256 ≤ 0x1000000 ∧ (d [] false).lanHeld (0xFFFF00 + 0 * 256) 256 = false ∧ (d [] false).lanHeld (0 + 0 * 256) 256 = true ∧ c.hostOpen = true ∧ c.rd (Reg.LAN_STATE.at []) = 1 ∧ c.lantern.copy = none ∧
    (∀ x ∈ (d [{ w with copied := true }] true).lantern.queue, (d [{ w with copied := true }] true).lanHeld x.off x.data.length = true) ∧
    4 * ((d [w] false).lantern.queue.filter (fun x => !x.copied)).length + 4 ≤ 4096 ∧ 4096 < 4 * ((d (List.replicate 1024 w) false).lantern.queue.filter (fun x => !x.copied)).length + 4 ∧
    c.badPlane 0 = false ∧ c.badPlane 1 = false ∧ (put (plane ++ [(Reg.LAN_W.at [1], 3841)])).badPlane 1 = true ∧ (put plane).split = false := by
  and_intros <;> decide +kernel

/-- Stream 15 on port 3: a source that fits with a free buffer, without one, and with a buffer taken; one that does not fit; no stream on the port; a host copy in progress, aborted, and none. -/
theorem test_FramesComplete : let d (src h st nb cap : Nat) : Dev := { put [(Reg.STR_SRC.at [15], src), (Reg.STR_PORT.at [15], 3), (Reg.STR_W.at [15], 64), (Reg.STR_H.at [15], 2), (Reg.STR_FMT.at [15], 2), (Reg.STR_PITCH0.at [15], 256),
      (Reg.STR_NBUF.at [15], nb), (Reg.IN_HACTIVE.at [3], 64), (Reg.IN_VACTIVE.at [3], h), (Reg.IN_STATE.at [3], st), (Reg.STR_WRITING.at [15], 0)] with streams := [(15, { capBuf := cap })] }
    let named (e : Dev) (k : Nat) : Prop := e.rd (Reg.STR_SRC.at [k]) = 2 ∧ e.rd (Reg.STR_PORT.at [k]) = 3
    let copy (desc : Option Bytes) (aborted : Bool) : Dev := { put [(Reg.STR_SRC.at [15], 1), (Reg.STR_WRITING.at [15], 14)] with streams := [(15, { desc := desc, copyBuf := 14, aborted := aborted })] }
    named (d 2 2 3 2 15) 15 ∧ (∀ k < 15, ¬ named (d 2 2 3 2 15) k) ∧ (d 2 2 3 2 15).rd (Reg.IN_STATE.at [3]) = 3 ∧ (d 2 2 3 2 15).rd (Reg.IN_VACTIVE.at [3]) = (d 2 2 3 2 15).rd (Reg.STR_H.at [15]) ∧
    ((d 2 2 3 2 15).stream 15).capBuf = 15 ∧ (d 2 2 3 2 15).freeBuf 15 = some 1 ∧ (d 2 2 3 1 15).freeBuf 15 = none ∧ ((d 2 2 3 2 0).stream 15).capBuf = 0 ∧ (d 2 2 3 2 0).rd (Reg.STR_WRITING.at [15]) = 0 ∧
    (d 2 3 3 2 15).rd (Reg.IN_VACTIVE.at [3]) ≠ 2 ∧ (d 2 2 5 2 15).rd (Reg.IN_STATE.at [3]) = 5 ∧ (d 2 2 4 2 15).rd (Reg.IN_STATE.at [3]) = 4 ∧ (d 2 2 2 2 15).rd (Reg.IN_STATE.at [3]) < 3 ∧
    (∀ k < 16, ¬ named (d 1 2 3 2 15) k) ∧ (d 2 2 3 2 15).rd (Reg.BCN_MIR_TX.at [15]) = 0 ∧ 4 * 64 ≤ (d 2 2 3 2 15).rd (Reg.STR_PITCH0.at [15]) ∧ (d 2 2 3 2 15).plan.pipes = [] ∧
    ((copy (some []) false).stream 15).desc = some [] ∧ (copy (some []) false).rd (Reg.STR_WRITING.at [15]) = ((copy (some []) false).stream 15).copyBuf ∧ ((copy none false).stream 15).desc = none ∧
    ((copy (some []) true).stream 15).aborted = true := by
  and_intros <;> decide +kernel

/-- An enabled port, one that is not and one whose HPD is held low; a source it takes and one beyond 120 Hz; a mirrored stream with a frame held, a buffer taken, a free buffer and none; a frame at its hold time and past it. -/
theorem test_PortsAndMirrors : let d (nb cap : Nat) : Dev := { put [(Reg.STR_SRC.at [15], 3), (Reg.BCN_MIR_RX.at [15], 1), (Reg.STR_NBUF.at [15], nb), (Reg.STR_WRITING.at [15], 0), (Reg.IN_EN.at [3], 1), (Reg.SEC_BOOT_STATE.at [], 3),
      (Reg.IN_DP_EN.at [3], 1), (Reg.IN_MAX_DP.at [3], 3), (Reg.BCN_MIR_HOLD_US.at [15], 2)] with streams := [(15, { held := [(1, 5)], capBuf := cap })], time := 2005, host := { ({} : Dev).host with hpdLow := [2] } }
    let sig (mhz : Nat) : InSignal := ⟨3, 3, 0, 0, false, 0, 0, 3840, 2160, mhz, 3, 4⟩
    (d 2 15).rd (Reg.IN_EN.at [3]) ≠ 0 ∧ ({} : Dev).rd (Reg.IN_EN.at [3]) = 0 ∧ (d 2 15).rd (Reg.HST_IRQ_VECTOR.at [21]) < 64 ∧ (d 2 15).hostOpen = true ∧ (d 2 15).rd (Reg.STR_SRC.at [15]) = 3 ∧
    (d 2 15).rd (Reg.BCN_MIR_RX.at [15]) ≠ 0 ∧ 2 ∈ (d 2 15).host.hpdLow ∧ 3 ∉ (d 2 15).host.hpdLow ∧ (d 2 15).accepts 3 (sig 120000) = true ∧ (d 2 15).accepts 3 (sig 120001) = false ∧ (d 2 15).rd (Reg.STR_SRC.at [14]) ≠ 3 ∧
    ((d 2 15).stream 15).fallback = false ∧ ((d 2 15).stream 15).capBuf = 15 ∧ ((d 2 1).stream 15).capBuf = 1 ∧ (d 2 15).freeBuf 15 = some 1 ∧ (d 1 15).freeBuf 15 = none ∧ (d 2 15).plan.pipes = [] ∧
    (d 2 15).time ≤ 5 + 1000 * (d 2 15).rd (Reg.BCN_MIR_HOLD_US.at [15]) ∧ 4 + 1000 * (d 2 15).rd (Reg.BCN_MIR_HOLD_US.at [15]) < (d 2 15).time ∧ ((d 2 15).stream 15).held = (1, 5) :: [] := by
  and_intros <;> decide +kernel

/-- A ring with a descriptor to fetch: one that is sound, with a free buffer and without, and one whose pitch is not; a copy in progress, aborted or not, of the entry at DIDX and of an older one. -/
theorem test_Descriptors : let good : Bytes := List.replicate 0x21 0 ++ [1] ++ List.replicate 30 0
    let bad : Bytes := List.replicate 64 0
    let d (nb : Nat) : Dev := put [(Reg.STR_SRC.at [15], 1), (Reg.STR_FMT.at [15], 2), (Reg.STR_W.at [15], 64), (Reg.STR_NBUF.at [15], nb), (Reg.STR_WRITING.at [15], 0), (ringEn 17, 1), (Reg.DSC_HIDX.at [15], 1),
      (Reg.DSC_LOG2.at [15], 4)]
    let copy (idx cap : Nat) (aborted : Bool) : Dev := { put [(Reg.STR_SRC.at [15], 1), (Reg.STR_WRITING.at [15], cap)] with streams := [(15, { desc := some good, copyBuf := 1, aborted := aborted, descAt := 0x40, descIdx := idx })] }
    ((copy 0 1 false).stream 15).desc = some good ∧ ((copy 0 1 false).stream 15).descIdx = (copy 0 1 false).rd (Reg.DSC_DIDX.at [15]) ∧ ((copy 1 1 false).stream 15).descIdx ≠ (copy 1 1 false).rd (Reg.DSC_DIDX.at [15]) ∧
    (copy 0 1 false).rd (Reg.STR_WRITING.at [15]) = ((copy 0 1 false).stream 15).copyBuf ∧ (copy 0 15 false).rd (Reg.STR_WRITING.at [15]) ≠ ((copy 0 15 false).stream 15).copyBuf ∧ ((copy 0 1 true).stream 15).aborted = true ∧
    (d 2).fetches 14 = false ∧ good.length = 64 ∧ (leNat (good.take 4)).testBit 0 = false ∧ (d 2).rd (Reg.DSC_WB_EN.at [15]) = 0 ∧ (d 2).fetches 15 = true ∧ ((d 2).stream 15).desc = none ∧ (d 2).rd (Reg.DSC_HIDX.at [15]) ≠ (d 2).rd (Reg.DSC_DIDX.at [15]) ∧
    (d 2).badDesc 15 good = false ∧ (d 2).badDesc 15 bad = true ∧ (d 2).freeBuf 15 = some 1 ∧ (d 1).freeBuf 15 = none ∧ (d 2).rd (Reg.STR_WRITING.at [15]) ≠ 15 := by
  and_intros <;> decide +kernel

/-- The host ready and not; rings with signals unsent, their vector masked, its function masked, MSI-X off, or none of these; a store with a record and a ring with room; the largest HIDX a ring takes and one beyond; LOG2 at its bounds. -/
theorem test_Rings : let d (q mask : Nat) (cfg : HostCfg) : Dev := { put [(ringEn q, 1), (ringLog2 q, 8), (Reg.EVT_COAL_US.at [], 5), (Reg.HST_IRQ_EN.at [0], 1), (Reg.HST_MSIX_MASK.at [0], mask), (Reg.HST_UP.at [], 1)] with
        host := { ({} : Dev).host with unsent := [(0, 1)], cfg := cfg } }
    let on : HostCfg := { msixEn := true, bme := true }
    let r : EventRec := ⟨0x0230, false, false, false, 0, 0, 0, 8, 0, 0, 0, 0, 0⟩
    let e : Dev := { put [(Reg.EVT_EN.at [], 1), (Reg.EVT_LOG2.at [], 8)] with events := { ({} : Dev).events with store := [r] } }
    (d 0 0 on).hostReady = true ∧ ({} : Dev).hostReady = false ∧ (∀ u < 128, ((d 0 0 on).su u).work = []) ∧ Tab.get 0 (d 0 0 on).limits (0x0234 * 65536) = 0 ∧
    Tab.get 0 (d 0 0 on).host.unsent 0 ≠ 0 ∧ (d 0 0 on).rd (ringFld Reg.EVT_COAL_US Reg.RES_COAL_US Reg.DSC_COAL_US 0) ≠ 0 ∧ (d 0 0 on).rd (Reg.HST_IRQ_VECTOR.at [0]) < 64 ∧ (d 0 0 on).rd (Reg.HST_IRQ_EN.at [0]) ≠ 0 ∧
    (d 0 0 on).host.cfg.msixEn = true ∧ (d 0 0 {}).host.cfg.msixEn = false ∧ (d 0 0 { on with funcMask := true }).host.cfg.funcMask = true ∧ (d 0 0 on).host.cfg.funcMask = false ∧
    (d 0 0 on).rd (Reg.HST_MSIX_MASK.at [0]) = 0 ∧ (d 0 1 on).rd (Reg.HST_MSIX_MASK.at [0]) ≠ 0 ∧ (d 1 0 on).rd (ringEn 1) ≠ 0 ∧ ¬ 2 ^ (d 17 0 on).rd (ringLog2 17) < gap32 256 ((d 17 0 on).rd (ringDidx 17)) ∧
    2 ^ (d 17 0 on).rd (ringLog2 17) < gap32 257 ((d 17 0 on).rd (ringDidx 17)) ∧ e.events.store = r :: [] ∧ e.rd (Reg.EVT_EN.at []) ≠ 0 ∧
    gap32 (e.rd (Reg.EVT_DIDX.at [])) (e.rd (Reg.EVT_HIDX.at [])) < 2 ^ e.rd (Reg.EVT_LOG2.at []) ∧ e.rd (Reg.EVT_WB_EN.at []) = 0 ∧ e.rd (Reg.HST_IRQ_EN.at [0]) = 0 ∧ e.rd (Reg.EVT_COAL_CNT.at []) ≤ 1 ∧
    ({} : Dev).rd (ringEn 17) = 0 ∧ (0x2C / 32 % 2 = 1 ∧ 4 ≤ 0x2C % 32 ∧ 0x2C % 32 ≤ 12) := by
  and_intros <;> decide +kernel

/-- The end of an analysis run whose two records have one that is meant: room in the ring, and a ring that is off. -/
theorem test_Rings_emit : let a : AnalysisRec := ⟨0, 63, 127, 2, 1, 0x1000⟩
    let p : PipeRec := { aPipe with analysis := true }
    let d (en : Nat) : Dev := { put [(Reg.RES_EN.at [], en), (Reg.RES_LOG2.at [], 8)] with mem := [(0x1000 + 60, 1)], sus := [(127, { ended := true })], analysis := [a], plan := { ({} : Dev).plan with pipes := [p] }, streams := [(15, { runs := [(63, 0)] })] }
    ((d 1).su 127).ended = true ∧ (d 1).ecc = [] ∧ (d 1).analysis = [a] ∧ a.writer / 16 % 8 * 16 + a.writer % 16 = 127 ∧ (d 1).plan.pipes = [p] ∧ ((d 1).stream p.stream).runs.any (fun x => x.1 = p.pipe) = true ∧
    (d 1).parked p.pipe = false ∧ leNat ((d 1).bytes (0x1000 + 64 * 0 + 60) 4) ≠ 0 ∧ leNat ((d 1).bytes (0x1000 + 64 * 1 + 60) 4) = 0 ∧
    1 ≤ 2 ^ (d 1).rd (Reg.RES_LOG2.at []) - gap32 ((d 1).rd (Reg.RES_DIDX.at [])) ((d 1).rd (Reg.RES_HIDX.at [])) ∧ (d 0).rd (Reg.RES_EN.at []) = 0 := by
  and_intros <;> decide +kernel

/-- BAR2 open, over LPDDR6, over the image in force, over a scratchpad whose banks are on, off or waking, the Lantern store and nothing; a vector due at HOST_LINK_UP, and one that is masked. -/
theorem test_HostAccess : let d (base : Nat) : Dev := put [(Reg.SEC_BOOT_STATE.at [], 3), (Reg.HST_BAR2_BASE.at [], base), (Reg.DDR_CAP_GIB.at [], 24), (Reg.TOP_ACT_ADDR_LO.at [], 0x1000),
      (Reg.TOP_ACT_LEN_LO.at [], 0x1000)]
    let waking : Dev := { d 0x400 with cores := [(0, { waking := [0] })] }
    waking.anyWaking 0 0 4 = true ∧ (d 0x400).anyWaking 0 0 4 = false ∧ (d 0).hostOpen = true ∧ (d 0).rd (Reg.TOP_FROZEN_BAR2.at []) = 0 ∧ 0xFFFFFFC + 4 ≤ 2 ^ (d 0).host.bar2Log2 ∧ (d 0).region 0xFFFFFFC = .ddr ∧ ¬ (0x1000 ≤ 0xFFF ∧ 0xFFF < 0x2000) ∧ (0x1000 ≤ 0x1FFF ∧ 0x1FFF < 0x2000) ∧
    (d 0x400).region (0x400 * 2 ^ 28) = .sp 0 0 ∧ (d 0x400).anyShut 0 0 4 = false ∧ (d 0).ecc = [] ∧ (d 0x420).region (0x420 * 2 ^ 28) = .lantern 0 ∧ (d 0x700).region (0x700 * 2 ^ 28) = .unmapped ∧ (d 0x800).region (0x800 * 2 ^ 28) = .host 0 ∧
    ({} : Dev).hostOpen = false ∧ (put [(Reg.HST_MSIX_PBA.at [0, 3], 1), (Reg.HST_MSIX_MASK.at [3], 0)]).rd (Reg.HST_MSIX_PBA.at [3 / 32, 3 % 32]) ≠ 0 ∧
    (put [(Reg.HST_MSIX_PBA.at [0, 3], 1), (Reg.HST_MSIX_MASK.at [3], 0)]).rd (Reg.HST_MSIX_MASK.at [3]) = 0 ∧ (Instr.hostLinkUp 5 8 36 { msixEn := true }).wf = true ∧ (Instr.hostLinkUp 6 8 36 {}).wf = false ∧
    ({} : Dev).rd (Reg.HST_UP.at []) = 0 ∧ (put [(Reg.HST_UP.at [], 1)]).rd (Reg.HST_UP.at []) ≠ 0 := by
  and_intros <;> decide +kernel

/-- Words of one field: a plain one, one that is read only, one cleared by a 1, and a shadowed one. -/
theorem test_HostAccess_words :
    let P (g : RegDef) (idx : List Nat) : Prop := fieldsAt (g.addr idx) = [(g, idx)] ∧ (put [(Reg.SEC_BOOT_STATE.at [], 3)]).hostReaches (g.addr idx) = true ∧ imageOwned (g.addr idx) = false
    P Reg.TOP_IMG_ADDR_LO [] ∧ Reg.TOP_IMG_ADDR_LO.acc = .rw ∧ ringOf Reg.TOP_IMG_ADDR_LO [] = none ∧ (put [(Reg.SEC_BOOT_STATE.at [], 3)]).notHere Reg.TOP_IMG_ADDR_LO [] = false ∧
    P Reg.TOP_ID [] ∧ Reg.TOP_ID.acc = .ro := by
  and_intros <;> decide +kernel

/-- TOP_ID reads its constant (R5). -/
theorem test_top_id : ({} : Dev).readWord 0 = 0x0DF87201 := by decide +kernel

/-! ### The hypotheses of the statements about commits, images, Keeper, resets, twins, power and wear -/

/-- A commit of PIPE that is accepted; one of output 0 with an HACTIVE just out of range; a change of GUARD_LINES without PIPE; a change of SPLIT without output 1; a DISCARD of one domain. -/
theorem test_Commits : let sh (f : Fld) (v : Nat) : Dev := { shadow := [(f.key, v)] }
    Instr.wf (.armPipe 4) = true ∧ (({} : Dev).checkCommit [2] true).code = 0 ∧ Instr.wf (.armOut0 1) = true ∧ ((sh (Reg.OUT_HACTIVE.at [0]) 639).loadDomain 0).rd (Reg.OUT_HACTIVE.at [0]) < 640 ∧
    7680 < ((sh (Reg.OUT_HACTIVE.at [0]) 7681).loadDomain 0).rd (Reg.OUT_HACTIVE.at [0]) ∧
    ((sh (Reg.OUT_GUARD_LINES.at [0]) 3).loadDomain 0).rd (Reg.OUT_GUARD_LINES.at [0]) ≠ ({} : Dev).rd (Reg.OUT_GUARD_LINES.at [0]) ∧
    (((sh (Reg.OUT_SPLIT.at [0]) 1).loadDomain 0).loadDomain 2).split ≠ ({} : Dev).split ∧ Instr.wf (.armOut0 5) = true ∧ (0x20 % 8 = 0 ∧ 0x20 / 16 % 8 = 2 ^ 1) ∧ Instr.wf (.discard 0x20) = true ∧
    (let w : Dev := { put [(Reg.OUT_SPLIT.at [0], 1)] with shadow := [((Reg.OUT_VTOTAL.at [0]).key, 900), ((Reg.OUT_SPLIT.at [0]).key, 1)] }
     ((w.loadDomain 0).loadDomain 2).split = true ∧ w.split = true ∧ ((w.loadDomain 0).loadDomain 2).rd (Reg.OUT_VTOTAL.at [0]) ≠ w.rd (Reg.OUT_VTOTAL.at [0])) := by
  and_intros <;> decide +kernel

/-- An image command under way, waiting, in its cut-over, and none; the first steps of a cut-over; a spare job; a frozen core that may be released, and one that may not. -/
theorem test_Images : let p := ({} : Dev).plan
    let d (st : Nat) (k step : Nat) : Dev := { put [(Reg.TOP_IMG_STATE.at [], st)] with cut := { kind := k, step := step, rep := { plans := [p] } }, spareJobs := [(7, 70)] }
    let r : EventRec := ⟨0x0101, true, false, false, 3, 0, 0, 0, 71, 0, 0, 0, 0⟩
    let f : Dev := { put [(Reg.MC_STATE.at (cix 71), 3), (Reg.EVT_HIDX.at [], 1), (Reg.EVT_DIDX.at [], 1)] with events := { froze := [(r, some 0)] } }
    (d 1 0 0).rd (Reg.TOP_IMG_STATE.at []) = 1 ∧ (d 2 0 0).rd (Reg.TOP_IMG_STATE.at []) = 2 ∧ (d 0 0 0).rd (Reg.TOP_IMG_STATE.at []) ≠ 3 ∧ ((d 2 0 0).rd (Reg.TOP_ARMED.at [])).testBit 2 = false ∧
    (d 3 1 1).cut.kind ≠ 0 ∧ (d 3 1 2).cut.step = 2 ∧ (d 3 1 2).fabric = [] ∧ (d 3 1 2).cut.plan < (d 3 1 2).cut.rep.plans.length ∧ (d 0 0 0).spareJobs.find? (fun j => j.1 = 7) = some (7, 70) ∧ (d 0 0 0).stopped = [] ∧
    f.unfreezeResult 0 71 = 0 ∧ f.unfreezeResult 0 70 = 1 ∧ ({ f with events := {} } : Dev).unfreezeResult 0 71 = 2 ∧ (d 0 0 0).mcState 71 ≠ 3 ∧
    ((d 1 0 0).imgFault 1 0 {}).isSome = true ∧ (d 1 0 0).inst.addr = 0 ∧ leNat ((d 1 0 0).bytes 0 4) ≠ 0x1A4B4449 ∧ (d 1 0 0).imgContent 0 {} = {} ∧
    (match (d 1 0 0).choosePlan [] [] false with
     | .error c => c
     | .ok _ => 0) = 9 ∧ (let m : Msg := ⟨.core 0, .core 1, .write ⟨0, 0, none, 1, 0, 0, 0, [], 0, 0, []⟩⟩
      ({ d 3 1 2 with fabric := [m] } : Dev).fabric.any (fun m => match m.body with
       | .write _ => true
       | _ => false) = true) := by
  and_intros <;> decide +kernel

/-- With no plan in the image none fits; with one that asks for nothing it is chosen, and refused where its slack is not met and ACCEPT_DEGRADED is not given. -/
theorem test_choosePlan : let p := ({} : Dev).plan
    (match ({} : Dev).choosePlan [] [] false with
     | .error c => c
     | .ok _ => 0) = 9 ∧
    (match ({} : Dev).choosePlan [] [p] false with
     | .error c => c
     | .ok x => 100 + x.1) = 100 ∧
    (match ({} : Dev).choosePlan [] [{ p with stages := [{ pipe := 63, split := 0, cores := [71], aow := false, tauNs := 1000000000 }], pipes := [aPipe] }] false with
     | .error c => c
     | .ok _ => 0) = 10 := by
  and_intros <;> decide +kernel

/-- Requests of the right length on a mailbox that is free and one that is busy; ranges at their bounds; an owner's orderly request; an answer of the longest length; records of the owner region, one of its two slots good and the other bad; a key with an owner and without. -/
theorem test_Mailbox : let d (st a0 a1 : Nat) : Dev := put [(Reg.KPR_STATE.at [], st), (Reg.KPR_ARG0.at [], a0), (Reg.KPR_ARG1.at [], a1)]
    (d 1 0 0).rd (Reg.KPR_STATE.at []) = 1 ∧ ¬ (d 0 0 0).rd (Reg.KPR_STATE.at []) = 1 ∧ (List.replicate 96 (0 : Byte)).length = 96 ∧ (List.replicate 32 (0 : Byte)).length = 32 ∧
    (1 ≤ (d 0 65280 256).rd (Reg.KPR_ARG1.at []) ∧ (d 0 65280 256).rd (Reg.KPR_ARG1.at []) ≤ 256 ∧ (d 0 65280 256).rd (Reg.KPR_ARG0.at []) + 256 ≤ 65536) ∧ ¬ (65281 + 256 ≤ 65536) ∧
    (d 0 0 1).rd (Reg.KPR_ARG2.at []) ≤ 1 ∧ ({} : Dev).rd (Reg.SEC_LKEY_SET.at []) = 0 ∧ ({} : Dev).rd (Reg.HST_IRQ_VECTOR.at [22]) < 64 ∧ leNat [0x52, 0x4E, 0x57, 0x4F] = 0x4F574E52 ∧
    (let k : Bytes := [1]
     let o : OwnerRec := ⟨[], [], 7, true, true, some k⟩
     let mail : Mail := { owner := some o, event := some 0x0810, closeWin := true, resp := List.replicate 2048 0 }
     let m : Dev := { put [(Reg.KPR_STATE.at [], 1)] with mail := mail, flash := { ({} : Dev).flash with owners := [(0, none), (1, some o)] }, boot := { ({} : Dev).boot with bad := [67] } }
     m.rd (Reg.KPR_STATE.at []) = 1 ∧ m.mail.resp.length ≤ 2048 ∧ m.mail.owner = some o ∧ 66 + 0 ∉ m.boot.bad ∧ 66 + 1 ∈ m.boot.bad ∧ m.flash.owner = some o ∧ m.lanternKey = some k ∧ m.mail.closeWin = true ∧
     m.rd (Reg.LAN_STATE.at []) ≠ 1 ∧ ({} : Dev).lanternKey = none ∧ ({} : Dev).flash.owner = none ∧ ({ mail := { lkey := some k } } : Dev).mail.owner = none) := by
  and_intros <;> decide +kernel

/-- The length of an owner's request (R425). -/
theorem test_ownerLength : (List.replicate (0x340 + 16224) (0 : Byte)).length = 0x340 + 16224 ∧ ownerSetLen = 0x340 + 16224 := by
  rw [List.length_replicate]; exact ⟨rfl, rfl⟩

/-- The count of the repair table and what is left (R163). -/
theorem test_repairCount : ∃ t, exec (.repairCount 7) ⟨[], { repair := [⟨0, true, 5, 0⟩] }⟩ = .next t ∧ t.dev.mail.resp = [1, 0, 0, 0, 0xFF, 0xFF, 0, 0] := ⟨_, rfl, by decide +kernel⟩

/-- Firmware states; an OWNER whose twin is READY; a device on trial; recovery at the last block of the slot and past it, with a write in progress and without. -/
theorem test_Firmware : let h : Heartbeat := ⟨true, 0, 5, 3, true, 0, 0, false, false, 0, 0, false, false⟩
    let d (l : List (Fld × Nat)) : Dev := { put l with beacon := { heard := [(0, some h)], present := [0] }, boot := { ({} : Dev).boot with staged := some [] } }
    (d [(Reg.SEC_FW_STATE.at [], 1)]).rd (Reg.SEC_FW_STATE.at []) = 1 ∧ (d []).rd (Reg.SEC_FW_STATE.at []) ≠ 1 ∧ (d [(Reg.BCN_ROLE.at [], 4)]).rd (Reg.BCN_ROLE.at []) = 4 ∧ 0 ∈ (d []).beacon.present ∧
    Tab.get none (d []).beacon.heard 0 = some h ∧ h.ready = true ∧ (d [(Reg.TOP_IMG_STATE.at [], 3)]).rd (Reg.TOP_IMG_STATE.at []) = 3 ∧ (d []).boot.staged ≠ none ∧ ({} : Dev).boot.staged = none ∧
    ({ d [] with boot := { ({} : Dev).boot with prog := some (0, [1]) } } : Dev).boot.prog = some (0, [1]) ∧ (d []).boot.prog = none ∧
    (d [(Reg.SEC_TRYING.at [], 1)]).rd (Reg.SEC_TRYING.at []) ≠ 0 ∧ (d [(Reg.SEC_BOOT_STATE.at [], 3)]).hostOpen = true ∧ (d []).rd (Reg.BCN_PAIR_EN.at []) = 0 ∧
    (d [(Reg.SEC_BOOT_STATE.at [], 4), (Reg.SEC_RECOV_OFF.at [], 6287360)]).rd (Reg.SEC_RECOV_OFF.at []) + 4096 ≤ 6291456 ∧ 6291456 < 6287364 + 4096 := by
  and_intros <;> decide +kernel

/-- A package that is not one is refused with code 1 (R418), whatever the keys are. -/
theorem test_package_magic : packageCode [] 0 = 1 := by rfl

/-- The first 24 bytes of a last-good record with SEQ 7, no pairs and no ledger (R242). -/
def goodHead : Bytes := leBytes 4 0x4C475244 ++ leBytes 2 1 ++ leBytes 2 0 ++ leBytes 8 7 ++ leBytes 8 0

/-- The record, with its CRC-32 computed by hand. -/
def goodBytes : Bytes := (goodHead ++ (zeroBytes 24 ++ (zeroBytes 24 ++ zeroBytes 24))) ++ leBytes 4 0x654B9318

theorem test_good_head : goodHead.foldl crcByte (~~~ 0) = 0x0E298328 := by decide +kernel
theorem test_good_z1 : (zeroBytes 24).foldl crcByte 0x0E298328 = 0xA491152A := by decide +kernel
theorem test_good_z2 : (zeroBytes 24).foldl crcByte 0xA491152A = 0x290D104E := by decide +kernel
theorem test_good_z3 : (zeroBytes 24).foldl crcByte 0x290D104E = 0x9AB46CE7 := by decide +kernel

/-- The CRC-32 of a last-good record without pairs and ledger, block by block (R242). -/
theorem test_good_crc : crc32 (goodBytes.take 96) = 0x654B9318 := by
  have h : goodBytes.take 96 = goodHead ++ (zeroBytes 24 ++ (zeroBytes 24 ++ zeroBytes 24)) := by decide +kernel
  rw [h, crc32, crcAdd, List.foldl_append, List.foldl_append, List.foldl_append, test_good_head, test_good_z1, test_good_z2, test_good_z3]
  decide

/-- What it says. -/
def goodRec : GoodRec := { seq := 7, hours := 0, digest := zeroBytes 48, plan := 0, modes := [0, 0, 0], pairs := [], ledger := [], panels := [], tiles := [], hasLedger := false }

theorem test_good_fields : leAt goodBytes 0x06 2 = 0 ∧ leAt goodBytes 0x4C 4 = 0 := by and_intros <;> decide +kernel

theorem test_good_decodes (c : BitVec 32) (h : crc32 (goodBytes.take 96) = c) (hc : c.toNat = leAt goodBytes 96 4) : goodOf goodBytes = some goodRec := by
  have t : (crc32 (goodBytes.take (0x60 + 8 * leAt goodBytes 0x06 2 + leAt goodBytes 0x4C 4))).toNat = leAt goodBytes (0x60 + 8 * leAt goodBytes 0x06 2 + leAt goodBytes 0x4C 4) 4 := by
    rw [test_good_fields.1, test_good_fields.2, ← hc, ← h]
  rw [goodOf]
  simp only [t, decide_true, Bool.and_true]
  decide +kernel

/-- The newest record of a flash with one good slot. -/
theorem newest_of_one (b : Bytes) (r : GoodRec) (h : goodOf b = some r) : ({ records := [(0, b)] } : Flash).newest = some r := by simp [Flash.newest, Flash.newestIn, h]

theorem test_good_newest : ({ records := [(0, goodBytes)] } : Flash).newest = some goodRec := newest_of_one _ _ (test_good_decodes _ test_good_crc (by decide +kernel))

/-- Each state of the boot; TEST_EN as it is and changed; the TAP in each state that captures, shifts or updates, its instruction register all ones, SYS_RESET_N low and high; a well-formed and an ill-formed result of training; a record, and none. -/
theorem test_ResetsAndBoot : let d (st : Nat) : Dev := put [(Reg.SEC_BOOT_STATE.at [], st)]
    ({} : Dev).held = false ∧ ({} : Dev).rd (Reg.SEC_BOOT_STATE.at []) = 0 ∧ (d 1).rd (Reg.SEC_BOOT_STATE.at []) = 1 ∧ (d 2).rd (Reg.SEC_BOOT_STATE.at []) = 2 ∧ ({} : Dev).boot.testEn = false ∧
    (let j (st : Tap) (inst : Fin 6) (low : Bool) : Dev := { jtag := { st := st, inst := inst, ir := [true, true], dr := [true], low := low } }
     (j .captureDr 2 true).jtag.st = .captureDr ∧ Tap.next .exit1Dr true = .updateDr ∧ Tap.next .exit1Ir true = .updateIr ∧ Tap.next .selectIr true = .reset ∧ Tap.next .shiftIr false = .shiftIr ∧
     (∀ b ∈ (j .exit1Ir 1 true).jtag.ir, b = true) ∧ (j .captureDr 4 true).jtag.low = true ∧ (j .captureDr 4 true).jtag.inst = 4 ∧ (j .captureDr 2 true).jtag.inst = 2 ∧ (j .captureDr 2 false).jtag.low = false) ∧
    ({} : Dev).jtag.inst = 1 ∧ WatchedRail.soc ≠ .io18 ∧ (d 2).boot.lgSeq = none ∧ ({ boot := { lgSeq := some 7 } } : Dev).boot.lgSeq = some 7 ∧ Instr.wf (.ddrTrainingDone 0xFFF 10667 96 15) = true ∧ Instr.wf (.ddrTrainingDone 0xFFE 8533 24 0) = true ∧
    Instr.wf (.ddrTrainingDone 0xFFF 8532 24 0) = false ∧ (d 2).flash.newest = none ∧ (d 2).flash.owner = none ∧ (d 2).rd (Reg.BCN_PAIR_EN.at []) = 0 := by
  and_intros <;> decide +kernel

/-- A device in RESTORE with a record. -/
theorem test_RestoreRecord : let d : Dev := { put [(Reg.SEC_BOOT_STATE.at [], 2)] with flash := { records := [(0, goodBytes)] } }
    d.rd (Reg.SEC_BOOT_STATE.at []) = 2 ∧ d.held = false ∧ d.flash.newest = some goodRec := ⟨by decide +kernel, by decide +kernel, test_good_newest⟩

/-- The states in which a twin takes each step, with a partner that has the other side, and one that has the same. -/
theorem test_TwinRoles : let h (b own hand : Bool) : Heartbeat := ⟨b, 0, 5, if own then 4 else 1, true, 0, 0, hand, false, 0, 0, false, false⟩
    let d (role : Nat) (b : Bool) : Dev := { put [(Reg.SEC_BOOT_STATE.at [], 3), (Reg.BCN_ROLE.at [], role), (Reg.BCN_PAIR_EN.at [], 1), (Reg.BCN_TWIN_ROLE.at [], 4), (Reg.OUT_GL_STATE.at [0], 4), (Reg.OUT_GL_STATE.at [1], 4),
      (Reg.BCNP_PARTNER.at [0], 1), (Reg.BCN_HANDOVER_MASK.at [], 8)] with beacon := { heard := [(0, some (h b true false))], present := [0], beats := [(2, 15)], valsApplied := true, ownerImage := some (List.replicate 48 0, 0, 0) } }
    (d 2 true).rd (Reg.BCN_ROLE.at []) = 2 ∧ 0 ∈ (d 2 true).beacon.present ∧ (d 2 true).sameImage = true ∧ (d 2 true).beacon.valsApplied = true ∧ (∀ k < 2, (d 2 true).rd (Reg.OUT_GL_STATE.at [k]) = 4) ∧
    (h true true false).epoch = (d 2 true).rd (Reg.BCN_EPOCH.at []) ∧ ¬ (h true true false).sideB = decide ((d 2 true).rd (Reg.BCN_SIDE.at []) ≠ 0) ∧ (h false true false).sideB = decide ((d 2 true).rd (Reg.BCN_SIDE.at []) ≠ 0) ∧
    Tab.get 0 (d 2 true).beacon.beats 2 = 15 ∧ 2 ∉ (d 2 true).beacon.present ∧ (d 2 true).rd (Reg.BCN_PAIR_EN.at []) ≠ 0 ∧ (d 3 true).beacon.claim = none ∧ (d 4 true).beacon.sick = false ∧ (d 4 true).hostOpen = true ∧
    ({} : Dev).faultN = false ∧ ({ put [(Reg.TOP_FAULTN_MASK.at [], 4)] with planNo := 1 } : Dev).faultN = true ∧ ((d 4 true).rd (Reg.BCN_HANDOVER_MASK.at [])).testBit 3 = true ∧ (d 1 true).rd (Reg.BCNP_PARTNER.at [0]) ≠ 0 ∧
    (d 4 true).selMine 0 = true ∧ (d 4 true).planAbove = false ∧ ({ d 4 true with planNo := 1 } : Dev).planAbove = true ∧
    ({ put [(Reg.SEC_BOOT_STATE.at [], 3), (Reg.BCN_HANDOVER_MASK.at [], 2)] with beacon := { sick := true } } : Dev).beacon.sick = true ∧ (d 2 true).portUsed 0 = true ∧ (d 2 true).portUsed 2 = false ∧
    (put [(Reg.BCN_WALL_EN.at [], 1)]).portUsed 2 = true ∧ (d 2 true).split = false ∧ (put [(Reg.OUT_SPLIT.at [0], 1)]).split = true ∧
    (let c : Dev := { d 3 true with beacon := { (d 3 true).beacon with claim := some 0 } }
     c.beacon.claim ≠ none ∧ c.beacon.sick = false ∧ ¬ (decide (0 ∈ c.selB) = decide (c.rd (Reg.BCN_SIDE.at []) ≠ 0) ∧ c.rd (Reg.BCN_SPLIT.at []) ≠ 0)) ∧ (d 1 true).beacon.sick = false ∧
    (({ put [(Reg.BCN_SIDE.at [], 1)] with beacon := { claim := some 0 } } : Dev).selB = [] ∧ (put [(Reg.BCN_SIDE.at [], 1)]).rd (Reg.BCN_SIDE.at []) ≠ 0) := by
  and_intros <;> decide +kernel

/-- A partner of the same side with a higher serial number than `n`, the device's, which the part fixes. -/
theorem test_TwinRoles_serial (n : Nat) : n < (⟨false, 0, n + 1, 1, true, 0, 0, false, false, 0, 0, false, false⟩ : Heartbeat).serial := Nat.lt_succ_self n

/-- Ports up and down; a token that moves the time base and one that does not; seam slots in order, stale, short and with no credit; a stall. -/
theorem test_BeaconPorts : let l := [(Reg.BCNP_UP.at [1], 1), (Reg.BCNP_UP.at [2], 1), (Reg.BCNQ_RX_EN.at [2, 15], 1), (Reg.BCNQ_RX_SLOT_TXN.at [2, 15], 1), (Reg.BCNQ_CLUSTER.at [2, 15], 7), (Reg.BCNQ_PROXY_SU.at [2, 15], 15),
      (Reg.BCNQ_PROXY_RT.at [2, 15], 7), (Reg.SU_RT_CRED.at (six 127 [7]), 1), (Reg.BCN_EPOCH.at [], 3), (Reg.BCNQ_NEXT_K.at [2, 15], 9), (Reg.BCNQ_TX_WAITING.at [2, 15], 1), (Reg.BCN_TOK_MASTER.at [], 1), (Reg.OUT_ENABLE.at [0], 1),
      (Reg.OUT_RUNNING.at [0], 1)]
    let d := put l
    let x : SeamSlot := ⟨9, 3, 5, [(0, [1], [])]⟩
    ({} : Dev).rd (Reg.BCNP_UP.at [2]) = 0 ∧ d.rd (Reg.BCNP_UP.at [2]) ≠ 0 ∧ d.pipePacer = some 0 ∧ d.sendsTokens = true ∧ d.rd (Reg.OUT_RUNNING.at [0]) ≠ 0 ∧ ({} : Dev).sendsTokens = false ∧
    d.beacon.sick = false ∧ d.rd (Reg.BCNQ_RX_EN.at [2, 15]) ≠ 0 ∧ x.epoch = d.rd (Reg.BCN_EPOCH.at []) ∧ x.k = d.rd (Reg.BCNQ_NEXT_K.at [2, 15]) ∧ 8 < d.rd (Reg.BCNQ_NEXT_K.at [2, 15]) ∧ d.rx 2 15 = {} ∧
    d.rd (Reg.BCNQ_RX_SLOT_TXN.at [2, 15]) ≤ x.txns.length ∧ toSigned 32 (d.time % 2 ^ 32 + 2 ^ 32 - x.deadline) ≤ 0 ∧ d.rd (Reg.BCNQ_RELAY.at [2, 15]) = 0 ∧ x.txns.length ≤ d.rd (Reg.SU_RT_CRED.at (six 127 [7])) ∧
    16 * d.rd (Reg.BCNQ_CLUSTER.at [2, 15]) + d.rd (Reg.BCNQ_PROXY_SU.at [2, 15]) = 127 ∧ d.rd (Reg.BCNQ_TX_WAITING.at [2, 15]) ≠ 0 ∧ (d.tx 2 15).counted = false ∧
    (∀ k < 15, d.rd (Reg.BCNQ_TX_WAITING.at [2, k]) = 0) ∧ d.beacon.fe = none ∧ (put [(Reg.OUT_ENABLE.at [0], 1), (Reg.OUT_MODE.at [0], 2), (Reg.OUT_REF_SRC.at [0], 2)]).tokenPort 0 = some 2 ∧
    d.portUsed 2 = false ∧ (put ((Reg.BCN_WALL_EN.at [], 1) :: l)).portUsed 2 = true ∧ (put ((Reg.BCN_WALL_EN.at [], 1) :: l)).rx 2 15 = {} ∧ x.txns.length < 2 ∧
    ((List.range 3).filter (fun k => (put ((Reg.BCN_WALL_EN.at [], 1) :: l)).portUsed k = true ∧ (put ((Reg.BCN_WALL_EN.at [], 1) :: l)).rd (Reg.BCNP_UP.at [k]) ≠ 0)).filter (fun k => k ≠ 2) = [1] := by
  and_intros <;> decide +kernel

/-- A slot of port E that the twin is to relay, with a credit of the T queue and without; a slot of port T for the binding of a port that is down, relayed and not; a relay that waits for a credit. -/
theorem test_BeaconPorts_relay : let x : SeamSlot := ⟨9, 0, 5, [(0, [1], [])]⟩
    let d (en cred relay : Nat) : Dev := put [(Reg.BCN_WALL_EN.at [], 1), (Reg.BCNQ_RX_EN.at [1, 3], 1), (Reg.BCNQ_RX_SLOT_TXN.at [1, 3], 1), (Reg.BCNQ_NEXT_K.at [1, 3], 8), (Reg.BCNQ_RELAY.at [1, 3], 1), (Reg.BCNQ_TX_EN.at [0, 3], en),
      (Reg.BCNQ_TX_CRED.at [0, 3], cred), (Reg.BCNQ_ALT_T.at [1, 3], 1), (Reg.BCN_E_RELAY.at [], relay)]
    let e : Dev := { d 1 0 1 with seamTx := [(3, { relays := [x] })] }
    (d 1 1 1).portUsed 1 = true ∧ (d 1 1 1).beacon.sick = false ∧ (d 1 1 1).rd (Reg.BCNQ_RX_EN.at [1, 3]) ≠ 0 ∧ x.epoch = (d 1 1 1).rd (Reg.BCN_EPOCH.at []) ∧ (d 1 1 1).rd (Reg.BCNQ_NEXT_K.at [1, 3]) < x.k ∧ (d 1 1 1).rx 1 3 = {} ∧
    (d 1 1 1).rd (Reg.BCNQ_RX_SLOT_TXN.at [1, 3]) ≤ x.txns.length ∧ toSigned 32 ((d 1 1 1).time % 2 ^ 32 + 2 ^ 32 - x.deadline) ≤ 0 ∧ (d 1 1 1).rd (Reg.BCNQ_RELAY.at [1, 3]) ≠ 0 ∧ ((d 1 1 1).tx 0 3).relays = [] ∧
    (d 1 1 1).rd (Reg.BCNQ_TX_EN.at [0, 3]) ≠ 0 ∧ (d 1 1 1).rd (Reg.BCNQ_TX_CRED.at [0, 3]) ≠ 0 ∧ (d 1 1 1).rd (Reg.BCNQ_TX_CRED.at [0, 3]) < 256 ∧ (d 0 1 1).rd (Reg.BCNQ_TX_EN.at [0, 3]) = 0 ∧ (d 1 0 1).rd (Reg.BCNQ_TX_CRED.at [0, 3]) = 0 ∧
    (d 1 1 1).rd (Reg.BCNQ_ALT_T.at [1, 3]) ≠ 0 ∧ (d 1 1 1).rd (Reg.BCN_E_RELAY.at []) ≠ 0 ∧ (d 1 1 0).rd (Reg.BCN_E_RELAY.at []) = 0 ∧ (d 1 1 0).rd (Reg.BCNQ_RX_EN.at [0, 3]) = 0 ∧
    (⟨7, 0, 5, []⟩ : SeamSlot).k < (d 1 1 1).rd (Reg.BCNQ_NEXT_K.at [1, 3]) ∧ ([] : List Nat).length < (d 1 1 1).rd (Reg.BCNQ_RX_SLOT_TXN.at [1, 3]) ∧ (e.tx 0 3).relays = [x] ∧ e.rd (Reg.BCNQ_TX_EN.at [0, 3]) ≠ 0 := by
  and_intros <;> decide +kernel

/-- An output that follows port 2: with no token, and with one whose frame is not the one expected, that differs from the time base by at most 100 us and by more, before and after a step. -/
theorem test_BeaconPorts_edges : let d (l : List (Nat × Nat × Nat × Nat)) (st : Bool) : Dev := { put [(Reg.OUT_ENABLE.at [0], 1), (Reg.OUT_MODE.at [0], 2), (Reg.OUT_REF_SRC.at [0], 2), (Reg.BCN_WALL_EN.at [], 1)] with
        beacon := { edges := l, stepped := st } }
    let e := d [(2, 7, 5, 200006)] false
    (d [] false).referenced 0 = true ∧ (d [] false).holdsOwn 0 = false ∧ (d [] false).tokenPort 0 = some 2 ∧ ((d [] false).out 0).waitLock = false ∧ (d [] false).beacon.edges = [] ∧
    e.referenced 0 = true ∧ e.holdsOwn 0 = false ∧ e.tokenPort 0 = some 2 ∧ (e.out 0).waitLock = false ∧ e.beacon.edges = [(2, 7, 5, 200006)] ∧ 7 + 1 ≠ Tab.get 0 e.beacon.lastEdge 0 ∧ 0 ∉ e.beacon.useAlt ∧
    e.events.store.length < 1000 ∧ 100000 < ((200006 : Int) - (5 : Nat)).natAbs ∧ e.beacon.stepped = false ∧ ((100005 : Int) - (5 : Nat)).natAbs ≤ 100000 ∧ (d [] true).beacon.stepped = true := by
  and_intros <;> decide +kernel

/-- A rail that answers; a cluster whose clock waits; ageing at the last step that is added and past it; the temperatures at which THM_LIMIT steps; sensor values at their bounds and past them; a control period with a commit of the cap, and one without. -/
theorem test_PowerAndTemperature : let t (max lim : Nat) : Dev := put [(Reg.THM_THROTTLE_C.at [], 100), (Reg.THM_HYST_C.at [], 5), (Reg.THM_MAX.at [], max), (Reg.THM_LIMIT.at [], lim)]
    let now (d : Dev) : Int := toSigned 11 (d.rd (Reg.THM_MAX.at []))
    let d : Dev := { put [(Reg.PWR_RAIL_VALID.at [7], 1), (Reg.PWR_AGE_COMP_MV.at [], 35)] with power := { switching := [(7, 6)] } }
    (List.range 8).filter (fun r => d.rd (Reg.PWR_RAIL_VALID.at [r]) ≠ 0) = [7] ∧ d.power.switching = [(7, 6)] ∧ d.rd (Reg.PWR_AGE_COMP_MV.at []) + 5 ≤ 40 ∧ 40 < (put [(Reg.PWR_AGE_COMP_MV.at [], 40)]).rd (Reg.PWR_AGE_COMP_MV.at []) + 5 ∧
    4 * (min 115 ((t 400 16).rd (Reg.THM_THROTTLE_C.at [])) : Int) ≤ now (t 400 16) ∧ now (t 399 15) < 400 ∧ now (t 379 15) < 4 * (100 - (5 : Int)) ∧ 4 * (100 - (5 : Int)) ≤ now (t 380 15) ∧ (t 400 1).rd (Reg.THM_LIMIT.at []) ≤ 1 ∧
    1 < (t 400 16).rd (Reg.THM_LIMIT.at []) ∧ (-200 ≤ (-200 : Int) ∧ (560 : Int) ≤ 560) ∧ ¬ ((561 : Int) ≤ 560) ∧ ({ d with power := { capNew := true } } : Dev).power.capNew = true ∧ d.power.capNew = false ∧ d.phases.length ≤ 16 ∧ Tab.get 0 d.limits (0x0607 * 65536 + 7) = 0 ∧ Tab.get 0 d.power.ops 7 ≠ 6 ∧
    Tab.get 0 ({ d with power := { d.power with ops := [(7, 6)] } } : Dev).power.ops 7 = 6 ∧
    (let f : Dev := { d with power := { railFails := [(7, 2)], railFj := [(7, 3)], railMw := [(7, 6)], pollFj := 4 } }
     2 ≤ Tab.get 0 f.power.railFails 7 ∧ 0 < Tab.get 0 f.power.railFj 7 ∧ Tab.get 0 f.power.railMw 7 * f.power.pollFj % Tab.get 0 f.power.railFj 7 = 0) ∧
    (let g : Dev := { d with power := { sum := 6, polls := 2 } }
     g.power.polls ≠ 0 ∧ g.power.sum % g.power.polls = 0) := by
  and_intros <;> decide +kernel

/-- A record that is due, with the next slot good, bad, and all bad; health that changed; counters at and below a unit; a tile being read whose EEPROM is sound and one that is not, and one that has failed before; zones that have not aged, and one past its life beside one that is not. -/
theorem test_WearAndPersistence : let d (bad : List Nat) : Dev := { put [(Reg.TOP_LG_WRITE_PENDING.at [], 1), (Reg.SEC_BOOT_STATE.at [], 3)] with boot := { bad := bad }, healthDirty := true, wear := { counters := [(0, 1000000000), (1, 999999999)], reading := [127] } }
    let b : Bytes := [0x45, 0x4C, 0x49, 0x54, 1, 0, 0, 0, 7] ++ List.replicate 247 0
    (d []).rd (Reg.TOP_LG_WRITE_PENDING.at []) ≠ 0 ∧ (d []).rd (Reg.SEC_FW_STATE.at []) ≠ 1 ∧ (d []).rd (Reg.SEC_FW_STATE.at []) ≠ 2 ∧ (d []).hostOpen = true ∧ (0 + 0) % 64 ∉ (d []).boot.bad ∧ (d []).flash.newestIn.isNone = true ∧ (d []).flash.healthIn.isNone = true ∧ 64 + 0 ∉ (d [65]).boot.bad ∧ 64 + (1 - 0) ∈ (d [65]).boot.bad ∧
    (0 + 0) % 64 ∈ (d [0]).boot.bad ∧ (0 + 1) % 64 ∉ (d [0]).boot.bad ∧ (∀ n < 64, n ∈ (d (List.range 66)).boot.bad) ∧ 64 ∈ (d (List.range 66)).boot.bad ∧ 65 ∈ (d (List.range 66)).boot.bad ∧ (d []).healthDirty = true ∧
    ((d []).wear.counters.map Prod.fst).Nodup ∧ 1000000000 ≤ Tab.get 0 (d []).wear.counters 0 ∧ Tab.get 0 (d []).wear.counters 1 < 1000000000 ∧ 1 * 64 + 63 ∈ (d []).wear.reading ∧
    127 ∈ ({ d [] with wear := { unread := [127] } } : Dev).wear.unread ∧ 127 ∉ (d []).wear.unread ∧
    (let w : Dev := { put [(Reg.WEAR_PANEL_L50_HOURS.at [0], 1), (Reg.WEAR_GAIN_FLOOR.at [0], 2048)] with wear := { ledger := [(0, 471859201)] } }
     w.lifeOf 0 0 * 3600 * 65536 * 2 < Tab.get 0 w.wear.ledger 0 ∧ Tab.get 0 w.wear.ledger 1 < w.lifeOf 0 1 * 3600 * 65536 * 2 ∧ 0 < w.rd (Reg.WEAR_GAIN_FLOOR.at [0]) ∧ w.rd (Reg.WEAR_GAIN_COPY.at [0]) < 2) ∧
    leNat (b.take 4) = 0x54494C45 ∧ leNat ((b.drop 4).take 2) = 1 ∧ leNat ((b.drop 8).take 8) = 7 ∧ (d []).flash.newest = none ∧ (d []).beacon.sick = false ∧ (d []).rd (Reg.WEAR_GAIN_COPY.at [0]) < 2 ∧ (d []).rd (Reg.WEAR_GAIN_COPY.at [1]) < 2 := by
  and_intros <;> decide +kernel

/-- With no tile in use every zone has the life of the panel. -/
theorem test_WearAndPersistence_life (n : Nat) : let w : Dev := put [(Reg.WEAR_PANEL_L50_HOURS.at [0], 1)]
    w.lifeOf 0 n * 3600 * 65536 * 2 ≠ 0 := by
  intro w
  have h : w.tiles 0 = [] := by decide +kernel
  have l : w.rd (Reg.WEAR_PANEL_L50_HOURS.at [0]) = 1 := by decide +kernel
  simp [Dev.lifeOf, Dev.tileOf, h, l]

/-! ### Whole-block statements -/

/-- The front of the queue runs; an empty queue lets time pass; a held device stands. -/
theorem test_step_front : step ⟨[.slackMeasure, .pgPowerDown 0 0], {}⟩ = exec .slackMeasure ⟨[.pgPowerDown 0 0], {}⟩ := rfl
theorem test_step_idle : ∃ t, step State.reset = .next t ∧ t.dev.time = 1 := ⟨_, rfl, rfl⟩
/-- A time base that is ahead of, or behind, its master's, at the last nanosecond of 10,000 and before it; and one that agrees. -/
theorem test_step_drift : let t (x : Int) (n : Nat) : Dev := { time := 5, beacon := { drift := x, driftNs := n } }
    (∃ s, step ⟨[], t 3 9999⟩ = .next s ∧ s.dev.time = 7 ∧ s.dev.beacon.drift = 2) ∧ (∃ s, step ⟨[], t (-3) 9999⟩ = .next s ∧ s.dev.time = 5 ∧ s.dev.beacon.drift = -2) ∧
    (∃ s, step ⟨[], t 3 9998⟩ = .next s ∧ s.dev.time = 6 ∧ s.dev.beacon.drift = 3) ∧ (t 0 0).beacon.drift = 0 ∧ (t 0 0).held = false ∧ (t 0 0).rd (Reg.AUXP_RUNNING.at []) = 0 :=
  ⟨⟨_, rfl, rfl, rfl⟩, ⟨_, rfl, rfl, rfl⟩, ⟨_, rfl, rfl, rfl⟩, rfl, rfl, rfl⟩
/-- GPIO_IN takes the pins at a whole microsecond, and not before (R458): every pin is driven, pin 3 high. -/
theorem test_step_gpio : let d (n : Nat) : Dev := { put [(Reg.TOP_GPIO_DIR.at [], 0xFFFF), (Reg.TOP_GPIO_OUT.at [], 8)] with time := n }
    (∃ s, step ⟨[], d 999⟩ = .next s ∧ s.dev.rd (Reg.TOP_GPIO_IN.at []) = 8) ∧ ∃ s, step ⟨[], d 998⟩ = .next s ∧ s.dev.rd (Reg.TOP_GPIO_IN.at []) = 0 := 
  ⟨⟨_, rfl, by decide +kernel⟩, _, rfl, by decide +kernel⟩
theorem test_step_held : ∃ t, step ⟨[], { power := { tripped := true } }⟩ = .next t ∧ t.dev.time = 0 := ⟨_, rfl, rfl⟩

/-- A tripped device whose queue holds a command other than the six, and one that is a reset. -/
theorem test_TrippedStands : let d : Dev := { power := { tripped := true } }
    (∃ t, step ⟨[.nop 0], d⟩ = .next t ∧ t.dev = d) ∧ ∃ t, step ⟨[.systemReset 0], d⟩ = .next t ∧ t.dev.power.tripped = false := ⟨⟨_, rfl, rfl⟩, _, rfl, rfl⟩

/-- The hypotheses about fields: a register of BAR0 and indices inside its dimensions. -/
theorem test_RegistersAreAligned : Reg.SLOT_FULL.addr (cix 71 [127]) % 4 = 0 ∧ (cix 71 [127]).length = Reg.SLOT_FULL.dims.length ∧ ∀ x ∈ List.zip Reg.SLOT_FULL.dims (cix 71 [127]), x.2 < x.1.count := by
  and_intros <;> decide

/-! ### An image that passes -/

/-- The bytes of a small image but for its DIGEST: a header of version 1 with one plan and one phase, two section entries, an empty SEQ and one PHASES record. -/
def smallImage : List (Nat × Byte) :=
  [(0x00, 0x49), (0x01, 0x44), (0x02, 0x4B), (0x03, 0x1A), (0x04, 1), (0x06, 128), (0x08, 0x01), (0x09, 0x72), (0x0A, 0xF8), (0x0B, 0x0D), (0x10, 0x20), (0x11, 0x02), (0x18, 2), (0x1A, 12), (0x1C, 0x80),
   (0x28, 1), (0x2A, 1), (0x80, 6), (0x82, 0xFF), (0x89, 1), (0x8C, 0x0C), (0x8E, 0xFF), (0x90, 0x20), (0x95, 2), (0x211, 1)]

/-- The digest of the image. -/
def smallDigest : Vector Byte 48 := Config.sha384Of (Tab.getList 0 smallImage 0 0x220)

/-- That image at 0x1000, its DIGEST in place. -/
def smallMem : List (Nat × Byte) :=
  ((smallImage.take 17).map (fun e => (0x1000 + e.1, e.2))) ++ (List.finRange 48).map (fun i => (0x1030 + i.val, smallDigest[i])) ++ (smallImage.drop 17).map (fun e => (0x1000 + e.1, e.2))

/-- A device with that image named by an INSTALL that is being checked. -/
def imageDev : Dev := { put [(Reg.TOP_IMG_STATE.at [], 1)] with mem := smallMem, inst := { kind := 1, addr := 0x1000, len := 0x220 } }

theorem toList_eq_map (v : Vector Byte 48) : v.toList = (List.finRange 48).map (fun i => v[i]) := by
  apply List.ext_getElem <;> simp

theorem smallDigest_stands : imageDev.bytes 0x1030 48 = smallDigest.toList := by
  rw [toList_eq_map]
  rfl

theorem smallImage_digest : imageDev.imgDigest 0x1000 = imageDev.bytes 0x1030 48 := by
  have h : imageDev.opsigOf 0x1000 = none := by decide +kernel
  have b : zeroed (imageDev.bytes 0x1000 (imageDev.readLe (0x1000 + 0x10) 8)) 0x30 48 = Tab.getList 0 smallImage 0 0x220 := by decide +kernel
  rw [smallDigest_stands]
  unfold Dev.imgDigest
  simp only [h, b]
  rfl

theorem smallImage_header : imageDev.headerCode 0x1000 (imageDev.imgContent 0x1000 {}) = 0 := by
  unfold Dev.headerCode
  simp only [smallImage_digest, bne_self_eq_false]
  decide +kernel

/-- The image passes every check, and a plan of it is chosen. -/
theorem test_Images_good : imageDev.imgFault 0x1000 0x220 {} = none ∧ imageDev.rd (Reg.TOP_IMG_STATE.at []) = 1 ∧
    (match imageDev.choosePlan (imageDev.imgContent 0x1000 {}).phases (imageDev.imgContent 0x1000 {}).plans false with
     | .error c => c
     | .ok x => 100 + x.1) = 100 := by
  refine ⟨?_, by decide +kernel, by decide +kernel⟩
  unfold Dev.imgFault
  simp only [smallImage_header]
  decide +kernel

/-! ### Examples that the specification works out -/

/-- The MC_ registers of device core 40 start at 0x0141_4000 (R31). -/
theorem test_core40 : Reg.MC_STATE.addr (cix 40) / 0x1000 = 0x01414 := by decide +kernel

/-- INT8 requantisation (R53 to R55): 12,345, 40,000, 20, 28 and -28 with their biases and scales. -/
theorem test_requantise : let q (acc : Int) (bias : Word) (scale : Word) := outConv 0 (scaleElem false (BitVec.ofInt 32 acc) (some bias) (some scale)).1
    (q 12345 (BitVec.ofInt 32 (-345)) 0x3B840000).1 = 48 ∧ q 40000 0 0x3B840000 = (127, { outSat := true }) ∧ (q 20 0 0x3E000000).1 = 2 ∧ (q 28 0 0x3E000000).1 = 4 ∧
    (q (-28) 0 0x3E000000).1 = 0xFC := by decide +kernel

/-- FP32 to FP8 (R54, R55): rounding, ties, saturation, a subnormal kept, and E5M2 flushed. -/
theorem test_fp8 : (outConv 2 0x3E99999A).1 = 0x2A ∧ (outConv 2 0x3E980000).1 = 0x2A ∧ outConv 2 0x43FA0000 = (0x7E, { outSat := true }) ∧ (outConv 2 0x3B449BA6).1 = 0x02 ∧
    outConv 3 0x38400000 = (0x00, { flush := true }) ∧ (outConv 3 0x387FBE77).1 = 0x04 ∧ outConv 3 0x7F800000 = (0x7B, { outSat := true }) := by decide +kernel

/-- One MXFP4 block with scale 2^-3 adds 0.0625, and with scale 0xFF makes the element NaN (R46, R47). -/
theorem test_mxfp4 : let row := [elemNum 2 0x40, elemNum 2 0x38, elemNum 2 0x44]
    let col := [elemNum 11 6, elemNum 11 3, elemNum 11 13]
    (accumulate 2 11 0 row col [0x7C]).1 = 0x3D800000 ∧ (accumulate 2 11 0 row col [0xFF]).1 = 0x7FC00000 := by decide +kernel

/-- 2^24 plus 1.0 stays 2^24; plus 2.0 it is 0x4B80_0001 (R48). -/
theorem test_additions : add32 0x4B800000 0x3F800000 = 0x4B800000 ∧ add32 0x4B800000 0x40000000 = 0x4B800001 := by decide +kernel

/-- Depth to space (R133): row 10, column 29 of 48 columns with b = 4 lies at 2 S + 125. -/
theorem test_depthToSpace : drainDest (drainArgs ⟨0, 0, 0, word [(0, 0x20), (12, 1), (44, 47), (50, 1), (70, 1), (72, 2)], { s := [(1, 10000)] }⟩) 10 29 = 2 * 10000 + 125 := by decide +kernel

/-- The guard path from 3,840 to 7,680: pixel 0 lies at source column -1, phase 48 (R285). -/
theorem test_scalePos : scalePos 3840 7680 0 = (-1, 48) := by decide +kernel

/-- A fold of 16,383,999,344,640 adds 16,383 and carries 999,344,640 (R436). -/
theorem test_fold : ∃ t, exec .ledgerFold ⟨[], { wear := { counters := [(0, 16383999344640)] } }⟩ = .next t ∧ Tab.get 0 t.dev.wear.ledger 0 = 16383 ∧ Tab.get 0 t.dev.wear.counters 0 = 999344640 :=
  ⟨_, rfl, by decide +kernel⟩

/-- PHASE is 128 at 20 ms after the newer of two frames 40 ms apart (R206). -/
theorem test_phase : let p : PipeRec := { aPipe with retime := true }
    let d : Dev := { put [(Reg.OUT_RUNNING.at [1], 1)] with time := 60000000, plan := { ({} : Dev).plan with pipes := [p] }, streams := [(15, { done := [⟨1, 40000000, 2⟩, ⟨0, 0, 1⟩] })] }
    ∃ t, exec (.sourceLatch 63) ⟨[], d⟩ = .next t ∧ (t.dev.pipe 63).latches.map Latch.phase = [128] := ⟨_, rfl, by decide +kernel⟩

/-- CRC-32 of the nine digits (R301). -/
theorem test_crc32 : crc32 [0x31, 0x32, 0x33, 0x34, 0x35, 0x36, 0x37, 0x38, 0x39] = 0xCBF43926 := by decide +kernel

end Sys2Proof.Tests
end

/-! PROOFS. What the register map and the state after reset say of every register (R7, R8). -/

namespace Sys2Proof.Machine

/-! ### Places of registers (R7) -/

/-- The largest value that a weighted sum takes over the indices of a family. -/
def topWeigh (stride : Dim → Nat) (dims : List Dim) : Nat := (dims.map (fun x => stride x * (x.count - 1))).sum

/-- What a row of the register map must satisfy for every instance of it to lie where R7 says: strides are multiples of 4, and the
highest instance is still inside BAR0 and inside its word. -/
def RegDef.placed (r : RegDef) : Bool :=
  r.base % 4 = 0 && r.dims.all (fun x => x.astride % 4 = 0) && r.base + topWeigh Dim.astride r.dims < 2 ^ 26 &&
    r.lo + topWeigh Dim.lstride r.dims + r.width ≤ 32

theorem RegDef.placed_iff (r : RegDef) : r.placed = true ↔ r.base % 4 = 0 ∧ (∀ x ∈ r.dims, x.astride % 4 = 0) ∧
    r.base + topWeigh Dim.astride r.dims < 2 ^ 26 ∧ r.lo + topWeigh Dim.lstride r.dims + r.width ≤ 32 := by
  simp [RegDef.placed, and_assoc]

theorem weigh_le_topWeigh (stride : Dim → Nat) : ∀ (dims : List Dim) (idx : List Nat),
    (∀ x ∈ List.zip dims idx, x.2 < x.1.count) → weigh (dims.map stride) idx ≤ topWeigh stride dims
  | [], _, _ => by simp [weigh]
  | _ :: _, [], _ => by simp [weigh]
  | x :: dims, i :: idx, h => by
    have hi : i < x.count := h (x, i) (by simp)
    have hrest := weigh_le_topWeigh stride dims idx (fun y hy => h y (by simp [hy]))
    have hmul : stride x * i ≤ stride x * (x.count - 1) := Nat.mul_le_mul_left _ (by omega)
    simp only [List.map_cons, weigh, topWeigh, List.sum_cons] at hrest ⊢
    omega

theorem four_dvd_weigh : ∀ (strides idx : List Nat), (∀ a ∈ strides, a % 4 = 0) → 4 ∣ weigh strides idx
  | [], _, _ => by simp [weigh]
  | _ :: _, [], _ => by simp [weigh]
  | a :: strides, i :: idx, h => by
    have ha : 4 ∣ a := Nat.dvd_of_mod_eq_zero (h a (by simp))
    exact Nat.dvd_add (Nat.dvd_mul_right_of_dvd ha i) (four_dvd_weigh strides idx (fun b hb => h b (by simp [hb])))

theorem regMap_placed : regMap.all RegDef.placed = true := by decide +kernel

/-- Settles O58: the strides of a row are multiples of 4, and of its instances the last lies highest; that one is inside BAR0 and its word. -/
theorem registersAreAligned : Obligations.RegistersAreAligned := by
  intro r hr idx _ hidx
  obtain ⟨hbase, hstride, haddr, hbits⟩ := r.placed_iff.mp (List.all_eq_true.mp regMap_placed r hr)
  have hdvd : 4 ∣ weigh (r.dims.map Dim.astride) idx := four_dvd_weigh _ _ (by simpa using hstride)
  have ha := weigh_le_topWeigh Dim.astride r.dims idx hidx
  have hl := weigh_le_topWeigh Dim.lstride r.dims idx hidx
  unfold RegDef.addr RegDef.lowBit
  omega

/-! ### The state after reset (R8, R414) -/

theorem rd_reset (f : Fld) : State.reset.dev.rd f = f.reset := by
  cases h : f.rws <;> simp [Dev.rd, h, State.reset]

theorem rdS_reset (f : Fld) : State.reset.dev.rdS f = f.reset := by
  unfold Dev.rdS
  split
  · rfl
  · exact rd_reset f

/-- Settles O57: no table of the state after reset lists a value, so every read answers its default, and the register tables give the rest. -/
theorem resetValues : Obligations.ResetValues := by
  refine ⟨fun f => ⟨rd_reset f, rdS_reset f⟩, rfl, rfl, fun _ => rfl, rfl, rfl, ?_⟩
  simp only [rd_reset]
  exact ⟨rfl, rfl, rfl, rfl, fun _ _ => rfl, fun _ _ => rfl, fun _ _ => rfl, fun _ _ => rfl⟩

end Sys2Proof.Machine

/-! PROOFS. Rules for writes of registers and for events that the statements about the host's accesses share. -/

namespace Sys2Proof.Machine

/-! ### Bits -/

/-- Taking away the bits that two numbers share leaves the bits of the first that the second lacks. -/
theorem testBit_sub_and (a b k : Nat) : (a - (a &&& b)).testBit k = (a.testBit k && !b.testBit k) := by
  induction k generalizing a b with
  | zero =>
    have hle : a &&& b ≤ a := Nat.and_le_left
    have hodd : (a &&& b) % 2 = 1 ↔ a % 2 = 1 ∧ b % 2 = 1 := Nat.and_mod_two_eq_one
    rw [Bool.eq_iff_iff]
    simp only [Nat.testBit_zero, Bool.and_eq_true, Bool.not_eq_true', decide_eq_true_eq, decide_eq_false_iff_not]
    omega
  | succ k ih =>
    have hle : a &&& b ≤ a := Nat.and_le_left
    have hodd : (a &&& b) % 2 = 1 ↔ a % 2 = 1 ∧ b % 2 = 1 := Nat.and_mod_two_eq_one
    have hhalf : (a - (a &&& b)) / 2 = a / 2 - (a / 2 &&& b / 2) := by
      rw [← Nat.and_div_two]
      omega
    simp only [Nat.testBit_succ, hhalf, ih]

theorem testBit_sub_two_pow_if (v i k : Nat) :
    (v - (if v.testBit i then 2 ^ i else 0)).testBit k = (v.testBit k && decide (k ≠ i)) := by
  have h : (if v.testBit i then 2 ^ i else 0) = v &&& 2 ^ i := by
    refine Nat.eq_of_testBit_eq fun j => ?_
    rw [Nat.testBit_and, Nat.testBit_two_pow]
    by_cases hj : i = j
    · subst hj
      cases hv : v.testBit i
      · simp only [Bool.false_eq_true, if_false, Nat.zero_testBit, Bool.false_and]
      · simp only [if_true, Nat.testBit_two_pow_self, decide_true, Bool.and_true]
    · have hout : (2 ^ i).testBit j = false := by rw [Nat.testBit_two_pow, decide_eq_false hj]
      rw [decide_eq_false hj, Bool.and_false]
      cases v.testBit i
      · exact Nat.zero_testBit j
      · exact hout
  rw [h, testBit_sub_and, Nat.testBit_two_pow]
  by_cases hk : k = i
  · subst hk
    simp only [decide_true, Bool.not_true, Bool.and_false, ne_eq, not_true_eq_false, decide_false]
  · rw [decide_eq_false (Ne.symm hk), decide_eq_true hk, Bool.not_false]

/-! ### Loops -/

theorem upTo_zero {α : Type} (f : Nat → α → α) (a : α) : upTo 0 f a = a := rfl

theorem upTo_succ {α : Type} (n : Nat) (f : Nat → α → α) (a : α) : upTo (n + 1) f a = f n (upTo n f a) := by
  simp [upTo, List.range_succ]

/-- A bounded loop whose rounds change nothing changes nothing. -/
theorem upTo_fixed {α : Type} {n : Nat} {f : Nat → α → α} {a : α} (h : ∀ i < n, f i a = a) : upTo n f a = a :=
  upTo_keeps (· = a) n f a rfl (fun i b hi hb => by rw [hb, h i hi])

/-! ### One field -/

theorem Dev.wr_plain (d : Dev) {f : Fld} (v : Nat) (hf : f.rws = false) :
    d.wr f v = { d with regs := Tab.put f.reset d.regs f.key (trunc f.width v) } := by
  simp [Dev.wr, hf]

/-- Two fields of which one has its register below the other's have different keys, whatever their index. -/
theorem RegDef.base_le_key (r : RegDef) (idx : List Nat) : r.base * 32 ≤ (r.at idx).key := by
  show r.base * 32 ≤ (r.base + weigh (r.dims.map Dim.astride) idx) * 32 + r.lowBit idx
  omega

theorem regsBut.refl (keys : List Nat) (d : Dev) : regsBut keys d d := fun _ _ => ⟨rfl, rfl⟩

theorem regsBut.wr {keys : List Nat} {d e : Dev} {f : Fld} (h : regsBut keys d e) (v : Nat) (hf : f.key ∈ keys) :
    regsBut keys d (e.wr f v) := by
  intro g hg
  have hne : g.key ≠ f.key := fun heq => hg (heq ▸ hf)
  rw [Dev.rd_wr_ne e v hne, Dev.rdS_wr_ne e v hne]
  exact h g hg

theorem regsBut.wrIf {keys : List Nat} {d e : Dev} {f : Fld} (h : regsBut keys d e) (b : Bool) (v : Nat) (hf : f.key ∈ keys) :
    regsBut keys d (e.wrIf b f v) := by
  cases b
  · exact h
  · exact h.wr v hf

theorem regsBut_wr (d : Dev) (f : Fld) (v : Nat) : regsBut [f.key] d (d.wr f v) := (regsBut.refl _ d).wr v (by simp)

/-- What a single write of a plain field leaves: the field's value, every other field, every other part of the device. -/
theorem wr_plain_spec (d : Dev) {f : Fld} (v : Nat) (hf : f.rws = false) :
    holds (d.wr f v) f v ∧ regsBut [f.key] d (d.wr f v) ∧ d.wr f v = { d with regs := (d.wr f v).regs } :=
  ⟨Dev.rd_wr_same d f v, regsBut_wr d f v, by rw [Dev.wr_plain d v hf]⟩

/-- Clearing bit `i` of a plain field: of the bits of the field's width only that one changes. -/
theorem testBit_rd_setBit_false (d : Dev) (f : Fld) (i : Nat) {k : Nat} (hk : k < f.width) :
    ((d.setBit f i false).rd f).testBit k = ((d.rd f).testBit k && decide (k ≠ i)) := by
  have h : (d.setBit f i false).rd f = trunc f.width (d.rd f - (if (d.rd f).testBit i then 2 ^ i else 0)) := Dev.rd_wr_same ..
  rw [h, trunc, Nat.testBit_mod_two_pow, testBit_sub_two_pow_if]
  simp [hk]

/-! ### Clearing counters -/

/-- Every listed field is written with 0. -/
def Dev.zeroAll (l : List Fld) (d : Dev) : Dev := l.foldl (fun d f => d.wr f 0) d

/-- A field that lives outside the shadow mechanism and is 0 after reset. -/
def Fld.counts (f : Fld) : Prop := f.rws = false ∧ f.reset = 0

theorem rd_wr_zero {d : Dev} {f g : Fld} (hf : f.counts) (hg : g.counts) (h : d.rd f = 0) : (d.wr g 0).rd f = 0 := by
  obtain ⟨hfr, hf0⟩ := hf
  obtain ⟨hgr, hg0⟩ := hg
  by_cases hk : f.key = g.key
  · simp [Dev.rd, Dev.wr, hfr, hgr, hf0, hg0, hk, trunc]
  · rw [Dev.rd_wr_ne d 0 hk, h]

theorem rd_zeroAll_of_zero {l : List Fld} {f : Fld} {d : Dev} (hl : ∀ g ∈ l, g.counts) (hf : f.counts) (h : d.rd f = 0) :
    (d.zeroAll l).rd f = 0 :=
  List.foldlRecOn l _ (motive := fun e : Dev => e.rd f = 0) h (fun _ he g hg => rd_wr_zero hf (hl g hg) he)

theorem rd_zeroAll {l : List Fld} (d : Dev) (hl : ∀ g ∈ l, g.counts) : ∀ f ∈ l, (d.zeroAll l).rd f = 0 := by
  induction l generalizing d with
  | nil => simp
  | cons g l ih =>
    have hrest : ∀ x ∈ l, x.counts := fun x hx => hl x (List.mem_cons_of_mem _ hx)
    have hg : g.counts := hl g (List.mem_cons_self ..)
    intro f hf
    rcases List.mem_cons.1 hf with rfl | hf
    · exact rd_zeroAll_of_zero (d := d.wr f 0) hrest hg (by simp [trunc])
    · exact ih (d.wr g 0) hrest f hf

theorem regsBut_zeroAll (l : List Fld) (d : Dev) : regsBut (keysOf l) d (d.zeroAll l) :=
  List.foldlRecOn l _ (motive := regsBut (keysOf l) d) (regsBut.refl _ d)
    (fun _ he _ hg => he.wr 0 (List.mem_map_of_mem hg))

theorem zeroAll_frame {l : List Fld} (d : Dev) (hl : ∀ g ∈ l, g.counts) : d.zeroAll l = { d with regs := (d.zeroAll l).regs } :=
  List.foldlRecOn l _ (motive := fun e : Dev => e = { d with regs := e.regs }) rfl (fun e he g hg => by
    rw [Dev.wr_plain e 0 (hl g hg).1]
    rw [he])

/-- Clearing a list of counters leaves them 0, and every other field and every other part of the device as it was. -/
theorem zeroAll_spec {l : List Fld} (d : Dev) (hl : ∀ g ∈ l, g.counts) :
    (∀ f ∈ l, (d.zeroAll l).rd f = 0) ∧ regsBut (keysOf l) d (d.zeroAll l) ∧ d.zeroAll l = { d with regs := (d.zeroAll l).regs } :=
  ⟨rd_zeroAll d hl, regsBut_zeroAll l d, zeroAll_frame d hl⟩

/-! ### Events -/

theorem Dev.rd_raise (d : Dev) (a b c : Nat) (l : List Nat) (p q : Bool) {g : Fld} (h : g.key ∉ eventKeys) :
    (d.raise a b c l p q).rd g = d.rd g := by
  simp only [eventKeys, keysOf, List.map_cons, List.map_nil, List.mem_cons, List.not_mem_nil, or_false, not_or] at h
  exact Dev.rd_raise_ne d a b c l p q h.1 h.2.1 h.2.2

theorem regsBut.raise {keys : List Nat} {d e : Dev} (h : regsBut keys d e) (a b c : Nat) (l : List Nat) (p q : Bool)
    (hk : ∀ k ∈ eventKeys, k ∈ keys) : regsBut keys d (e.raise a b c l p q) := by
  have hkeys : eventKeys = keysOf [Reg.TOP_EVT_SEQ.at [], Reg.TOP_MEM_UE.at [], Reg.TOP_EVT_DROPPED.at []] := rfl
  rw [hkeys] at hk
  have h1 := h.wr (f := Reg.TOP_EVT_SEQ.at []) (e.rd (Reg.TOP_EVT_SEQ.at []) + 1) (hk _ (by simp [keysOf]))
  have h2 := h1.wrIf (f := Reg.TOP_MEM_UE.at []) (memUeCodes.contains a) 1 (hk _ (by simp [keysOf]))
  exact h2.wrIf (f := Reg.TOP_EVT_DROPPED.at []) (decide (1024 ≤ e.events.store.length)) _ (hk _ (by simp [keysOf]))

theorem regsBut_raise (d : Dev) (a b c : Nat) (l : List Nat) (p q : Bool) : regsBut eventKeys d (d.raise a b c l p q) :=
  (regsBut.refl _ d).raise a b c l p q (fun _ h => h)

/-- The record that `raise` appends to the event store (R362). -/
def Dev.eventRecord (d : Dev) (code kind index : Nat) (args : List Nat) (froze retired : Bool) : EventRec :=
  ⟨code, froze, retired, false, severity code froze retired, d.rd (Reg.TOP_EVT_SEQ.at []), d.time, kind, index,
    trunc 16 (d.pipeFrame.getD 0), trunc 32 (args.getD 0 0), trunc 32 (args.getD 1 0), trunc 32 (args.getD 2 0)⟩

theorem raise_store (d : Dev) (a b c : Nat) (l : List Nat) (p q : Bool) :
    (d.raise a b c l p q).events.store =
      (if decide (1024 ≤ d.events.store.length) then dropLowest d.events.store else d.events.store) ++ [d.eventRecord a b c l p q] := rfl

theorem rd_seq_raise (d : Dev) (a b c : Nat) (l : List Nat) (p q : Bool) :
    (d.raise a b c l p q).rd (Reg.TOP_EVT_SEQ.at []) = (d.rd (Reg.TOP_EVT_SEQ.at []) + 1) % 2 ^ 32 := by
  unfold Dev.raise
  show (Dev.wrIf (Dev.wrIf (Dev.wr _ _ _) _ _ _) _ _ _).rd _ = _
  rw [Dev.rd_wrIf_ne _ _ _ (by decide), Dev.rd_wrIf_ne _ _ _ (by decide), Dev.rd_wr_same]
  rfl

/-- An event raised at `e`, which has the time and the sequence number of `d`, is the one event that a command at `d` raises. -/
theorem raised_raise {d e : Dev} (code kind index : Nat) (args : List Nat) (p q : Bool) (ht : e.time = d.time)
    (hs : e.rd (Reg.TOP_EVT_SEQ.at []) = d.rd (Reg.TOP_EVT_SEQ.at [])) : raised code kind index args d (e.raise code kind index args p q) :=
  ⟨e.eventRecord code kind index args p q, by simp [raise_store], rfl, rfl, rfl, rfl, rfl, rfl, ht, hs, by rw [rd_seq_raise, hs]⟩

/-- `raised` reads the event store and the sequence number of the device that results, and nothing else of it. -/
theorem raised.congr {code kind index : Nat} {args : List Nat} {d e e' : Dev} (h : raised code kind index args d e)
    (hev : e'.events = e.events) (hs : e'.rd (Reg.TOP_EVT_SEQ.at []) = e.rd (Reg.TOP_EVT_SEQ.at [])) : raised code kind index args d e' := by
  unfold raised at h ⊢
  rw [hev, hs]
  exact h

end Sys2Proof.Machine

/-! PROOFS. Reads that latch or step, and writes that clear or set one thing (R5, R8, R65, R194, R301, R444, R480). -/

namespace Sys2Proof.Machine

/-! ### A core that freezes (R102 to R105) -/

/-- Only cores, work counters, messages and the credits that the fabric holds change. -/
def onlyTraffic (d e : Dev) : Prop := e = { d with cores := e.cores, fabric := e.fabric, mcReturned := e.mcReturned, wcs := e.wcs }

theorem onlyTraffic.refl (d : Dev) : onlyTraffic d d := rfl

theorem onlyTraffic.trans {d e f : Dev} (h : onlyTraffic d e) (h' : onlyTraffic e f) : onlyTraffic d f := by
  unfold onlyTraffic at *
  rw [h', h]

theorem onlyTraffic.rd {d e : Dev} (h : onlyTraffic d e) (g : Fld) : e.rd g = d.rd g := by rw [h]; rfl

theorem onlyTraffic.events {d e : Dev} (h : onlyTraffic d e) : e.events = d.events := by rw [h]

theorem onlyTraffic.dedAt {d e : Dev} (h : onlyTraffic d e) : e.dedAt = d.dedAt := by rw [h]

/-- Messages for each item of a list change nothing but traffic. -/
theorem onlyTraffic_foldl {α : Type} (l : List α) (f : Dev → α → Dev) (d : Dev) (h : ∀ e x, onlyTraffic e (f e x)) :
    onlyTraffic d (l.foldl f d) :=
  List.foldlRecOn l f (motive := onlyTraffic d) (onlyTraffic.refl d) (fun e he x _ => he.trans (h e x))

theorem onlyTraffic.send {d e : Dev} (h : onlyTraffic d e) (a b : Node) (m : Body) : onlyTraffic d (e.send a b m) :=
  h.trans rfl

theorem onlyTraffic.onCore {d e : Dev} (h : onlyTraffic d e) (c : Nat) (f : Core → Core) : onlyTraffic d (e.onCore c f) :=
  h.trans rfl

theorem onlyTraffic_voidAnswers (d : Dev) (c : Nat) : onlyTraffic d (d.voidAnswers c) := rfl

theorem onlyTraffic_groupRelease (d : Dev) (g w r : Nat) : onlyTraffic d (d.groupRelease g w r) := by
  unfold Dev.groupRelease
  dsimp only
  split
  · exact onlyTraffic.refl d
  · split
    · exact onlyTraffic.refl d
    · refine onlyTraffic.send (onlyTraffic_foldl _ _ d fun e k => ?_) _ _ _
      exact rfl

theorem onlyTraffic_groupsGoOn (d : Dev) (c : Nat) : onlyTraffic d (d.groupsGoOn c) := by
  refine onlyTraffic_foldl _ _ d fun e x => ?_
  dsimp only
  split
  · exact onlyTraffic_groupRelease ..
  · exact onlyTraffic.refl e

theorem onlyTraffic_settle (d : Dev) (c : Nat) : onlyTraffic d (d.settle c) := by
  unfold Dev.settle
  extract_lets ready d1 d2 free d3 d4
  have h1 : onlyTraffic d d1 := by
    refine onlyTraffic_foldl _ _ d fun e w => ?_
    exact (onlyTraffic.refl e).send _ _ _
  have h2 : onlyTraffic d d2 := by
    simp only [d2]
    split
    · exact h1
    · exact h1.onCore _ _
  have h3 : onlyTraffic d d3 := by
    refine h2.trans (onlyTraffic_foldl _ _ d2 fun e w => ?_)
    exact (onlyTraffic.refl e).send _ _ _
  have h4 : onlyTraffic d d4 := by
    simp only [d4]
    split
    · exact h3
    · exact h3.onCore _ _
  split
  · refine (h4.onCore c _).trans (onlyTraffic_foldl _ _ _ fun e w => ?_)
    exact (onlyTraffic.refl e).send _ _ _
  · exact h4

theorem key_tstate_ne_mcState (c t : Nat) : (Reg.MC_STATE.at (cix c)).key ≠ (Reg.TASK_TSTATE.at (cix c [t])).key := by
  simp only [RegDef.at, RegDef.addr, RegDef.lowBit, Reg.MC_STATE, Reg.TASK_TSTATE, weigh, cix, List.map_cons, List.map_nil, List.cons_append, List.nil_append]
  omega

theorem haltCore_spec (d : Dev) (c state : Nat) :
    (d.haltCore c state).rd (Reg.MC_STATE.at (cix c)) = trunc 3 state ∧ (d.haltCore c state).events = d.events ∧
      (d.haltCore c state).dedAt = d.dedAt := by
  unfold Dev.haltCore
  extract_lets d1 d2 d3 d4
  have h2 : d2.rd (Reg.MC_STATE.at (cix c)) = trunc 3 state ∧ d2.events = d.events ∧ d2.dedAt = d.dedAt := by
    refine upTo_keeps (fun e : Dev => e.rd (Reg.MC_STATE.at (cix c)) = trunc 3 state ∧ e.events = d.events ∧ e.dedAt = d.dedAt) 8 _ d1
      ⟨Dev.rd_wr_same d _ state, rfl, rfl⟩ (fun t e _ ⟨hs, hv, hd⟩ => ⟨?_, hv, hd⟩)
    rw [Dev.setTstate, Dev.rd_wr_ne _ _ (key_tstate_ne_mcState c t), Dev.onTask_rd_eq]
    exact hs
  have h4 : onlyTraffic d2 d4 :=
    (((onlyTraffic.refl d2).onCore c _).trans (onlyTraffic_voidAnswers d3 c)).trans (onlyTraffic_groupsGoOn _ c)
  clear_value d4
  obtain ⟨hs, hv, hd⟩ := h2
  exact ⟨(h4.rd _).trans hs, h4.events.trans hv, h4.dedAt.trans hd⟩

/-- What the freeze of a core shows: its state, the fault's code, the event; the record of double-bit errors is as it was. -/
theorem freezeCore_spec (d : Dev) (c code t pc : Nat) (hup : d.coreUp c = true) :
    (d.freezeCore c code t pc).rd (Reg.MC_STATE.at (cix c)) = 3 ∧
    (d.freezeCore c code t pc).rd (Reg.MC_FAULT_CODE.at (cix c)) = code % 2 ^ 8 ∧ (d.freezeCore c code t pc).dedAt = d.dedAt ∧
    ∃ r ∈ (d.freezeCore c code t pc).events.store, r.code = 0x0100 + code ∧ r.kind = 0 ∧ r.index = c := by
  have key (a b : RegDef) (ha : a.dims = Reg.MC_STATE.dims) (hb : b.dims = Reg.MC_STATE.dims) (hl : a.base * 32 + a.lo ≠ b.base * 32 + b.lo) :
      (a.at (cix c)).key ≠ (b.at (cix c)).key := by
    simp only [RegDef.at, RegDef.addr, RegDef.lowBit, ha, hb, Reg.MC_STATE, List.map_cons, List.map_nil]
    omega
  have hev {r : RegDef} (hr : 0x1000000 ≤ r.base) : (r.at (cix c)).key ∉ eventKeys := by
    have hle := r.base_le_key (cix c)
    have hsmall : ∀ k ∈ eventKeys, k < 0x1000000 * 32 := by decide
    intro hm
    have := hsmall _ hm
    omega
  unfold Dev.freezeCore
  rw [if_neg (by simp [hup])]
  extract_lets d1 d2 d3 d4 d5
  obtain ⟨hs, hv, hd⟩ := haltCore_spec d1 c mcFrozen
  have hd1 : d1.dedAt = d.dedAt := by simp only [d1]; split <;> rfl
  have ht := onlyTraffic_settle (d5.raise (0x0100 + code) 0 c [code + t * 256 + pc * 65536, d5.rd (Reg.TASK_LAUNCH.at (cix c [t]))] true) c
  refine ⟨?_, ?_, ?_, ?_⟩
  · rw [ht.rd, Dev.rd_raise _ _ _ _ _ _ _ (hev (by decide))]
    calc d5.rd (Reg.MC_STATE.at (cix c)) = d4.rd (Reg.MC_STATE.at (cix c)) := Dev.rd_wr_ne d4 pc (key _ _ rfl rfl (by decide))
      _ = d3.rd (Reg.MC_STATE.at (cix c)) := Dev.rd_wr_ne d3 t (key _ _ rfl rfl (by decide))
      _ = d2.rd (Reg.MC_STATE.at (cix c)) := Dev.rd_wr_ne d2 code (key _ _ rfl rfl (by decide))
      _ = 3 := hs
  · rw [ht.rd, Dev.rd_raise _ _ _ _ _ _ _ (hev (by decide))]
    calc d5.rd (Reg.MC_FAULT_CODE.at (cix c)) = d4.rd (Reg.MC_FAULT_CODE.at (cix c)) := Dev.rd_wr_ne d4 pc (key _ _ rfl rfl (by decide))
      _ = d3.rd (Reg.MC_FAULT_CODE.at (cix c)) := Dev.rd_wr_ne d3 t (key _ _ rfl rfl (by decide))
      _ = code % 2 ^ 8 := Dev.rd_wr_same d2 _ code
  · rw [ht.dedAt, Dev.raise_dedAt]
    exact hd.trans hd1
  · rw [ht.events, raise_store]
    exact ⟨_, List.mem_append_right _ (List.mem_singleton_self _), rfl, rfl, rfl⟩

/-- The first double-bit error in a core's own memories freezes the core and does not retire it (R376). -/
theorem freezeDed_first (d : Dev) (c t pc : Nat) (hpad : d.padDed = false) (hup : d.coreUp c = true) (hfirst : d.dedAt = []) :
    d.freezeDed c t pc = { d.freezeCore c 9 t pc with dedAt := [(c, (d.freezeCore c 9 t pc).time)] } := by
  obtain ⟨-, -, hd, -⟩ := freezeCore_spec d c 9 t pc hup
  rw [hfirst] at hd
  simp [Dev.freezeDed, hpad, Dev.secondDed, hd]

/-! ### Reads that latch or step -/

@[simp] theorem Dev.answer_rd_eq (d : Dev) (v : Nat) (g : Fld) : (d.answer v).rd g = d.rd g := rfl

theorem regsBut.answer {keys : List Nat} {d e : Dev} (h : regsBut keys d e) (v : Nat) : regsBut keys d (e.answer v) := h

/-- A read of the low half of a 64-bit value answers it and latches the high half. -/
theorem latch_spec (d : Dev) {f : Fld} (x : Nat) (hf : f.rws = false) :
    let e := (d.wr f (x / 2 ^ 32)).answer (x % 2 ^ 32)
    holds e f (x / 2 ^ 32) ∧ e.host.lastRead = x % 2 ^ 32 ∧ regsBut [f.key] d e ∧
      e = { d with regs := e.regs, host := { d.host with lastRead := x % 2 ^ 32 } } :=
  ⟨Dev.rd_wr_same d f _, rfl, regsBut_wr d f _, by rw [Dev.wr_plain d _ hf]; rfl⟩

theorem nine_mul_cix (c : Nat) : 9 * (cix c).getD 0 0 + (cix c).getD 1 0 = c := by
  simp [cix]
  omega

/-- CURVE_DATA shows the entry that CURVE_ADDR points at (R64). -/
theorem derived_curveData (d : Dev) (c : Nat) :
    d.derived .mcCurveData (cix c) = (Tab.get (0 : Word) (d.core c).curve (d.rd (Reg.MC_CURVE_ADDR.at (cix c)))).toNat := by
  simp only [Dev.derived, nine_mul_cix]

theorem key_eccCorr_ne_curveAddr (c : Nat) : (Reg.MC_ECC_CORR.at (cix c)).key ≠ (Reg.MC_CURVE_ADDR.at (cix c)).key := by
  simp only [RegDef.at, RegDef.addr, RegDef.lowBit, Reg.MC_ECC_CORR, Reg.MC_CURVE_ADDR, weigh, cix, List.map_cons, List.map_nil, List.cons_append, List.nil_append]
  omega

/-! The meanings of the commands of this family. -/

theorem exec_tbLoRead (s : State) : exec .tbLoRead s = execTbLoRead s := rfl

theorem exec_macLoRead (c : Fin 72) (s : State) : exec (.macLoRead c) s = execMacLoRead c s := rfl

theorem exec_bytesLoRead (u : Fin 128) (s : State) : exec (.bytesLoRead u) s = execBytesLoRead u s := rfl

theorem exec_zoneLtLoRead (s : State) : exec .zoneLtLoRead s = execZoneLtLoRead s := rfl

theorem exec_curveDataRead (c : Fin 72) (s : State) : exec (.curveDataRead c) s = execCurveDataRead c s := rfl

theorem exec_sigRead (o : Fin 2) (r : Fin 16) (s : State) : exec (.sigRead o r) s = execSigRead o r s := rfl

theorem exec_mcCntClear (c : Fin 72) (s : State) : exec (.mcCntClear c) s = execMcCntClear c s := rfl

theorem exec_suCntClear (u : Fin 128) (s : State) : exec (.suCntClear u) s = execSuCntClear u s := rfl

theorem exec_clCntClear (n : Fin 8) (s : State) : exec (.clCntClear n) s = execClCntClear n s := rfl

theorem exec_ddrCntClear (s : State) : exec .ddrCntClear s = execDdrCntClear s := rfl

theorem exec_inCntClear (m : Fin 4) (s : State) : exec (.inCntClear m) s = execInCntClear m s := rfl

theorem exec_peakClear (s : State) : exec .peakClear s = execPeakClear s := rfl

theorem exec_start (o : Fin 2) (s : State) : exec (.start o) s = execStart o s := rfl

theorem exec_forceBg (o : Fin 2) (on : Bool) (s : State) : exec (.forceBg o on) s = execForceBg o on s := rfl

theorem exec_forceGuard (mask : BitVec 16) (s : State) : exec (.forceGuard mask) s = execForceGuard mask s := rfl

theorem exec_gforced (o : Fin 2) (r : Fin 16) (s : State) : exec (.gforced o r) s = execGforced o r s := rfl

theorem exec_wbOwn (o : Fin 2) (mask : BitVec 4) (s : State) : exec (.wbOwn o mask) s = execWbOwn o mask s := rfl

section
variable {s : State} (c : Fin 72) (h : s.dev.held = false) (ho : s.dev.hostOpen = true)
include h ho

/-- A read of CURVE_DATA that meets no double-bit error answers the entry, steps CURVE_ADDR and corrects a single-bit error. -/
theorem curveDataRead_good (hm : Tab.get 0 (s.dev.core c).ecc (0x20000 + s.dev.rd (Reg.MC_CURVE_ADDR.at (cix c))) < 2) :
    completes (.curveDataRead c) s (fun e =>
      e.host.lastRead = (Tab.get (0 : Word) (s.dev.core c).curve (s.dev.rd (Reg.MC_CURVE_ADDR.at (cix c)))).toNat ∧
      counted (Reg.MC_CURVE_ADDR.at (cix c)) s.dev e ∧ regsBut (keysOf [Reg.MC_CURVE_ADDR.at (cix c), Reg.MC_ECC_CORR.at (cix c)]) s.dev e ∧
      e.rd (Reg.MC_ECC_CORR.at (cix c)) = (if Tab.get 0 (s.dev.core c).ecc (0x20000 + s.dev.rd (Reg.MC_CURVE_ADDR.at (cix c))) = 1 then 1
        else s.dev.rd (Reg.MC_ECC_CORR.at (cix c)))) := by
  refine completes_readHost (exec_curveDataRead c s) h ho ?_
  have hne := key_eccCorr_ne_curveAddr c
  generalize hd : s.dev = d at *
  generalize hmark : Tab.get 0 (d.core c).ecc (0x20000 + d.rd (Reg.MC_CURVE_ADDR.at (cix c))) = m at *
  dsimp only
  rw [derived_curveData, hmark, if_neg (by omega : ¬ m = 2)]
  have hone : trunc (Reg.MC_ECC_CORR.at (cix c)).width 1 = 1 := rfl
  generalize Reg.MC_CURVE_ADDR.at (cix c) = f at *
  generalize Reg.MC_ECC_CORR.at (cix c) = g at *
  have hinc : counted f d (d.inc f) := Dev.rd_wr_same ..
  have hstep : regsBut (keysOf [f, g]) d (d.inc f) := (regsBut.refl _ d).wr _ (by simp [keysOf])
  by_cases h1 : m = 1
  · rw [if_pos h1, if_pos h1]
    exact ⟨rfl, (Dev.rd_wr_ne (d.inc f) 1 hne.symm).trans hinc, (hstep.wr (f := g) 1 (by simp [keysOf])).answer _,
      (Dev.rd_wr_same (d.inc f) g 1).trans hone⟩
  · rw [if_neg h1, if_neg h1]
    exact ⟨rfl, hinc, hstep.answer _, Dev.rd_wr_ne d _ hne⟩

/-- A read of CURVE_DATA that meets a double-bit error, the first of the core's memories, faults ECC_DED (log 145). -/
theorem curveDataRead_ded (hm : Tab.get 0 (s.dev.core c).ecc (0x20000 + s.dev.rd (Reg.MC_CURVE_ADDR.at (cix c))) = 2)
    (hup : s.dev.coreUp c = true) (hfirst : s.dev.dedAt = []) :
    completes (.curveDataRead c) s (fun e => e.rd (Reg.MC_STATE.at (cix c)) = 3 ∧ e.rd (Reg.MC_FAULT_CODE.at (cix c)) = 9 ∧
      ∃ r ∈ e.events.store, r.code = 0x0109 ∧ r.kind = 0 ∧ r.index = c) := by
  refine completes_readHost (exec_curveDataRead c s) h ho ?_
  have hne : (Reg.MC_STATE.at (cix c)).key ≠ (Reg.MC_CURVE_ADDR.at (cix c)).key := by
    simp only [RegDef.at, RegDef.addr, RegDef.lowBit, Reg.MC_STATE, Reg.MC_CURVE_ADDR, weigh, cix, List.map_cons, List.map_nil, List.cons_append, List.nil_append]
    omega
  dsimp only
  rw [if_pos hm]
  generalize hd1 : (s.dev.inc (Reg.MC_CURVE_ADDR.at (cix c))).padOk = d1
  have hstate : d1.mcState c = s.dev.mcState c := by
    rw [← hd1]
    exact Dev.rd_wr_ne s.dev _ hne
  have hup1 : d1.coreUp c = true := by
    rw [Dev.coreUp, hstate]
    exact hup
  have hpad : d1.padDed = false := by rw [← hd1]; rfl
  have hfirst1 : d1.dedAt = [] := by rw [← hfirst, ← hd1]; rfl
  rw [freezeDed_first d1 c _ _ hpad hup1 hfirst1]
  obtain ⟨hs, hf, -, hr⟩ := freezeCore_spec d1 c 9 ((s.dev.inc (Reg.MC_CURVE_ADDR.at (cix c))).rd (Reg.MC_TASK.at (cix c)))
    ((s.dev.inc (Reg.MC_CURVE_ADDR.at (cix c))).rd
      (Reg.TASK_PC.at (cix c [(s.dev.inc (Reg.MC_CURVE_ADDR.at (cix c))).rd (Reg.MC_TASK.at (cix c))]))) hup1
  exact ⟨hs, hf, hr⟩

/-- SIG_READ answers the signature, latches its frame and holds the region's signature (R301). -/
theorem sigRead_spec (o : Fin 2) (r : Fin 16) :
    completes (.sigRead o r) s (fun e => e.host.lastRead = s.dev.rd (Reg.WL_SIG.at [o.val, r.val]) ∧
      holds e (Reg.WL_SIG_FRAME.at [o.val, r.val]) (Tab.get 0 (s.dev.out o).sigFrame r) ∧
      r.val ∈ (e.out o).sigHeld ∧ (∀ k, k ≠ r.val → (k ∈ (e.out o).sigHeld ↔ k ∈ (s.dev.out o).sigHeld)) ∧
      regsBut [(Reg.WL_SIG_FRAME.at [o.val, r.val]).key] s.dev e) := by
  refine completes_readHost (exec_sigRead o r s) h ho ?_
  have hne : (Reg.WL_SIG.at [o.val, r.val]).key ≠ (Reg.WL_SIG_FRAME.at [o.val, r.val]).key := by
    simp only [RegDef.at, RegDef.addr, RegDef.lowBit, Reg.WL_SIG, Reg.WL_SIG_FRAME, weigh, List.map_cons, List.map_nil]
    omega
  dsimp only
  generalize Reg.WL_SIG_FRAME.at [o.val, r.val] = f at *
  generalize Tab.get 0 (s.dev.out o).sigFrame r = x
  have hheld : (((s.dev.wr f x).onOut o (fun q => { q with sigHeld := r.val :: q.sigHeld.filter (fun i => i != r.val) })).out o).sigHeld =
      r.val :: (s.dev.out o).sigHeld.filter (fun i => i != r.val) := by
    simp [Dev.out, Dev.onOut]
  refine ⟨Dev.rd_wr_ne s.dev x hne, Dev.rd_wr_same s.dev f x, ?_, fun k hk => ?_, regsBut_wr s.dev f x⟩
  · exact hheld ▸ List.mem_cons_self ..
  · have : k ∈ r.val :: (s.dev.out o).sigHeld.filter (fun i => i != r.val) ↔ k ∈ (s.dev.out o).sigHeld := by simp [hk]
    exact hheld ▸ this

/-- A write of a 1 to bits of WB_OWN takes those buffers back from the host (R280). -/
theorem wbOwn_spec (o : Fin 2) (wb : BitVec 4) :
    completes (.wbOwn o wb) s (fun e =>
      (∀ i < 4, (e.rd (Reg.CMP_WB_OWN.at [o.val])).testBit i = ((s.dev.rd (Reg.CMP_WB_OWN.at [o.val])).testBit i && !wb.getLsbD i)) ∧
      regsBut [(Reg.CMP_WB_OWN.at [o.val]).key] s.dev e ∧ e = { s.dev with regs := e.regs }) := by
  refine completes_actHost (exec_wbOwn o wb s) h ho ?_
  have hrws : (Reg.CMP_WB_OWN.at [o.val]).rws = false := rfl
  have hwidth : (Reg.CMP_WB_OWN.at [o.val]).width = 4 := rfl
  generalize Reg.CMP_WB_OWN.at [o.val] = f at *
  let giveBack (i : Nat) (d : Dev) : Dev := if wb.getLsbD i then d.setBit f i false else d
  have hbits (n k : Nat) (hk : k < 4) :
      ((upTo n giveBack s.dev).rd f).testBit k = ((s.dev.rd f).testBit k && !(wb.getLsbD k && decide (k < n))) := by
    induction n with
    | zero => simp [upTo_zero]
    | succ n ih =>
      rw [upTo_succ]
      simp only [giveBack]
      split
      · rw [testBit_rd_setBit_false _ _ _ (hwidth ▸ hk), ih]
        grind
      · rw [ih]
        grind
  refine ⟨fun i hi => ?_, ?_, ?_⟩
  · rw [hbits 4 i hi]
    simp [hi]
  · refine upTo_keeps (regsBut [f.key] s.dev) 4 giveBack s.dev (regsBut.refl _ _) (fun i e _ he => ?_)
    simp only [giveBack]
    split
    · exact he.wr _ (by simp)
    · exact he
  · refine upTo_keeps (fun e : Dev => e = { s.dev with regs := e.regs }) 4 giveBack s.dev rfl (fun i e _ he => ?_)
    simp only [giveBack]
    split
    · rw [Dev.setBit, Dev.wr_plain _ _ hrws]
      rw [he]
    · exact he

end

/-! ### The registers and counters of the statement -/

@[simp] theorem Dev.su_onSu_same (d : Dev) (u : Nat) (f : Su → Su) : (d.onSu u f).su u = f (d.su u) := Tab.get_modify_same ..

theorem Dev.su_onSu_ne (d : Dev) {u j : Nat} (f : Su → Su) (h : j ≠ u) : (d.onSu u f).su j = d.su j := Tab.get_modify_ne _ _ _ h

@[simp] theorem Dev.out_onOut_same (d : Dev) (o : Nat) (f : OutSt → OutSt) : (d.onOut o f).out o = f (d.out o) := Tab.get_modify_same ..

theorem Dev.out_onOut_ne (d : Dev) {o j : Nat} (f : OutSt → OutSt) (h : j ≠ o) : (d.onOut o f).out j = d.out j := Tab.get_modify_ne _ _ _ h

/-- TOP_ID is the only field of its word, and fixed (R5). -/
theorem readWord_topId (d : Dev) : d.readWord 0 = 0x0DF87201 := by
  have hfields : fieldsAt 0 = [(Reg.TOP_ID, [])] := by decide +kernel
  simp [Dev.readWord, hfields, Dev.hostReaches, earlyBlock, Dev.readField, Reg.TOP_ID, RegDef.at, RegDef.lowBit, weigh, Rst.value]

/-- The counters that CL_CNT_CLEAR clears (R225). -/
def clusterCounters (n : Nat) : List Fld :=
  [Reg.CL_SC_HIT.at [n], Reg.CL_SC_MISS.at [n], Reg.CL_RING_BYTES.at [n]] ++
    (List.range 32).flatMap (fun w => [Reg.CL_WC_EXPIRED.at [n, w], Reg.CL_WC_DISCARDED.at [n, w]])

theorem clusterCounters_counts (n : Nat) : ∀ f ∈ clusterCounters n, f.counts := by
  intro f hf
  simp only [clusterCounters, List.mem_append, List.mem_cons, List.not_mem_nil, or_false, List.mem_flatMap] at hf
  rcases hf with (rfl | rfl | rfl) | ⟨w, _, rfl | rfl⟩ <;> exact ⟨rfl, rfl⟩

theorem zeroAll_clusterCounters (d : Dev) (n : Nat) :
    d.zeroAll (clusterCounters n) = upTo 32 (fun w d => (d.wr (Reg.CL_WC_EXPIRED.at [n, w]) 0).wr (Reg.CL_WC_DISCARDED.at [n, w]) 0)
      (((d.wr (Reg.CL_SC_HIT.at [n]) 0).wr (Reg.CL_SC_MISS.at [n]) 0).wr (Reg.CL_RING_BYTES.at [n]) 0) := by
  simp [Dev.zeroAll, clusterCounters, upTo, List.foldl_flatMap]

/-- Settles O46: each read and each write of the statement is one write of a plain field, a list of counters that are cleared, or a read with a lemma of its own. -/
theorem readsAndWrites : Obligations.ReadsAndWrites := by
  intro s c u n m o r on guard wb h
  refine ⟨readWord_topId _, completes_act (exec_tbLoRead s) h (latch_spec _ _ rfl), fun ho => ?_⟩
  have hset (f : Fld) (x : Nat) (hf : f.rws = false) := wr_plain_spec s.dev (f := f) x hf
  refine ⟨completes_readHost (exec_macLoRead c s) h ho (latch_spec _ _ rfl), completes_readHost (exec_bytesLoRead u s) h ho (latch_spec _ _ rfl),
    completes_readHost (exec_zoneLtLoRead s) h ho (latch_spec _ _ rfl), curveDataRead_good c h ho,
    fun hm hup hfirst _ => curveDataRead_ded c h ho hm hup hfirst, sigRead_spec h ho o r, ?_⟩
  refine ⟨completes_actHost (exec_mcCntClear c s) h ho ?_, completes_actHost (exec_suCntClear u s) h ho ?_,
    completes_actHost (exec_clCntClear n s) h ho ?_, completes_actHost (exec_ddrCntClear s) h ho ?_,
    completes_actHost (exec_inCntClear m s) h ho ?_, completes_actHost (exec_peakClear s) h ho (hset _ _ rfl), completes_actHost (exec_start o s) h ho ?_,
    completes_actHost (exec_forceBg o on s) h ho (hset _ _ rfl), completes_actHost (exec_forceGuard guard s) h ho (hset _ _ rfl),
    completes_actHost (exec_gforced o r s) h ho (hset _ _ rfl), wbOwn_spec h ho o wb⟩
  · obtain ⟨hz, hb, hf⟩ := zeroAll_spec (l := [Reg.MC_SP_ACCESS.at (cix c), Reg.MC_BUSY.at (cix c)]) (s.dev.onCore c (fun k => { k with mac := 0 })) (by
      intro g hg; simp at hg; rcases hg with rfl | rfl <;> exact ⟨rfl, rfl⟩)
    exact ⟨by simp, fun j hj => by simp [Dev.core_onCore_ne _ _ hj], ⟨hz, hb⟩, hf⟩
  · obtain ⟨hz, hb, hf⟩ := zeroAll_spec (l := [Reg.SU_MVCLAMP_CNT.at (six u), Reg.SU_LATE_CNT.at (six u)]) (s.dev.onSu u (fun q => { q with bytes := 0 })) (by
      intro g hg; simp at hg; rcases hg with rfl | rfl <;> exact ⟨rfl, rfl⟩)
    exact ⟨by simp, fun j hj => by simp [Dev.su_onSu_ne _ _ hj], ⟨hz, hb⟩, hf⟩
  · obtain ⟨hz, hb, hf⟩ := zeroAll_spec s.dev (clusterCounters_counts n)
    rw [zeroAll_clusterCounters] at hz hb hf
    exact ⟨⟨hz, hb⟩, hf⟩
  · obtain ⟨hz, hb, hf⟩ := zeroAll_spec (l := [Reg.DDR_ECC_CE_CNT.at [], Reg.DDR_ECC_UE_CNT.at [], Reg.DDR_REF_POSTPONED.at [], Reg.DDR_HIT_PROMOTED.at []]) s.dev (by
      intro g hg; simp at hg; rcases hg with rfl | rfl | rfl | rfl <;> exact ⟨rfl, rfl⟩)
    exact ⟨⟨hz, hb⟩, hf⟩
  · obtain ⟨hz, hb, hf⟩ := zeroAll_spec (l := [Reg.IN_FRAMES_RX.at [m.val], Reg.IN_DISCARDED.at [m.val], Reg.IN_LINK_ERRS.at [m.val]]) s.dev (by
      intro g hg; simp at hg; rcases hg with rfl | rfl | rfl <;> exact ⟨rfl, rfl⟩)
    exact ⟨⟨hz, hb⟩, hf⟩
  · exact ⟨by simp, fun j hj => Dev.out_onOut_ne _ _ hj, rfl⟩

end Sys2Proof.Machine

/-! PROOFS. BAR2 (R157, R234, R298, R369, R389, R390, R421): what a write and a read of the window do. -/

namespace Sys2Proof.Machine

/-! ### Tables and lists -/

theorem Tab.get_map {α β : Type} (f : α → β) (d : α) (t : Tab α) (k : Nat) :
    Tab.get (f d) (t.map (fun e => (e.1, f e.2))) k = f (Tab.get d t k) := by
  have h : Tab.find (t.map (fun e => (e.1, f e.2))) k = (Tab.find t k).map f := by
    induction t with
    | nil => rfl
    | cons e t ih =>
      obtain ⟨j, v⟩ := e
      simp only [List.map_cons, Tab.find]
      split
      · rfl
      · exact ih
  unfold Tab.get
  rw [h]
  cases Tab.find t k <;> rfl

/-- A loop over a list whose rounds change nothing changes nothing. -/
theorem foldl_fixed {α β : Type} {f : α → β → α} {a : α} (l : List β) (h : ∀ x ∈ l, f a x = a) : l.foldl f a = a :=
  List.foldlRecOn l f (motive := (· = a)) rfl (fun _ hb x hx => by rw [hb, h x hx])

/-! ### What accesses of LPDDR6 leave alone -/

@[simp] theorem Dev.ddrLast_mem (d : Dev) (a : Nat) (ue : Bool) : (d.ddrLast a ue).mem = d.mem := rfl

@[simp] theorem Dev.ddrCorrect_mem (d : Dev) (a : Nat) : (d.ddrCorrect a).mem = d.mem := by
  unfold Dev.ddrCorrect
  extract_lets ch d1 d2 due
  have h2 : d2.mem = d.mem := Dev.ddrLast_mem ..
  split
  · rw [Dev.raise_mem, Dev.onChan_mem, h2]
  · exact h2

theorem Dev.ddrCheck_mem (d : Dev) (a n kind index : Nat) : (d.ddrCheck a n kind index).2.mem = d.mem := by
  unfold Dev.ddrCheck
  split
  · rfl
  · extract_lets r
    have hr : r.2.mem = d.mem := by
      refine List.foldlRecOn _ _ (motive := fun acc : List Nat × Dev => acc.2.mem = d.mem) rfl fun acc hacc w _ => ?_
      dsimp only
      split
      · exact (Dev.ddrCorrect_mem ..).trans hacc
      · split
        · exact (Dev.ddrLast_mem ..).trans hacc
        · exact hacc
    split
    · exact hr
    · exact (Dev.raise_mem ..).trans hr

theorem Dev.markWords_mem (d : Dev) (a n : Nat) (bad : List Nat) : (d.markWords a n bad).mem = d.mem := by
  unfold Dev.markWords
  extract_lets d1
  have h1 : d1.mem = d.mem := by
    simp only [d1]
    split
    · rfl
    · refine List.foldlRecOn _ _ (motive := fun e : Dev => e.mem = d.mem) rfl fun e he w _ => ?_
      split
      · exact he
      · exact he
  exact List.foldlRecOn _ _ (motive := fun e : Dev => e.mem = d.mem) h1 fun e he _ _ => he

/-- A write of LPDDR6 stores its bytes, whatever its checks correct before (R191). -/
theorem Dev.ddrWrite_mem (d : Dev) (a : Nat) (bs : Bytes) (bad : List Nat) (kind index : Nat) :
    (d.ddrWrite a bs bad kind index).mem = (d.setBytes a bs).mem := by
  unfold Dev.ddrWrite
  extract_lets d1
  have h1 : d1.mem = d.mem := by
    simp only [d1]
    split
    · rfl
    · exact List.foldlRecOn _ _ (motive := fun e : Dev => e.mem = d.mem) rfl fun e he g _ => (Dev.ddrCheck_mem ..).trans he
  rw [Dev.markWords_mem]
  show Tab.putList 0 d1.mem a bs = _
  rw [h1]
  rfl

/-- A write of sound bytes where no memory has an ECC error only stores them. -/
theorem Dev.ddrWrite_clean (d : Dev) (a : Nat) (bs : Bytes) (kind index : Nat) (hecc : d.ecc = []) :
    d.ddrWrite a bs [] kind index = d.setBytes a bs := by
  simp [Dev.ddrWrite, Dev.markWords, hecc]

/-! ### Channel queues -/

/-- Of the device only channel queues and the accounts of model energy change. -/
def onlyQueues (d e : Dev) : Prop := e = { d with ddr := e.ddr, power := e.power } ∧ onlyEnergy d e

theorem onlyQueues.onChan {d e : Dev} (h : onlyQueues d e) (ch : Nat) (f : Ddr → Ddr) : onlyQueues d (e.onChan ch f) := by
  obtain ⟨hf, hp⟩ := h
  refine ⟨?_, hp⟩
  rw [Dev.onChan, hf]

theorem onlyQueues_spend (d : Dev) (p : Option Nat) (core : Bool) (fj : Nat) : onlyQueues d (d.spend p core fj) := by
  refine ⟨rfl, ?_⟩
  cases p with
  | none => rfl
  | some p => cases core <;> rfl

theorem onlyQueues_askReads (d : Dev) (m dl : Nat) (crit : Bool) (a n : Nat) : onlyQueues d (d.askReads m dl crit a n) :=
  List.foldlRecOn _ _ (motive := onlyQueues d) (onlyQueues_spend ..) fun _ he _ _ => he.onChan _ _

theorem onlyQueues_askWrites (d : Dev) (m dl a n : Nat) : onlyQueues d (d.askWrites m dl a n) :=
  List.foldlRecOn _ _ (motive := onlyQueues d) (onlyQueues_spend ..) fun _ he _ _ => he.onChan _ _

theorem onlyQueues.acceptHost {d e : Dev} (h : onlyQueues d e) : onlyQueues d e.acceptHost := by
  obtain ⟨hf, hp⟩ := h
  refine ⟨?_, hp⟩
  rw [Dev.acceptHost, hf]

theorem Ddr.acceptHost_waitWrites (q : Ddr) : ∀ w ∈ q.acceptHost.waitWrites, w.master ≠ hostMaster := by
  unfold Ddr.acceptHost
  extract_lets mine
  split
  next hnone =>
    intro w hw heq
    simp only [mine, List.isEmpty_iff, List.filter_eq_nil_iff, decide_eq_true_eq] at hnone
    exact hnone w hw heq
  next =>
    intro w hw
    simpa using (List.mem_filter.1 hw).2

/-- Once the controller has accepted the host's writes none of them waits for a place (R390). -/
theorem chan_acceptHost (d : Dev) (ch : Nat) : d.acceptHost.chan ch = (d.chan ch).acceptHost :=
  Tab.get_map Ddr.acceptHost {} d.ddr ch

/-! ### Writes -/

theorem exec_bar2Write (off : Nat) (data : Bytes) (s : State) : exec (.bar2Write off data) s = execBar2Write off data s := rfl

theorem exec_bar2Read (off len : Nat) (s : State) : exec (.bar2Read off len) s = execBar2Read off len s := rfl

/-- The window is open to the host (R369, R421). -/
def Dev.bar2Open (d : Dev) : Prop := d.hostOpen = true ∧ d.rd (Reg.TOP_FROZEN_BAR2.at []) = 0

/-- `n` bytes from an offset on lie in the BAR. -/
def Dev.inBar2At (d : Dev) (off n : Nat) : Prop := 0 < n ∧ off + n ≤ 2 ^ d.host.bar2Log2

theorem bar2_shut_iff (d : Dev) : (!d.hostOpen || d.bit (Reg.TOP_FROZEN_BAR2.at [])) = true ↔ ¬ d.bar2Open := by
  cases h : d.hostOpen <;> simp [Dev.bar2Open, Dev.bit, h]

theorem inBar2_iff (d : Dev) (off n : Nat) : d.inBar2 off n = true ↔ d.inBar2At off n := by
  simp [Dev.inBar2, Dev.inBar2At]

/-- An address that a BAR2 write may write: LPDDR6 outside the image in force (R234, R389). -/
def Dev.bar2Writable (d : Dev) (x : Nat) : Prop :=
  d.region x = .ddr ∧ ¬ (d.activeImage.1 ≤ x ∧ x < d.activeImage.1 + d.activeImage.2)

theorem overlap_activeImage (d : Dev) (x : Nat) :
    overlap (x, 1) d.activeImage = true ↔ d.activeImage.1 ≤ x ∧ x < d.activeImage.1 + d.activeImage.2 := by
  simp only [overlap, Bool.and_eq_true, decide_eq_true_eq]
  generalize d.activeImage = r
  omega

/-- What a write meets, by the region it falls into and whether it falls into the image in force. -/
def bar2CodeOf (r : Region) (inImage : Bool) : Nat :=
  match r with
  | .ddr => if inImage then 0x0910 else 0
  | .lantern _ => 0x0420
  | _ => 0x0710

/-- The definition is unfolded as a function, not at an address: the kernel then compares two functions, and never evaluates `region`, whose
product with 2 ^ 30 it would unfold one by one. -/
theorem bar2Code_region {d : Dev} {x : Nat} {r : Region} (hr : d.region x = r) :
    d.bar2Code x = bar2CodeOf r (overlap (x, 1) d.activeImage) := by
  have hdef : Dev.bar2Code = Dev.bar2Code := rfl
  conv at hdef => rhs; delta Dev.bar2Code
  rw [hdef]
  dsimp only
  rw [hr]
  cases r <;> rfl

theorem bar2Code_image {d : Dev} {x : Nat} (hr : d.region x = .ddr)
    (hi : d.activeImage.1 ≤ x ∧ x < d.activeImage.1 + d.activeImage.2) : d.bar2Code x = 0x0910 := by
  rw [bar2Code_region hr]
  exact if_pos ((overlap_activeImage d x).2 hi)

theorem bar2Code_lantern {d : Dev} {x z : Nat} (hr : d.region x = .lantern z) : d.bar2Code x = 0x0420 := bar2Code_region hr

theorem bar2Code_other {d : Dev} {x : Nat} (hr : d.region x ≠ .ddr) (hl : ∀ z, d.region x ≠ .lantern z) : d.bar2Code x = 0x0710 := by
  generalize hx : d.region x = r at hr hl
  rw [bar2Code_region hx]
  cases r with
  | ddr => exact absurd rfl hr
  | lantern z => exact absurd rfl (hl z)
  | sp | lineBuf | beacon | host | unmapped => rfl

theorem bar2Code_writable {d : Dev} {x : Nat} (hw : d.bar2Writable x) : d.bar2Code x = 0 := by
  obtain ⟨hr, hi⟩ := hw
  rw [bar2Code_region hr]
  exact if_neg (fun h => hi ((overlap_activeImage d x).1 h))

/-- What a violation of the window leaves: the window frozen, the event, memory as it was (R369). -/
theorem bar2Violation_spec {d e : Dev} (code : Nat) (args : List Nat) (ht : e.time = d.time)
    (hs : e.rd (Reg.TOP_EVT_SEQ.at []) = d.rd (Reg.TOP_EVT_SEQ.at [])) (hm : e.mem = d.mem) :
    (e.bar2Violation code args).rd (Reg.TOP_FROZEN_BAR2.at []) = 1 ∧ raised code 7 2 args d (e.bar2Violation code args) ∧
      (e.bar2Violation code args).mem = d.mem := by
  have hseq : (e.set (Reg.TOP_FROZEN_BAR2.at []) true).rd (Reg.TOP_EVT_SEQ.at []) = d.rd (Reg.TOP_EVT_SEQ.at []) :=
    (Dev.rd_wr_ne e _ (by decide)).trans hs
  have hfrozen : (e.set (Reg.TOP_FROZEN_BAR2.at []) true).rd (Reg.TOP_FROZEN_BAR2.at []) = 1 := Dev.rd_wr_same ..
  exact ⟨(Dev.rd_raise _ _ _ _ _ _ _ (by decide)).trans hfrozen, raised_raise code 7 2 args true false ht hseq, hm⟩

theorem bar2_served {d : Dev} {off n : Nat} (ho : d.bar2Open) (hb : d.inBar2At off n) :
    ¬ ((!d.hostOpen || d.bit (Reg.TOP_FROZEN_BAR2.at []) || !d.inBar2 off n) = true) := by
  rw [Bool.or_eq_true, bar2_shut_iff, (inBar2_iff ..).2 hb]
  simp [ho]

section
variable {s : State} {off : Nat} {data : Bytes} (h : s.dev.held = false)
include h

/-- A write to a window that is shut, or outside the BAR, has no effect. -/
theorem bar2Write_refused (hno : ¬ s.dev.bar2Open ∨ ¬ s.dev.inBar2At off data.length) :
    completes (.bar2Write off data) s (fun e => e = s.dev) := by
  refine completes_act (exec_bar2Write off data s) h (if_pos ?_)
  rw [← inBar2_iff, ← bar2_shut_iff] at hno
  simpa using hno

/-- A write all of whose bytes may be written is stored, and is accepted at once. -/
theorem bar2Write_served (ho : s.dev.bar2Open) (hb : s.dev.inBar2At off data.length)
    (hw : ∀ j < data.length, s.dev.bar2Writable (s.dev.bar2Addr off + j)) :
    completes (.bar2Write off data) s (fun e => e.bytes (s.dev.bar2Addr off) data.length = data ∧
      bytesBut [(s.dev.bar2Addr off, data.length)] s.dev e ∧ (∀ ch, ∀ q ∈ (e.chan ch).waitWrites, q.master ≠ hostMaster) ∧
      (s.dev.ecc = [] → e = { s.dev with mem := e.mem, ddr := e.ddr, power := e.power } ∧ onlyEnergy s.dev e)) := by
  refine completes_act (exec_bar2Write off data s) h ?_
  have hnone : (List.range data.length).find? (fun i => s.dev.bar2Code (s.dev.bar2Addr off + i) != 0) = none := by
    rw [List.find?_eq_none]
    intro j hj
    simp [bar2Code_writable (hw j (List.mem_range.1 hj))]
  rw [if_neg (bar2_served ho hb)]
  simp only [hnone]
  generalize hwritten : s.dev.ddrWrite (s.dev.bar2Addr off) data [] 7 2 = w
  have hq : onlyQueues w ((w.askWrites hostMaster s.dev.nodl (s.dev.bar2Addr off) data.length).acceptHost) :=
    (onlyQueues_askWrites ..).acceptHost
  have hmem : ((w.askWrites hostMaster s.dev.nodl (s.dev.bar2Addr off) data.length).acceptHost).mem =
      (s.dev.setBytes (s.dev.bar2Addr off) data).mem := by
    rw [hq.1, ← hwritten]
    exact Dev.ddrWrite_mem ..
  refine ⟨?_, ?_, ?_, ?_⟩
  · rw [Dev.bytes, hmem]
    exact Dev.bytes_setBytes ..
  · intro x hx
    rw [Dev.byte, hmem]
    exact Dev.byte_setBytes_out _ _ _ _ (hx _ (List.mem_singleton_self _))
  · intro ch
    rw [chan_acceptHost]
    exact Ddr.acceptHost_waitWrites _
  · intro hecc
    rw [Dev.ddrWrite_clean _ _ _ _ _ hecc] at hwritten
    subst hwritten
    exact ⟨by rw [hq.1]; rfl, hq.2⟩

/-- The first byte that may not be written decides what the violation is (R369). -/
theorem bar2Write_violation {i : Nat} {P : Dev → Prop} (ho : s.dev.bar2Open) (hb : s.dev.inBar2At off data.length) (hi : i < data.length)
    (hw : ∀ j < i, s.dev.bar2Writable (s.dev.bar2Addr off + j)) (hc : s.dev.bar2Code (s.dev.bar2Addr off + i) ≠ 0)
    (hp : P ((if s.dev.bar2Code (s.dev.bar2Addr off + i) = 0x0420 then s.dev.inc (Reg.LAN_DENIED.at []) else s.dev).bar2Violation
      (s.dev.bar2Code (s.dev.bar2Addr off + i))
      (if s.dev.bar2Code (s.dev.bar2Addr off + i) = 0x0710 then addrArgs (s.dev.bar2Addr off + i) else []))) :
    completes (.bar2Write off data) s P := by
  refine completes_act (exec_bar2Write off data s) h ?_
  have hfirst : (List.range data.length).find? (fun i => s.dev.bar2Code (s.dev.bar2Addr off + i) != 0) = some i := by
    rw [List.find?_range_eq_some]
    exact ⟨by simpa using hc, List.mem_range.2 hi, fun j hj => by simp [bar2Code_writable (hw j hj)]⟩
  rw [if_neg (bar2_served ho hb)]
  simp only [hfirst]
  exact hp

end

/-! ### Reads -/

theorem region_sp {d : Dev} {a k z : Nat} (h : d.region a = .sp k z) : a = spAddr k z := by
  unfold Dev.region at h
  unfold spAddr
  extract_lets o at h
  repeat' split at h
  all_goals simp only [Region.sp.injEq, reduceCtorEq] at h
  next hsp _ =>
    simp only [Bool.and_eq_true, decide_eq_true_eq] at hsp
    omega

/-- Where no memory has an ECC error, a span whose banks are on is read as it is. -/
theorem bar2Pad_clean (d : Dev) (k z n : Nat) (hecc : d.ecc = []) (hs : d.anyShut k z n = false) :
    d.bar2Pad k z n = ((d.bytes (spAddr k z) n, []), d) := by
  unfold Dev.bar2Pad
  rw [if_neg (by simp [hs]), foldl_fixed]
  · simp
  · intro w _
    simp [Dev.spCheck, hecc]

/-! As above, the kernel must not evaluate `region`: the proofs below name it once, and read it only through what is known of it. -/

theorem bar2Addr_region_zero {d : Dev} {off len k z : Nat} (hb : d.inBar2At off len)
    (hr : ∀ j < len, d.region (d.bar2Addr off + j) = .sp k (z + j)) : d.region (d.bar2Addr off) = .sp k z := by
  obtain ⟨region, hregion⟩ : ∃ region, d.region = region := ⟨_, rfl⟩
  rw [hregion] at hr ⊢
  generalize d.bar2Addr off = a at *
  exact hr 0 hb.1

section
variable {s : State} {off len : Nat} (h : s.dev.held = false)
include h

/-- A read outside the BAR has no effect. -/
theorem bar2Read_outside (hb : ¬ s.dev.inBar2At off len) : completes (.bar2Read off len) s (fun e => e = s.dev) := by
  refine completes_act (exec_bar2Read off len s) h (if_pos ?_)
  rw [← inBar2_iff] at hb
  simpa using hb

/-- A read of a window that is shut is an Unsupported Request. -/
theorem bar2Read_shut (hb : s.dev.inBar2At off len) (ho : ¬ s.dev.bar2Open) :
    completes (.bar2Read off len) s (fun e => e = { s.dev with host := { s.dev.host with answer := none } }) := by
  refine completes_act (exec_bar2Read off len s) h ?_
  rw [if_neg (by simp [(inBar2_iff ..).2 hb]), if_pos ((bar2_shut_iff _).2 ho)]
  rfl

/-- A read that lies in LPDDR6 altogether is answered, where no memory has an ECC error, with its bytes. -/
theorem bar2Read_ddr (hb : s.dev.inBar2At off len) (ho : s.dev.bar2Open) (hecc : s.dev.ecc = [])
    (hr : ∀ j < len, s.dev.region (s.dev.bar2Addr off + j) = .ddr) :
    completes (.bar2Read off len) s (fun e => e = { s.dev with
      host := { s.dev.host with answer := some (s.dev.bytes (s.dev.bar2Addr off) len, []) }, ddr := e.ddr, power := e.power } ∧
      onlyEnergy s.dev e) := by
  refine completes_act (exec_bar2Read off len s) h ?_
  rw [if_neg (by simp [(inBar2_iff ..).2 hb]), if_neg (fun hs => (bar2_shut_iff _).1 hs ho)]
  obtain ⟨region, hregion⟩ : ∃ region, s.dev.region = region := ⟨_, rfl⟩
  rw [hregion] at hr ⊢
  generalize s.dev.bar2Addr off = a at *
  have hr0 : region a = .ddr := hr 0 hb.1
  dsimp only
  split
  next i hi =>
    have hp := List.find?_some hi
    rw [hr i (List.mem_range.1 (List.mem_of_find?_eq_some hi))] at hp
    simp at hp
  next =>
    rw [hr0]
    have hq := onlyQueues_askReads s.dev hostMaster s.dev.nodl false a len
    generalize s.dev.askReads hostMaster s.dev.nodl false a len = q at hq
    have hclean : q.ddrCheck a len 7 2 = ([], q) := by
      rw [Dev.ddrCheck, hq.1]
      simp [hecc]
    simp only [hclean]
    refine ⟨?_, hq.2⟩
    rw [Dev.onHost, hq.1]
    simp

theorem bar2Read_sp {k z : Nat} (hb : s.dev.inBar2At off len) (ho : s.dev.bar2Open)
    (hr : ∀ j < len, s.dev.region (s.dev.bar2Addr off + j) = .sp k (z + j)) {P : Dev → Prop}
    (hp : P (if s.dev.anyWaking k z len then s.dev.onHost (fun h => { h with reads := h.reads ++ [(k, z, len)] })
      else s.dev.answerPad k z len)) : completes (.bar2Read off len) s P := by
  refine completes_act (exec_bar2Read off len s) h ?_
  rw [if_neg (by simp [(inBar2_iff ..).2 hb]), if_neg (fun hs => (bar2_shut_iff _).1 hs ho)]
  obtain ⟨region, hregion⟩ : ∃ region, s.dev.region = region := ⟨_, rfl⟩
  rw [hregion] at hr ⊢
  generalize s.dev.bar2Addr off = a at *
  have hr0 : region a = .sp k z := hr 0 hb.1
  dsimp only
  split
  next i hi =>
    have hpi := List.find?_some hi
    rw [hr i (List.mem_range.1 (List.mem_of_find?_eq_some hi))] at hpi
    simp at hpi
  next =>
    rw [hr0]
    exact hp

/-- A read of a scratchpad whose banks are on is answered with its bytes (R160). -/
theorem bar2Read_sp_on {k z : Nat} (hb : s.dev.inBar2At off len) (ho : s.dev.bar2Open) (hecc : s.dev.ecc = [])
    (hr : ∀ j < len, s.dev.region (s.dev.bar2Addr off + j) = .sp k (z + j)) (hw : s.dev.anyWaking k z len = false)
    (hs : s.dev.anyShut k z len = false) : completes (.bar2Read off len) s (fun e =>
      e = { s.dev with host := { s.dev.host with answer := some (s.dev.bytes (s.dev.bar2Addr off) len, []) } }) := by
  refine bar2Read_sp h hb ho hr ?_
  rw [hw, Dev.answerPad, bar2Pad_clean _ _ _ _ hecc hs, region_sp (bar2Addr_region_zero hb hr)]
  rfl

/-- A read of a bank that wakes waits (R157). -/
theorem bar2Read_sp_waking {k z : Nat} (hb : s.dev.inBar2At off len) (ho : s.dev.bar2Open)
    (hr : ∀ j < len, s.dev.region (s.dev.bar2Addr off + j) = .sp k (z + j))
    (hw : s.dev.anyWaking k z len = true) :
    completes (.bar2Read off len) s (fun e =>
      e = { s.dev with host := { s.dev.host with reads := s.dev.host.reads ++ [(k, z, len)] } }) := by
  refine bar2Read_sp h hb ho hr ?_
  rw [hw]
  rfl

/-- A read that begins where nothing answers is an Unsupported Request with event 0x0710. -/
theorem bar2Read_unserved (hb : s.dev.inBar2At off len) (ho : s.dev.bar2Open)
    (hr : s.dev.region (s.dev.bar2Addr off) = .unmapped ∨ ∃ z, s.dev.region (s.dev.bar2Addr off) = .host z) :
    completes (.bar2Read off len) s (fun e => e.host.answer = none ∧
      raised 0x0710 7 2 (addrArgs (s.dev.bar2Addr off)) s.dev e ∧ regsBut eventKeys s.dev e ∧ e.mem = s.dev.mem) := by
  refine completes_act (exec_bar2Read off len s) h ?_
  rw [if_neg (by simp [(inBar2_iff ..).2 hb]), if_neg (fun hs => (bar2_shut_iff _).1 hs ho)]
  obtain ⟨region, hregion⟩ : ∃ region, s.dev.region = region := ⟨_, rfl⟩
  rw [hregion] at hr ⊢
  generalize s.dev.bar2Addr off = a at *
  dsimp only
  split
  next i hi =>
    have hzero : i = 0 := Decidable.byContradiction fun hne => by
      have hfirst := (List.find?_range_eq_some.1 hi).2.2 0 (by omega)
      rcases hr with hr | ⟨z, hr⟩ <;> simp [hr] at hfirst
    subst hzero
    exact ⟨rfl, (raised_raise 0x0710 7 2 _ false false rfl rfl).congr rfl rfl, regsBut_raise s.dev 0x0710 7 2 (addrArgs a) false false, rfl⟩
  next hnone =>
    have hfirst := List.find?_eq_none.1 hnone 0 (List.mem_range.2 hb.1)
    rcases hr with hr | ⟨z, hr⟩ <;> simp [hr] at hfirst

end

end Sys2Proof.Machine

/-! PROOFS. REGISTER_WRITE (R8, R31, R236, R238, R392, R393, R421): a word with one field, by the access code of the field. -/

namespace Sys2Proof.Machine

theorem exec_registerWrite (w : BitVec 26) (v : Word) (s : State) : exec (.registerWrite w v) s = execRegisterWrite w v s := rfl

/-- The word at an offset holds one field, is reached by the host, and is neither in the mailbox's command word nor in the LAN block nor owned by
the image. -/
def Dev.plainWord (d : Dev) (off : Nat) (g : RegDef) (idx : List Nat) : Prop :=
  fieldsAt off = [(g, idx)] ∧ d.hostReaches off = true ∧ off ≠ Reg.KPR_OPCODE.base ∧ (off < 0x02500000 ∨ 0x02600000 ≤ off) ∧ imageOwned off = false

/-- A write of such a word writes its one field. -/
theorem writeWord_plain {d : Dev} {off : Nat} {g : RegDef} {idx : List Nat} (h : d.plainWord off g idx) (v : Nat) :
    d.writeWord off v = d.writeField off g idx v := by
  obtain ⟨hf, hr, hk, hl, hi⟩ := h
  have hlan : ¬ ((decide (0x02500000 ≤ off) && decide (off < 0x02600000)) = true) := by
    simp only [Bool.and_eq_true, decide_eq_true_eq]
    omega
  simp [Dev.writeWord, hr, hk, hlan, hi, Dev.writeFields, hf]

theorem fieldOf_lt (g : RegDef) (idx : List Nat) (v : Nat) : fieldOf g idx v < 2 ^ (g.at idx).width :=
  Nat.mod_lt _ (Nat.two_pow_pos _)

theorem RegDef.at_rws (g : RegDef) (idx : List Nat) : (g.at idx).rws = (g.acc == .rws) := rfl

theorem writeField_ro {d : Dev} {off : Nat} {g : RegDef} {idx : List Nat} (v : Nat) (ha : g.acc = .ro) : d.writeField off g idx v = d := by
  simp [Dev.writeField, Dev.notHere, ha]

section
variable {d : Dev} {off : Nat} {g : RegDef} {idx : List Nat} (v : Nat) (hn : d.notHere g idx = false)
include hn

theorem writeField_rw (ha : g.acc = .rw) : d.writeField off g idx v = d.writeNow g idx (fieldOf g idx v) := by
  simp [Dev.writeField, hn, ha]

theorem writeField_w1c (ha : g.acc = .w1c) :
    d.writeField off g idx v = d.wr (g.at idx) (d.rd (g.at idx) - (d.rd (g.at idx) &&& fieldOf g idx v)) := by
  simp [Dev.writeField, hn, ha]

theorem writeField_rws (ha : g.acc = .rws) (hm : d.armed (domainOf (g.at idx).key) = false) :
    d.writeField off g idx v = d.wrS (g.at idx) (fieldOf g idx v) := by
  simp [Dev.writeField, hn, ha, hm]

theorem writeField_rws_armed (ha : g.acc = .rws) (hm : d.armed (domainOf (g.at idx).key) = true) :
    d.writeField off g idx v = d.lateWrite (domainOf (g.at idx).key) off := by
  simp [Dev.writeField, hn, ha, hm]

end

/-- A field of a ring that is enabled keeps its value (R393). -/
theorem writeNow_ring_on {d : Dev} {g : RegDef} {idx : List Nat} {q : Nat} (x : Nat) (hq : ringOf g idx = some q) (hen : d.rd (ringEn q) ≠ 0) :
    d.writeNow g idx x = d := by
  simp [Dev.writeNow, hq, Dev.bit, hen]

theorem writeNow_plain {d : Dev} {g : RegDef} {idx : List Nat} (x : Nat) (hq : ringOf g idx = none) (hm : g.base ≠ Reg.HST_MSIX_MASK.base) :
    d.writeNow g idx x = d.wr (g.at idx) x := by
  simp [Dev.writeNow, hq, hm]

/-- Writing 1 to bits of a field clears them (R8). -/
theorem w1c_spec (d : Dev) (f : Fld) (x : Nat) (hf : f.rws = false) (hw : d.rd f < 2 ^ f.width) :
    let e := d.wr f (d.rd f - (d.rd f &&& x))
    (∀ k, (e.rd f).testBit k = ((d.rd f).testBit k && !x.testBit k)) ∧ regsBut [f.key] d e ∧ e = { d with regs := e.regs } := by
  obtain ⟨hr, hb, he⟩ := wr_plain_spec d (f := f) (d.rd f - (d.rd f &&& x)) hf
  refine ⟨fun k => ?_, hb, he⟩
  rw [hr, Nat.mod_eq_of_lt (Nat.lt_of_le_of_lt (Nat.sub_le ..) hw), testBit_sub_and]

/-- A write to the shadow of a field is seen there alone (R8). -/
theorem wrS_spec (d : Dev) (f : Fld) {x : Nat} (hf : f.rws = true) (hx : x < 2 ^ f.width) :
    (d.wrS f x).rdS f = x ∧ (∀ h : Fld, h.key ≠ f.key → (d.wrS f x).rdS h = d.rdS h) ∧ d.wrS f x = { d with shadow := (d.wrS f x).shadow } :=
  ⟨(Dev.rdS_wrS_same d f x).trans (Nat.mod_eq_of_lt hx), fun _ hh => Dev.rdS_wrS_ne d x hh, by simp [Dev.wrS, hf]⟩

/-- A write of a field takes the value, and no other field changes. -/
theorem wr_spec (d : Dev) (f : Fld) {x : Nat} (hx : x < 2 ^ f.width) :
    (d.wr f x).rd f = x ∧ regsBut [f.key] d (d.wr f x) ∧ d.wr f x = { d with regs := (d.wr f x).regs, live := (d.wr f x).live } :=
  ⟨(Dev.rd_wr_same d f x).trans (Nat.mod_eq_of_lt hx), regsBut_wr d f x, rfl⟩

theorem testBit_rd_setBit_true (d : Dev) (f : Fld) (i : Nat) (hi : i < f.width) : ((d.setBit f i true).rd f).testBit i = true := by
  have h : (d.setBit f i true).rd f = trunc f.width (d.rd f ||| 2 ^ i) := Dev.rd_wr_same ..
  rw [h, trunc, Nat.testBit_mod_two_pow, Nat.testBit_or, Nat.testBit_two_pow_self]
  simp [hi]

/-- A write that an armed domain discards sets LATE, and is told once per commit (R238). -/
theorem lateWrite_spec (d : Dev) {m : Nat} (off : Nat) (hm : m < 3) :
    (d.lateWrite m off).shadow = d.shadow ∧ (d.lateWrite m off).mem = d.mem ∧ ((d.lateWrite m off).rd (Reg.TOP_LATE.at [])).testBit m = true ∧
      (m ∉ d.lateTold → raised 0x0902 8 0 [m, off] d (d.lateWrite m off)) := by
  unfold Dev.lateWrite
  extract_lets d1
  have hbit : (d1.rd (Reg.TOP_LATE.at [])).testBit m = true := testBit_rd_setBit_true d _ m hm
  have hseq : d1.rd (Reg.TOP_EVT_SEQ.at []) = d.rd (Reg.TOP_EVT_SEQ.at []) := Dev.rd_wr_ne d _ (by decide)
  split
  next htold => exact ⟨rfl, rfl, hbit, fun hno => absurd (List.contains_iff_mem.1 htold) hno⟩
  next =>
    refine ⟨Dev.raise_shadow .., Dev.raise_mem .., ?_, fun _ => raised_raise 0x0902 8 0 [m, off] false false rfl hseq⟩
    rw [Dev.rd_raise _ _ _ _ _ _ _ (by decide)]
    exact hbit

section
variable {s : State} {w : BitVec 26} (v : Word) (h : s.dev.held = false)
include h

/-- Before RUNNING a write to another block has no effect (R421). -/
theorem registerWrite_unreached (hr : s.dev.hostReaches w.toNat = false) : completes (.registerWrite w v) s (fun e => e = s.dev) :=
  completes_act (exec_registerWrite w v s) h (by simp [Dev.writeWord, hr])

/-- A write of a word with one field does what the write of that field does. -/
theorem registerWrite_plain {g : RegDef} {idx : List Nat} {P : Dev → Prop} (hw : s.dev.plainWord w.toNat g idx)
    (hp : P (s.dev.writeField w.toNat g idx v.toNat)) : completes (.registerWrite w v) s P :=
  completes_act (exec_registerWrite w v s) h (by rw [writeWord_plain hw]; exact hp)

end

end Sys2Proof.Machine

/-! PROOFS. The link to the host (R387, R388, R391, R392, R410): what its coming up and a reset of the endpoint leave. -/

namespace Sys2Proof.Machine

/-! ### The registers of HST_LINK, which no stream unit writes -/

/-- The fields that HOST_LINK_UP writes of HST_LINK and HST_BAR2. -/
def linkKeys : List Nat := keysOf [Reg.HST_UP.at [], Reg.HST_GEN.at [], Reg.HST_WIDTH.at [], Reg.HST_BAR2_LOG2.at []]

/-- What the link trained to is as it was: those fields, and the size of BAR2. -/
def linkKept (d e : Dev) : Prop := (∀ g : Fld, g.key ∈ linkKeys → e.rd g = d.rd g) ∧ e.host.bar2Log2 = d.host.bar2Log2

theorem linkKept.refl (d : Dev) : linkKept d d := ⟨fun _ _ => rfl, rfl⟩

theorem linkKept.trans {d e f : Dev} (h : linkKept d e) (h' : linkKept e f) : linkKept d f :=
  ⟨fun g hg => (h'.1 g hg).trans (h.1 g hg), h'.2.trans h.2⟩

/-- An operation that touches neither the register tables nor the host side keeps the link. -/
theorem linkKept_of_same {d e : Dev} (hr : e.regs = d.regs) (hl : e.live = d.live) (hh : e.host.bar2Log2 = d.host.bar2Log2) : linkKept d e :=
  ⟨fun g _ => by rw [Dev.rd, Dev.rd, hr, hl], hh⟩

theorem linkKept.same {d e f : Dev} (h : linkKept d e) (hr : f.regs = e.regs) (hl : f.live = e.live)
    (hh : f.host.bar2Log2 = e.host.bar2Log2) : linkKept d f :=
  h.trans (linkKept_of_same hr hl hh)

theorem linkKept.wr {d e : Dev} (h : linkKept d e) {f : Fld} (v : Nat) (hf : f.key ∉ linkKeys) : linkKept d (e.wr f v) :=
  ⟨fun g hg => (Dev.rd_wr_ne e v (fun heq => hf (heq ▸ hg))).trans (h.1 g hg), h.2⟩

theorem linkKept.raise {d e : Dev} (h : linkKept d e) (a b c : Nat) (l : List Nat) (p q : Bool) : linkKept d (e.raise a b c l p q) := by
  have hdisj : ∀ k ∈ linkKeys, k ∉ eventKeys := by decide
  exact ⟨fun g hg => (Dev.rd_raise e a b c l p q (hdisj _ hg)).trans (h.1 g hg), h.2⟩

theorem linkKept_foldl {α : Type} (l : List α) (f : Dev → α → Dev) (d : Dev) (h : ∀ e x, linkKept e (f e x)) : linkKept d (l.foldl f d) :=
  List.foldlRecOn l f (motive := linkKept d) (linkKept.refl d) (fun e he x _ => he.trans (h e x))

theorem linkKept_upTo (n : Nat) (f : Nat → Dev → Dev) (d : Dev) (h : ∀ i e, linkKept e (f i e)) : linkKept d (upTo n f d) :=
  upTo_keeps (linkKept d) n f d (linkKept.refl d) (fun i e _ he => he.trans (h i e))

/-- The link's fields are below the MSI-X table and every block above the HST block. -/
theorem key_not_linkKeys {r : RegDef} (hr : 0x410000 ≤ r.base) (idx : List Nat) : (r.at idx).key ∉ linkKeys := by
  have hle := r.base_le_key idx
  have hsmall : ∀ k ∈ linkKeys, k < 0x410000 * 32 := by decide
  intro hm
  have := hsmall _ hm
  omega

/-! ### What a stream unit's writes leave of the link -/

theorem linkKept_ddrLast (d : Dev) (a : Nat) (ue : Bool) : linkKept d (d.ddrLast a ue) := by
  have h0 : linkKept d (d.noteRow 3 (a / 256 % 12 + a / 128 % 2 * 16 + (d.ddrBankRow (a / 256)).1 * 32 + (d.ddrBankRow (a / 256)).2 * 512) ue) :=
    linkKept_of_same rfl rfl rfl
  exact ((h0.wr _ (by decide)).wr _ (by decide)).wr _ (by decide)

theorem linkKept_ddrCorrect (d : Dev) (a : Nat) : linkKept d (d.ddrCorrect a) := by
  unfold Dev.ddrCorrect
  extract_lets ch d1 d2 due
  have h1 : linkKept d d1 := linkKept_of_same rfl rfl rfl
  have h2 : linkKept d d2 := (h1.wr _ (by decide)).trans (linkKept_ddrLast ..)
  split
  · have h3 : linkKept d (d2.onChan ch (fun q => { q with ceAt := some d2.time })) := h2.same rfl rfl rfl
    exact h3.raise ..
  · exact h2

theorem linkKept_ddrCheck (d : Dev) (a n kind index : Nat) : linkKept d (d.ddrCheck a n kind index).2 := by
  unfold Dev.ddrCheck
  split
  · exact linkKept.refl d
  · extract_lets r
    have hr : linkKept d r.2 := by
      refine List.foldlRecOn _ _ (motive := fun acc : List Nat × Dev => linkKept d acc.2) (linkKept.refl d) fun acc hacc w _ => ?_
      dsimp only
      split
      · exact hacc.trans (linkKept_ddrCorrect ..)
      · split
        · exact (hacc.wr _ (by decide)).trans (linkKept_ddrLast ..)
        · exact hacc
    split
    · exact hr
    · exact hr.raise ..

theorem linkKept_markWords (d : Dev) (a n : Nat) (bad : List Nat) : linkKept d (d.markWords a n bad) := by
  unfold Dev.markWords
  extract_lets d1
  have h1 : linkKept d d1 := by
    simp only [d1]
    split
    · exact linkKept.refl d
    · refine linkKept_foldl _ _ _ fun e w => ?_
      split
      · exact linkKept_of_same rfl rfl rfl
      · exact linkKept.refl e
  exact h1.trans (linkKept_foldl _ _ _ fun e b => linkKept_of_same rfl rfl rfl)

theorem linkKept_ddrWrite (d : Dev) (a : Nat) (bs : Bytes) (bad : List Nat) (kind index : Nat) : linkKept d (d.ddrWrite a bs bad kind index) := by
  unfold Dev.ddrWrite
  extract_lets d1
  have h1 : linkKept d d1 := by
    simp only [d1]
    split
    · exact linkKept.refl d
    · exact linkKept_foldl _ _ _ fun e g => linkKept_ddrCheck ..
  exact (h1.same rfl rfl rfl).trans (linkKept_markWords ..)

theorem linkKept_scUpdate (d : Dev) (n a : Nat) (bs : Bytes) (bad : List Nat) : linkKept d (d.scUpdate n a bs bad) := by
  unfold Dev.scUpdate
  refine (linkKept_upTo 16 _ d fun k e => ?_).trans (linkKept_foldl _ _ _ fun e g => ?_)
  · split
    · exact linkKept.refl e
    · exact linkKept_of_same rfl rfl rfl
  · dsimp only
    split
    · exact linkKept_of_same rfl rfl rfl
    · exact linkKept.refl e

theorem linkKept_askWrites (d : Dev) (m dl a n : Nat) : linkKept d (d.askWrites m dl a n) := by
  obtain ⟨hq, -⟩ := onlyQueues_askWrites d m dl a n
  rw [hq]
  exact linkKept_of_same rfl rfl rfl

theorem linkKept_endRouteWaits (d : Dev) (u : Nat) : linkKept d (d.endRouteWaits u) :=
  linkKept_upTo 8 _ d fun _ e => (linkKept.refl e).wr _ (key_not_linkKeys (r := Reg.SU_RT_WAITING) (by decide) _)

theorem linkKept_stopSu (d : Dev) (u code pc : Nat) : linkKept d (d.stopSu u code pc) := by
  unfold Dev.stopSu
  extract_lets d1 d2 d3
  have hstate : linkKept d (d.setSuState u suFrozen) := (linkKept.refl d).wr _ (key_not_linkKeys (r := Reg.SU_STATE) (by decide) _)
  have hwork : linkKept d (((d.setSuState u suFrozen).onSu u (fun s => { s with work := [], fence := false })).withdraw (0x100 + u)) :=
    hstate.same rfl rfl rfl
  have h1 : linkKept d d1 := hwork.trans (linkKept_endRouteWaits _ u)
  clear_value d1
  have h2 : linkKept d d2 := h1.same rfl rfl rfl
  clear_value d2
  have h3 : linkKept d d3 := (h2.wr _ (key_not_linkKeys (r := Reg.SU_FAULT_CODE) (by decide) _)).wr _
    (key_not_linkKeys (r := Reg.SU_FAULT_PC) (by decide) _)
  clear_value d3
  unfold Dev.setParked
  split
  · exact h3.wr _ (by decide)
  · exact h3.wr _ (by decide)

theorem linkKept_violateSu (d : Dev) (u event pc : Nat) (args : List Nat) : linkKept d (d.violateSu u event pc args) := by
  unfold Dev.violateSu
  split
  · exact (linkKept.refl d).raise ..
  · have hstop : linkKept d ((d.stopSu u (d.freeVal 8) pc).useFree) := (linkKept_stopSu d u (d.freeVal 8) pc).same rfl rfl rfl
    exact hstop.raise ..

theorem linkKept_spEccLast (d : Dev) (c off : Nat) (ded : Bool) : linkKept d (d.spEccLast c off ded) := by
  unfold Dev.spEccLast
  extract_lets b d1 d2 d3
  have h1 : linkKept d d1 := linkKept_of_same rfl rfl rfl
  exact ((h1.wr _ (key_not_linkKeys (by decide) _)).wr _ (key_not_linkKeys (by decide) _)).wr _ (key_not_linkKeys (by decide) _)

theorem linkKept_spCorrect (d : Dev) (c off : Nat) : linkKept d (d.spCorrect c off) := by
  unfold Dev.spCorrect
  extract_lets d1 d2
  have h1 : linkKept d d1 := linkKept_of_same rfl rfl rfl
  exact ((h1.wr _ (key_not_linkKeys (by decide) _)).wr _ (key_not_linkKeys (by decide) _)).trans (linkKept_spEccLast ..)

theorem linkKept_spWriteWord (d : Dev) (c off : Nat) (data : Bytes) (w : Nat) : linkKept d (d.spWriteWord c off data w) := by
  unfold Dev.spWriteWord
  extract_lets lo hi part m whole d1
  have h1 : linkKept d d1 := by
    simp only [d1]
    split
    · exact linkKept_spCorrect ..
    · exact linkKept.refl d
  split
  · exact linkKept_of_same rfl rfl rfl
  · split
    · exact (((linkKept.refl d).raise ..).wr _ (key_not_linkKeys (by decide) _)).trans (linkKept_spEccLast ..)
    · exact h1.same rfl rfl rfl

theorem linkKept_spWrite (d : Dev) (c off : Nat) (data : Bytes) : linkKept d (d.spWrite c off data) := by
  unfold Dev.spWrite
  split
  · exact linkKept_of_same rfl rfl rfl
  · exact linkKept_foldl _ _ _ fun e w => linkKept_spWriteWord ..

theorem linkKept_markPoison (d : Dev) (c off : Nat) (bad : List Nat) : linkKept d (d.markPoison c off bad) :=
  linkKept_foldl _ _ _ fun _ _ => linkKept_of_same rfl rfl rfl

theorem linkKept_formTx (d : Dev) (p q off : Nat) (data : Bytes) (bad : List Nat) : linkKept d (d.formTx p q off data bad) := by
  unfold Dev.formTx
  extract_lets t l s
  split
  · exact linkKept_of_same rfl rfl rfl
  · unfold Dev.bcnSend
    split
    · exact linkKept_of_same rfl rfl rfl
    · exact linkKept_of_same rfl rfl rfl

theorem linkKept_send (d : Dev) (a b : Node) (m : Body) : linkKept d (d.send a b m) := linkKept_of_same rfl rfl rfl

theorem linkKept_sendTxn (d : Dev) (a : Node) (t : Txn) : linkKept d (d.sendTxn a t) := by
  unfold Dev.sendTxn
  split
  · exact linkKept_send ..
  · exact linkKept_foldl _ _ _ fun e c => linkKept_send ..

theorem linkKept_sendTag (d : Dev) (a : Node) (u : TagUpd) : linkKept d (d.sendTag a u) := by
  unfold Dev.sendTag
  split
  · exact linkKept_send ..
  · exact linkKept_foldl _ _ _ fun e c => linkKept_send ..

/-- A plain write of a stream unit keeps the link, wherever it goes. -/
theorem linkKept_suPlain {d e : Dev} {u dl a : Nat} {t : Transfer} {data : Bytes} {bad : List Nat}
    (h : d.suPlain u t dl a data bad = some e) : linkKept d e := by
  have hdef : Dev.suPlain = Dev.suPlain := rfl
  conv at hdef => rhs; delta Dev.suPlain
  rw [hdef] at h
  dsimp -zeta -iota -proj only at h
  split at h
  next =>
    dsimp only at h
    split at h
    · cases h
    · cases h
      exact (((linkKept_ddrWrite ..).trans (linkKept_scUpdate ..)).trans (linkKept_askWrites ..)).same rfl rfl rfl
  next =>
    split at h
    · cases h
      exact linkKept_violateSu ..
    · split at h
      · cases h
        exact linkKept_violateSu ..
      · split at h
        · cases h
        · cases h
          exact (linkKept_spWrite ..).trans (linkKept_markPoison ..)
  next =>
    cases h
    exact ((linkKept.refl d).wr _ (by decide)).trans (linkKept_violateSu ..)
  next =>
    cases h
    exact (linkKept_of_same rfl rfl rfl : linkKept d (d.setBytes a data)).trans (linkKept_markWords ..)
  next =>
    cases h
    exact (linkKept_formTx ..).same rfl rfl rfl
  next =>
    split at h
    · cases h
      exact linkKept_of_same rfl rfl rfl
    · split at h
      · cases h
        exact linkKept_of_same rfl rfl rfl
      · cases h
  next =>
    cases h
    exact linkKept_violateSu ..

theorem linkKept_suWriteTxn {d e : Dev} {u dl : Nat} {t : Transfer} {p : TxnPlan} {data : Bytes}
    (h : d.suWriteTxn u t dl p data = some e) : linkKept d e := by
  unfold Dev.suWriteTxn at h
  extract_lets bad at h
  split at h
  · exact linkKept_suPlain h
  · cases h
    exact linkKept_sendTxn ..
  · cases h
    exact (linkKept_send ..).wr _ (key_not_linkKeys (by decide) _)

theorem linkKept_suEmit (u : Nat) (before : List SuItem) (t : Transfer) (dl : Nat) : ∀ (l : List TxnPlan) (d : Dev),
    linkKept d (d.suEmit u before t dl l).1
  | [], d => linkKept.refl d
  | p :: rest, d => by
    unfold Dev.suEmit
    extract_lets vals behind
    split
    · split
      · exact linkKept.refl d
      next e he => exact (linkKept_suWriteTxn he).trans (linkKept_suEmit u before t dl rest e)
    · exact linkKept.refl d

theorem linkKept_suFlushItem (d : Dev) (u i : Nat) (done : List Nat) : linkKept d (d.suFlushItem u i done).1 := by
  unfold Dev.suFlushItem
  extract_lets before
  split
  · exact (linkKept_suEmit ..).same rfl rfl rfl
  · split
    · exact linkKept.refl d
    · dsimp only
      split
      · exact linkKept_send ..
      · exact linkKept_sendTag ..
  · exact linkKept.refl d

theorem linkKept_suFlush (d : Dev) (u : Nat) : linkKept d (d.suFlush u) := by
  unfold Dev.suFlush
  extract_lets r
  have hr : linkKept d r.1 := List.foldlRecOn _ _ (motive := fun acc : Dev × List Nat => linkKept d acc.1) (linkKept.refl d)
    fun acc hacc i _ => hacc.trans (linkKept_suFlushItem ..)
  exact hr.same rfl rfl rfl

theorem linkKept_suFlushAll (d : Dev) : linkKept d d.suFlushAll := by
  refine linkKept_upTo 128 _ d fun u e => ?_
  split
  · exact linkKept.refl e
  · exact linkKept_suFlush e u

/-- Where no stream unit has work, nothing waits to be written. -/
theorem suFlushAll_idle (d : Dev) (h : ∀ u < 128, (d.su u).work = []) : d.suFlushAll = d :=
  upTo_fixed (fun u hu => if_pos (by rw [h u hu]; rfl))

end Sys2Proof.Machine

/-! PROOFS. The link to the host (R387, R391, R392, R410): HOST_LINK_UP and ENDPOINT_RESET. -/

namespace Sys2Proof.Machine

theorem exec_hostLinkUp (gen width log2 : Nat) (cfg : HostCfg) (s : State) :
    exec (.hostLinkUp gen width log2 cfg) s = execHostLinkUp gen width log2 cfg s := rfl

theorem exec_endpointReset (cause : EndpointCause) (s : State) : exec (.endpointReset cause) s = execEndpointReset cause s := rfl

/-! ### Vectors that are pending -/

theorem key_pbaFld (v : Nat) : (pbaFld v).key = 0x411000 * 32 + 128 * (v / 32) + v % 32 := by
  show (0x411000 + (4 * (v / 32) + (0 * (v % 32) + 0))) * 32 + (0 + (0 * (v / 32) + (1 * (v % 32) + 0))) = _
  omega

theorem key_pbaFld_inj {v w : Nat} (h : (pbaFld v).key = (pbaFld w).key) : v = w := by
  rw [key_pbaFld, key_pbaFld] at h
  omega

theorem key_mask_ne_pbaFld (v w : Nat) (hv : v < 64) : (Reg.HST_MSIX_MASK.at [v]).key ≠ (pbaFld w).key := by
  rw [key_pbaFld]
  show (0x41000C + (16 * v + 0)) * 32 + (0 + (0 * v + 0)) ≠ _
  omega

/-- Vector `v` is pending, and its message may be sent. -/
def Dev.vectorDue (d : Dev) (v : Nat) : Bool := d.bit (pbaFld v) && d.host.cfg.msixEn && !d.vecMasked v

theorem vectorDue_iff (d : Dev) (v : Nat) : d.vectorDue v = true ↔
    d.rd (pbaFld v) ≠ 0 ∧ d.host.cfg.msixEn = true ∧ d.host.cfg.funcMask = false ∧ d.rd (Reg.HST_MSIX_MASK.at [v]) = 0 := by
  simp [Dev.vectorDue, Dev.bit, Dev.vecMasked, and_assoc]

theorem unmask_due {d : Dev} {v : Nat} (h : d.vectorDue v = true) : d.unmask v = (d.set (pbaFld v) false).sendMessage v := if_pos h

theorem unmask_fixed {d : Dev} {v : Nat} (h : ¬ d.vectorDue v = true) : d.unmask v = d := if_neg h

theorem linkKept_unmask (d : Dev) (v : Nat) : linkKept d (d.unmask v) := by
  by_cases h : d.vectorDue v = true
  · rw [unmask_due h]
    have hw : linkKept d (d.set (pbaFld v) false) := (linkKept.refl d).wr _ (key_not_linkKeys (r := Reg.HST_MSIX_PBA) (by decide) _)
    exact hw.same rfl rfl rfl
  · rw [unmask_fixed h]
    exact linkKept.refl d

/-- `e` is `d` after the pending vectors below `n` have been served: those that were due have sent their message and pend no more. -/
structure vectorsServed (n : Nat) (d e : Dev) : Prop where
  rd : ∀ g : Fld, (∀ v < n, g.key ≠ (pbaFld v).key) → e.rd g = d.rd g
  cfg : e.host.cfg = d.host.cfg
  events : e.events = d.events
  sus : e.sus = d.sus
  sent : ∀ v < n, d.vectorDue v = true → v ∈ e.host.irqs ∧ e.rd (pbaFld v) = 0

theorem vectorsServed_zero (d : Dev) : vectorsServed 0 d d := ⟨fun _ _ => rfl, rfl, rfl, rfl, fun _ h => absurd h (Nat.not_lt_zero _)⟩

/-- A vector not served yet is due as it was. -/
theorem vectorsServed.due {n : Nat} {d e : Dev} (h : vectorsServed n d e) (hn : n < 64) : e.vectorDue n = d.vectorDue n := by
  have hpba : e.rd (pbaFld n) = d.rd (pbaFld n) := h.rd _ fun v hv heq => absurd (key_pbaFld_inj heq) (by omega)
  have hmask : e.rd (Reg.HST_MSIX_MASK.at [n]) = d.rd (Reg.HST_MSIX_MASK.at [n]) := h.rd _ fun v _ => key_mask_ne_pbaFld n v hn
  simp only [Dev.vectorDue, Dev.bit, Dev.vecMasked, hpba, hmask, h.cfg]

theorem vectorsServed.succ {n : Nat} {d e : Dev} (h : vectorsServed n d e) (hn : n < 64) : vectorsServed (n + 1) d (e.unmask n) := by
  by_cases hdue : e.vectorDue n = true
  · rw [unmask_due hdue]
    have hrd (g : Fld) : ((e.set (pbaFld n) false).sendMessage n).rd g = (e.wr (pbaFld n) 0).rd g := rfl
    have hirqs : ((e.set (pbaFld n) false).sendMessage n).host.irqs = e.host.irqs ++ [n] := rfl
    refine ⟨fun g hg => ?_, h.cfg, h.events, h.sus, fun v hv hd => ?_⟩
    · rw [hrd, Dev.rd_wr_ne _ _ (hg n (Nat.lt_succ_self n))]
      exact h.rd g fun v hv => hg v (Nat.lt_succ_of_lt hv)
    · rw [hirqs, hrd]
      by_cases heq : v = n
      · subst heq
        exact ⟨by simp, Dev.rd_wr_same ..⟩
      · obtain ⟨hin, hzero⟩ := h.sent v (by omega) hd
        refine ⟨List.mem_append_left _ hin, ?_⟩
        rw [Dev.rd_wr_ne _ _ (fun hk => heq (key_pbaFld_inj hk))]
        exact hzero
  · rw [unmask_fixed hdue]
    refine ⟨fun g hg => h.rd g fun v hv => hg v (Nat.lt_succ_of_lt hv), h.cfg, h.events, h.sus, fun v hv hd => h.sent v ?_ hd⟩
    have hne : v ≠ n := fun heq => hdue (by rw [h.due hn, ← heq]; exact hd)
    omega

theorem vectorsServed_upTo (d : Dev) : ∀ n ≤ 64, vectorsServed n d (upTo n (fun v d => d.unmask v) d)
  | 0, _ => vectorsServed_zero d
  | n + 1, hn => by
    rw [upTo_succ]
    exact (vectorsServed_upTo d n (by omega)).succ hn

/-! ### HOST_LINK_UP -/

/-- The device with what the link trained to written in HST_LINK. -/
def Dev.linkTrained (d : Dev) (gen width : Nat) : Dev := ((d.set (Reg.HST_UP.at []) true).wr (Reg.HST_GEN.at []) gen).wr (Reg.HST_WIDTH.at []) width

/-- The device with the link up, before its pending vectors are served. -/
def Dev.trained (d : Dev) (gen width log2 : Nat) (cfg : HostCfg) : Dev :=
  (((d.linkTrained gen width).raise 0x0236 8 0 [gen, width]).wr (Reg.HST_BAR2_LOG2.at []) log2).onHost (fun h => { h with cfg := cfg, bar2Log2 := log2 })

theorem rd_linkTrained (d : Dev) (gen width : Nat) {g : Fld} (hg : g.key ∉ linkKeys) : (d.linkTrained gen width).rd g = d.rd g := by
  simp only [linkKeys, keysOf, List.map_cons, List.map_nil, List.mem_cons, List.not_mem_nil, or_false, not_or] at hg
  obtain ⟨hup, hgen, hwidth, -⟩ := hg
  exact ((Dev.rd_wr_ne _ width hwidth).trans (Dev.rd_wr_ne _ gen hgen)).trans (Dev.rd_wr_ne d 1 hup)

theorem rd_trained (d : Dev) (gen width log2 : Nat) (cfg : HostCfg) (g : Fld) : (d.trained gen width log2 cfg).rd g =
    (((d.linkTrained gen width).raise 0x0236 8 0 [gen, width]).wr (Reg.HST_BAR2_LOG2.at []) log2).rd g := Dev.onHost_rd_eq ..

theorem rd_trained_ne (d : Dev) (gen width log2 : Nat) (cfg : HostCfg) {g : Fld} (hg : g.key ≠ (Reg.HST_BAR2_LOG2.at []).key) (he : g.key ∉ eventKeys) :
    (d.trained gen width log2 cfg).rd g = (d.linkTrained gen width).rd g := by
  rw [rd_trained, Dev.rd_wr_ne _ _ hg, Dev.rd_raise _ _ _ _ _ _ _ he]

theorem trained_link (d : Dev) (gen width log2 : Nat) (cfg : HostCfg) :
    holds (d.trained gen width log2 cfg) (Reg.HST_UP.at []) 1 ∧ holds (d.trained gen width log2 cfg) (Reg.HST_GEN.at []) gen ∧
      holds (d.trained gen width log2 cfg) (Reg.HST_WIDTH.at []) width ∧ holds (d.trained gen width log2 cfg) (Reg.HST_BAR2_LOG2.at []) log2 := by
  unfold holds
  refine ⟨?_, ?_, ?_, ?_⟩
  · rw [rd_trained_ne _ _ _ _ _ (by decide) (by decide), Dev.linkTrained, Dev.rd_wr_ne _ _ (by decide), Dev.rd_wr_ne _ _ (by decide)]
    exact Dev.rd_wr_same ..
  · rw [rd_trained_ne _ _ _ _ _ (by decide) (by decide), Dev.linkTrained, Dev.rd_wr_ne _ _ (by decide)]
    exact Dev.rd_wr_same ..
  · rw [rd_trained_ne _ _ _ _ _ (by decide) (by decide)]
    exact Dev.rd_wr_same ..
  · rw [rd_trained]
    exact Dev.rd_wr_same ..

theorem trained_sus (d : Dev) (gen width log2 : Nat) (cfg : HostCfg) : (d.trained gen width log2 cfg).sus = d.sus := by
  simp [Dev.trained, Dev.linkTrained, Dev.set]

theorem trained_cfg (d : Dev) (gen width log2 : Nat) (cfg : HostCfg) : (d.trained gen width log2 cfg).host.cfg = cfg := rfl

theorem trained_bar2Log2 (d : Dev) (gen width log2 : Nat) (cfg : HostCfg) : (d.trained gen width log2 cfg).host.bar2Log2 = log2 := rfl

theorem regsBut.onHost {keys : List Nat} {d e : Dev} (h : regsBut keys d e) (f : HostSide → HostSide) : regsBut keys d (e.onHost f) := h

theorem regsBut_trained (d : Dev) (gen width log2 : Nat) (cfg : HostCfg) : regsBut (linkKeys ++ eventKeys) d (d.trained gen width log2 cfg) := by
  have hup := (regsBut.refl (linkKeys ++ eventKeys) d).wr (f := Reg.HST_UP.at []) 1 (by decide)
  have hgen := hup.wr (f := Reg.HST_GEN.at []) gen (by decide)
  have hwidth := hgen.wr (f := Reg.HST_WIDTH.at []) width (by decide)
  have hraise := hwidth.raise 0x0236 8 0 [gen, width] false false (fun _ h => List.mem_append_right _ h)
  exact (hraise.wr (f := Reg.HST_BAR2_LOG2.at []) log2 (by decide)).onHost _

theorem raised_trained (d : Dev) (gen width log2 : Nat) (cfg : HostCfg) : raised 0x0236 8 0 [gen, width] d (d.trained gen width log2 cfg) := by
  have hraised : raised 0x0236 8 0 [gen, width] d ((d.linkTrained gen width).raise 0x0236 8 0 [gen, width]) :=
    raised_raise 0x0236 8 0 [gen, width] false false rfl (rd_linkTrained d gen width (by decide))
  have hseq : (d.trained gen width log2 cfg).rd (Reg.TOP_EVT_SEQ.at []) =
      ((d.linkTrained gen width).raise 0x0236 8 0 [gen, width]).rd (Reg.TOP_EVT_SEQ.at []) := by
    rw [rd_trained, Dev.rd_wr_ne _ _ (by decide)]
  exact hraised.congr rfl hseq

/-- Neither the link's fields nor an event's are in the MSI-X table. -/
theorem key_msix_not_link {r : RegDef} (hr : 0x410000 ≤ r.base) (idx : List Nat) : (r.at idx).key ∉ linkKeys ++ eventKeys := by
  have hle := r.base_le_key idx
  have hsmall : ∀ k ∈ linkKeys ++ eventKeys, k < 0x410000 * 32 := by decide
  intro hm
  have := hsmall _ hm
  omega

/-- A vector is due once the link is trained if it was pending and the new configuration allows its message. -/
theorem vectorDue_trained (d : Dev) (gen width log2 v : Nat) (cfg : HostCfg) : (d.trained gen width log2 cfg).vectorDue v = true ↔
    d.rd (pbaFld v) ≠ 0 ∧ cfg.msixEn = true ∧ cfg.funcMask = false ∧ d.rd (Reg.HST_MSIX_MASK.at [v]) = 0 := by
  have hbut := regsBut_trained d gen width log2 cfg
  have hpba := (hbut (pbaFld v) (key_msix_not_link (r := Reg.HST_MSIX_PBA) (by decide) _)).1
  have hmask := (hbut (Reg.HST_MSIX_MASK.at [v]) (key_msix_not_link (r := Reg.HST_MSIX_MASK) (by decide) _)).1
  rw [vectorDue_iff, hpba, hmask]
  rfl

/-- A generation and a width that a link may have fit their fields (R391). -/
theorem wf_hostLinkUp {gen width log2 : Nat} {cfg : HostCfg} (h : (Instr.hostLinkUp gen width log2 cfg).wf = true) : gen < 8 ∧ width < 16 := by
  simp only [Instr.wf, linkConfig, Bool.and_eq_true, decide_eq_true_eq, List.contains_iff_mem] at h
  simp at h
  omega

section
variable {s : State} (h : s.dev.held = false)
include h

/-- HOST_LINK_UP trains the link (R391), serves the vectors that were pending (R392), and then the stream units' writes go on. -/
theorem hostLinkUp_spec {gen width log2 : Nat} {cfg : HostCfg} (hwf : (Instr.hostLinkUp gen width log2 cfg).wf = true) {P : Dev → Prop}
    (hp : ∀ e, vectorsServed 64 (s.dev.trained gen width log2 cfg) e → linkKept (s.dev.trained gen width log2 cfg) e →
      ((∀ v < 64, ¬ (s.dev.trained gen width log2 cfg).vectorDue v = true) → e = s.dev.trained gen width log2 cfg) → P e.suFlushAll) :
    completes (.hostLinkUp gen width log2 cfg) s P :=
  completes_actIf (exec_hostLinkUp gen width log2 cfg s) hwf h
    (hp _ (vectorsServed_upTo _ 64 (Nat.le_refl _)) (linkKept_upTo 64 _ _ fun v e => linkKept_unmask e v) fun hno => upTo_fixed fun v hv => unmask_fixed (hno v hv))

end

theorem hostLinkUp_malformed (s : State) {gen width log2 : Nat} {cfg : HostCfg} (hwf : (Instr.hostLinkUp gen width log2 cfg).wf = false) :
    exec (.hostLinkUp gen width log2 cfg) s = .fault .illFormed := by
  rw [exec_hostLinkUp, execHostLinkUp, hwf]
  rfl

/-! ### ENDPOINT_RESET -/

theorem Tab.get_filter {α : Type} (d : α) (t : Tab α) (p : Nat → Bool) (k : Nat) :
    Tab.get d (t.filter (fun e => p e.1)) k = if p k then Tab.get d t k else d := by
  unfold Tab.get
  induction t with
  | nil => simp [Tab.find]
  | cons e t ih =>
    obtain ⟨j, v⟩ := e
    rw [List.filter_cons, Tab.find]
    by_cases hk : k = j
    · subst hk
      cases hp : p k <;> simp_all [Tab.find]
    · cases hp : p j <;> simp_all [Tab.find]

/-- The device whose rings, windows, MSI-X table and counters are reset. -/
def Dev.endpointCleared (d : Dev) : Dev := { d with regs := d.regs.filter (fun e => !endpointReg e.1) }

theorem rd_endpointCleared_reset {d : Dev} {g : Fld} (hg : endpointReg g.key = true) (hr : g.rws = false) : d.endpointCleared.rd g = g.reset := by
  simp [Dev.rd, hr, Dev.endpointCleared, Tab.get_filter _ _ (fun k => !endpointReg k), hg]

theorem rd_endpointCleared_kept {d : Dev} {g : Fld} (hg : endpointReg g.key = false) : d.endpointCleared.rd g = d.rd g := by
  simp [Dev.rd, Dev.endpointCleared, Tab.get_filter _ _ (fun k => !endpointReg k), hg]

/-- The registers of the streams (R395). -/
def streamReg (key : Nat) : Prop := 0x402000 * 32 ≤ key ∧ key < 0x402400 * 32

theorem streamReg_writing {k : Nat} (hk : k < 16) : streamReg (Reg.STR_WRITING.at [k]).key := by
  have hkey : (Reg.STR_WRITING.at [k]).key = (0x40202C + (0x40 * k + 0)) * 32 + (0 + (0 * k + 0)) := rfl
  rw [hkey]
  exact ⟨by omega, by omega⟩

theorem not_streamReg_of_endpointReg {key : Nat} (h : endpointReg key = true) : ¬ streamReg key := by
  simp only [endpointReg, Bool.and_eq_true, Bool.not_eq_true', Bool.and_eq_false_iff, decide_eq_false_iff_not] at h
  unfold streamReg
  omega

/-- `e` is `d` without the copies that were in progress on streams below `n`. -/
structure copiesDropped (n : Nat) (d e : Dev) : Prop where
  rd : ∀ g : Fld, ¬ streamReg g.key → e.rd g = d.rd g
  frame : e = { d with regs := e.regs, streams := e.streams }
  none : ∀ k < n, (e.stream k).desc = none

/-- One round of `dropCopies`. -/
def Dev.dropCopy (s : Nat) (d : Dev) : Dev :=
  if (d.stream s).desc.isNone then d
  else
    let d := if d.rd (Reg.STR_WRITING.at [s]) = (d.stream s).copyBuf then d.wr (Reg.STR_WRITING.at [s]) 15 else d
    d.onStream s (fun q => { q with desc := none, aborted := false, copyBuf := 15 })

theorem copiesDropped.succ {n : Nat} {d e : Dev} (h : copiesDropped n d e) (hn : n < 16) : copiesDropped (n + 1) d (e.dropCopy n) := by
  unfold Dev.dropCopy
  split
  next hnone =>
    refine ⟨h.rd, h.frame, fun k hk => ?_⟩
    by_cases heq : k = n
    · rw [heq]
      exact Option.isNone_iff_eq_none.1 hnone
    · exact h.none k (by omega)
  next =>
    extract_lets e1
    have hrd1 (g : Fld) (hg : ¬ streamReg g.key) : e1.rd g = d.rd g := by
      simp only [e1]
      split
      · have hne : g.key ≠ (Reg.STR_WRITING.at [n]).key := fun heq => hg (by rw [heq]; exact streamReg_writing hn)
        exact (Dev.rd_wr_ne e 15 hne).trans (h.rd g hg)
      · exact h.rd g hg
    have hframe1 : e1 = { d with regs := e1.regs, streams := e.streams } := by
      simp only [e1]
      split
      · rw [Dev.wr_plain _ _ rfl, h.frame]
      · exact h.frame
    have hstreams1 : e1.streams = e.streams := by rw [hframe1]
    clear_value e1
    refine ⟨hrd1, ?_, fun k hk => ?_⟩
    · rw [Dev.onStream, hframe1]
    · by_cases heq : k = n
      · subst heq
        rw [Dev.stream, Dev.onStream, Tab.get_modify_same]
      · rw [Dev.stream, Dev.onStream, Tab.get_modify_ne _ _ _ heq, hstreams1]
        exact h.none k (by omega)

theorem copiesDropped_upTo (d : Dev) : ∀ n ≤ 16, copiesDropped n d (upTo n Dev.dropCopy d)
  | 0, _ => ⟨fun _ _ => rfl, rfl, fun _ h => absurd h (Nat.not_lt_zero _)⟩
  | n + 1, hn => by
    rw [upTo_succ]
    exact (copiesDropped_upTo d n (by omega)).succ hn

theorem copiesDropped_dropCopies (d : Dev) : copiesDropped 16 d d.dropCopies := copiesDropped_upTo d 16 (Nat.le_refl _)

theorem wr_live (d : Dev) {f : Fld} (v : Nat) (hf : f.rws = false) : (d.wr f v).live = d.live := by rw [Dev.wr_plain d v hf]

theorem wrIf_live (d : Dev) {f : Fld} (b : Bool) (v : Nat) (hf : f.rws = false) : (d.wrIf b f v).live = d.live := by
  cases b
  · rfl
  · exact wr_live d v hf

theorem raise_live (d : Dev) (a b c : Nat) (l : List Nat) (p q : Bool) : (d.raise a b c l p q).live = d.live := by
  unfold Dev.raise
  show (Dev.wrIf (Dev.wrIf (Dev.wr _ _ _) _ _ _) _ _ _).live = _
  rw [wrIf_live _ _ _ rfl, wrIf_live _ _ _ rfl, wr_live _ _ rfl]

/-- What taking the link down leaves of the rest of the device. -/
theorem linkDown_kept (d : Dev) : d.linkDown.mem = d.mem ∧ d.linkDown.hostMem = d.hostMem ∧ d.linkDown.live = d.live ∧ d.linkDown.shadow = d.shadow := by
  unfold Dev.linkDown
  split
  · refine ⟨by simp [Dev.set], by simp [Dev.set], ?_, by simp [Dev.set]⟩
    rw [raise_live, wr_live _ _ rfl, wr_live _ _ rfl]
    exact wr_live d _ rfl
  · exact ⟨rfl, rfl, rfl, rfl⟩

theorem linkDown_fields {d : Dev} (hup : d.rd (Reg.HST_UP.at []) ≠ 0) :
    d.linkDown.rd (Reg.HST_UP.at []) = 0 ∧ d.linkDown.rd (Reg.HST_GEN.at []) = 0 ∧ d.linkDown.rd (Reg.HST_WIDTH.at []) = 0 ∧
      raised 0x0230 8 0 [] d d.linkDown := by
  have hbit : d.bit (Reg.HST_UP.at []) = true := by simpa [Dev.bit] using hup
  rw [Dev.linkDown, if_pos hbit]
  refine ⟨?_, ?_, ?_, ?_⟩
  · rw [Dev.rd_raise _ _ _ _ _ _ _ (by decide), Dev.rd_wr_ne _ _ (by decide), Dev.rd_wr_ne _ _ (by decide)]
    exact Dev.rd_wr_same ..
  · rw [Dev.rd_raise _ _ _ _ _ _ _ (by decide), Dev.rd_wr_ne _ _ (by decide)]
    exact Dev.rd_wr_same ..
  · rw [Dev.rd_raise _ _ _ _ _ _ _ (by decide)]
    exact Dev.rd_wr_same ..
  · refine raised_raise 0x0230 8 0 [] false false rfl ?_
    rw [Dev.rd_wr_ne _ _ (by decide), Dev.rd_wr_ne _ _ (by decide)]
    exact Dev.rd_wr_ne _ _ (by decide)

theorem linkDown_fixed {d : Dev} (hup : d.rd (Reg.HST_UP.at []) = 0) : d.linkDown = d := by
  have hbit : ¬ d.bit (Reg.HST_UP.at []) = true := by simp [Dev.bit, hup]
  exact if_neg hbit

theorem rd_up_linkDown (d : Dev) : d.linkDown.rd (Reg.HST_UP.at []) = 0 := by
  by_cases hup : d.rd (Reg.HST_UP.at []) = 0
  · rw [linkDown_fixed hup, hup]
  · exact (linkDown_fields hup).1

/-- What a reset does to the link first: a function-level reset leaves it up. -/
def Dev.resetLink (d : Dev) (cause : EndpointCause) : Dev := if cause = .flr then d else d.linkDown

/-- What a reset does after that: the endpoint and the HST block are reset. -/
def Dev.resetEndpoint (d : Dev) : Dev :=
  d.endpointCleared.dropCopies.onHost (fun h =>
    { h with unsent := [], irqs := [], resGap := false, answer := none, reads := [], cfg := {}, bar2Log2 := 28 })

theorem exec_endpointReset_act (cause : EndpointCause) (s : State) :
    exec (.endpointReset cause) s = s.act (fun d => (d.resetLink cause).resetEndpoint) := by
  rw [exec_endpointReset]
  cases cause <;> rfl

/-- `e` is `d` with the endpoint and the HST block reset: nothing outside that block and the streams' copies changes. -/
structure endpointWasReset (d e : Dev) : Prop where
  reset : ∀ g : Fld, endpointReg g.key = true → g.rws = false → e.rd g = g.reset
  kept : ∀ g : Fld, endpointReg g.key = false → ¬ streamReg g.key → e.rd g = d.rd g
  mem : e.mem = d.mem
  hostMem : e.hostMem = d.hostMem
  live : e.live = d.live
  shadow : e.shadow = d.shadow
  events : e.events = d.events
  streams : ∀ k < 16, (e.stream k).desc = none
  unsent : e.host.unsent = []
  bar2Log2 : e.host.bar2Log2 = 28

theorem endpointWasReset_resetEndpoint (d : Dev) : endpointWasReset d d.resetEndpoint := by
  have hdropped := copiesDropped_dropCopies d.endpointCleared
  unfold Dev.resetEndpoint
  generalize d.endpointCleared.dropCopies = e at hdropped
  obtain ⟨hrd, hframe, hnone⟩ := hdropped
  refine ⟨fun g hg hr => ?_, fun g hg hs => ?_, ?_, ?_, ?_, ?_, ?_, hnone, rfl, rfl⟩
  · exact (hrd g (not_streamReg_of_endpointReg hg)).trans (rd_endpointCleared_reset hg hr)
  · exact (hrd g hs).trans (rd_endpointCleared_kept hg)
  · exact (congrArg (fun x : Dev => x.mem) hframe :)
  · exact (congrArg (fun x : Dev => x.hostMem) hframe :)
  · exact (congrArg (fun x : Dev => x.live) hframe :)
  · exact (congrArg (fun x : Dev => x.shadow) hframe :)
  · exact (congrArg (fun x : Dev => x.events) hframe :)

end Sys2Proof.Machine

/-! PROOFS. Host accesses (R8, R31, R157, R238, R369, R387, R389, R390, R393, R421): the statement assembled. -/

namespace Sys2Proof.Machine

/-! ### Before RUNNING (R421) -/

theorem exec_nonceRead (s : State) : exec .nonceRead s = execNonceRead s := rfl

theorem exec_edidDone (m : Fin 4) (s : State) : exec (.edidDone m) s = execEdidDone m s := rfl

theorem exec_wdata (v : Word) (s : State) : exec (.wdata v) s = execWdata v s := rfl

theorem exec_cgo (s : State) : exec .cgo s = execCgo s := rfl

theorem exec_apply (s : State) : exec .apply s = execApply s := rfl

theorem exec_close (s : State) : exec .close s = execClose s := rfl

theorem exec_authWrite (v : Word) (s : State) : exec (.authWrite v) s = execAuthWrite v s := rfl

theorem exec_handover (s : State) : exec .handover s = execHandover s := rfl

theorem exec_rescan (mask : BitVec 2) (s : State) : exec (.rescan mask) s = execRescan mask s := rfl

theorem exec_resetZones (v : Word) (s : State) : exec (.resetZones v) s = execResetZones v s := rfl

section
variable {s : State} {i : Instr} {f : Dev → Dev} (h : s.dev.held = false) (hshut : s.dev.hostOpen = false)
include h hshut

theorem completes_actHost_shut (he : exec i s = s.actHost f) : completes i s (fun e => e = s.dev) :=
  completes_act he h (if_neg (by simp [hshut]))

theorem completes_readHost_shut (he : exec i s = s.readHost f) :
    completes i s (fun e => e = { s.dev with host := { s.dev.host with lastRead := 0 } }) :=
  completes_act he h (if_neg (by simp [hshut]))

end

section
variable (c : Fin 72) (u : Fin 128) (n : Fin 8) (m : Fin 4) (o : Fin 2) (r : Fin 16) (mask : BitVec 16) (wb : BitVec 4) (two : BitVec 2) (b : Bool)
  (v : Word)

/-- The register reads with an effect that the host may make only once the part is RUNNING. -/
def hostReads : List Instr := [.macLoRead c, .bytesLoRead u, .curveDataRead c, .sigRead o r, .zoneLtLoRead, .nonceRead]

/-- The register writes that the host may make only once the part is RUNNING. -/
def hostWrites : List Instr := [.wbOwn o wb, .start o, .forceBg o b, .forceGuard mask, .gforced o r, .mcCntClear c, .suCntClear u, .clCntClear n,
  .ddrCntClear, .inCntClear m, .peakClear, .edidDone m, .wdata v, .cgo, .apply, .close, .authWrite v, .handover, .rescan two, .resetZones v]

variable {s : State} (h : s.dev.held = false) (hshut : s.dev.hostOpen = false)
include h hshut

theorem hostReads_shut : ∀ j ∈ hostReads c u o r,
    completes j s (fun e => e = { s.dev with host := { s.dev.host with lastRead := 0 } }) := by
  simp only [hostReads, List.forall_mem_cons]
  exact ⟨completes_readHost_shut h hshut (exec_macLoRead c s), completes_readHost_shut h hshut (exec_bytesLoRead u s),
    completes_readHost_shut h hshut (exec_curveDataRead c s), completes_readHost_shut h hshut (exec_sigRead o r s),
    completes_readHost_shut h hshut (exec_zoneLtLoRead s), completes_readHost_shut h hshut (exec_nonceRead s), List.forall_mem_nil _⟩

theorem hostWrites_shut : ∀ j ∈ hostWrites c u n m o r mask wb two b v, completes j s (fun e => e = s.dev) := by
  simp only [hostWrites, List.forall_mem_cons]
  exact ⟨completes_actHost_shut h hshut (exec_wbOwn o wb s), completes_actHost_shut h hshut (exec_start o s),
    completes_actHost_shut h hshut (exec_forceBg o b s), completes_actHost_shut h hshut (exec_forceGuard mask s),
    completes_actHost_shut h hshut (exec_gforced o r s), completes_actHost_shut h hshut (exec_mcCntClear c s),
    completes_actHost_shut h hshut (exec_suCntClear u s), completes_actHost_shut h hshut (exec_clCntClear n s),
    completes_actHost_shut h hshut (exec_ddrCntClear s), completes_actHost_shut h hshut (exec_inCntClear m s),
    completes_actHost_shut h hshut (exec_peakClear s), completes_actHost_shut h hshut (exec_edidDone m s),
    completes_actHost_shut h hshut (exec_wdata v s), completes_actHost_shut h hshut (exec_cgo s),
    completes_actHost_shut h hshut (exec_apply s), completes_actHost_shut h hshut (exec_close s),
    completes_actHost_shut h hshut (exec_authWrite v s), completes_actHost_shut h hshut (exec_handover s),
    completes_actHost_shut h hshut (exec_rescan two s), completes_actHost_shut h hshut (exec_resetZones v s), List.forall_mem_nil _⟩

end

/-! ### Single accesses -/

/-- The window is frozen by a violation (R369): an event, and memory as it was. -/
def frozenBy (d : Dev) (code : Nat) (args : List Nat) (e : Dev) : Prop :=
  e.rd (Reg.TOP_FROZEN_BAR2.at []) = 1 ∧ raised code 7 2 args d e ∧ e.mem = d.mem

section
variable {s : State} {off i : Nat} {data : Bytes} (h : s.dev.held = false)
include h

section
variable (ho : s.dev.bar2Open) (hb : s.dev.inBar2At off data.length) (hi : i < data.length)
  (hw : ∀ j < i, s.dev.bar2Writable (s.dev.bar2Addr off + j))
include ho hb hi hw

theorem bar2Write_image (hr : s.dev.region (s.dev.bar2Addr off + i) = .ddr)
    (him : s.dev.activeImage.1 ≤ s.dev.bar2Addr off + i ∧ s.dev.bar2Addr off + i < s.dev.activeImage.1 + s.dev.activeImage.2) :
    completes (.bar2Write off data) s (fun e => frozenBy s.dev 0x0910 [] e) := by
  have hcode := bar2Code_image hr him
  refine bar2Write_violation h ho hb hi hw (by rw [hcode]; decide) ?_
  rw [hcode, if_neg (by decide), if_neg (by decide)]
  exact bar2Violation_spec 0x0910 [] rfl rfl rfl

theorem bar2Write_lantern {z : Nat} (hr : s.dev.region (s.dev.bar2Addr off + i) = .lantern z) :
    completes (.bar2Write off data) s (fun e => frozenBy s.dev 0x0420 [] e ∧ counted (Reg.LAN_DENIED.at []) s.dev e) := by
  have hcode := bar2Code_lantern hr
  refine bar2Write_violation h ho hb hi hw (by rw [hcode]; decide) ?_
  rw [hcode, if_pos rfl, if_neg (by decide)]
  refine ⟨bar2Violation_spec 0x0420 [] rfl (Dev.rd_wr_ne _ _ (by decide)) rfl, ?_⟩
  have hcount : (s.dev.inc (Reg.LAN_DENIED.at [])).rd (Reg.LAN_DENIED.at []) =
      (s.dev.rd (Reg.LAN_DENIED.at []) + 1) % 2 ^ (Reg.LAN_DENIED.at []).width := Dev.rd_wr_same ..
  exact ((Dev.rd_raise _ _ _ _ _ _ _ (by decide)).trans (Dev.rd_wr_ne _ _ (by decide))).trans hcount

theorem bar2Write_other (hr : s.dev.region (s.dev.bar2Addr off + i) ≠ .ddr) (hl : ∀ z, s.dev.region (s.dev.bar2Addr off + i) ≠ .lantern z) :
    completes (.bar2Write off data) s (fun e => frozenBy s.dev 0x0710 (addrArgs (s.dev.bar2Addr off + i)) e) := by
  have hcode := bar2Code_other hr hl
  refine bar2Write_violation h ho hb hi hw (by rw [hcode]; decide) ?_
  rw [hcode, if_neg (by decide), if_pos rfl]
  exact bar2Violation_spec 0x0710 _ rfl rfl rfl

end

/-- ENDPOINT_RESET by its cause: every cause but a function-level reset takes the link down first (R387). -/
theorem endpointReset_spec (cause : EndpointCause) : completes (.endpointReset cause) s (fun e =>
    (∀ g : Fld, endpointReg g.key = true → g.rws = false → e.rd g = g.reset) ∧ e.mem = s.dev.mem ∧ e.hostMem = s.dev.hostMem ∧
      e.live = s.dev.live ∧ e.shadow = s.dev.shadow ∧ (∀ k < 16, (e.stream k).desc = none) ∧ e.host.unsent = [] ∧ e.host.bar2Log2 = 28 ∧
      (cause ≠ .flr → e.rd (Reg.HST_UP.at []) = 0 ∧ (s.dev.rd (Reg.HST_UP.at []) ≠ 0 →
        e.rd (Reg.HST_GEN.at []) = 0 ∧ e.rd (Reg.HST_WIDTH.at []) = 0 ∧ raised 0x0230 8 0 [] s.dev e)) ∧
      (cause = .flr → e.rd (Reg.HST_UP.at []) = s.dev.rd (Reg.HST_UP.at []) ∧ e.events = s.dev.events)) := by
  refine completes_act (exec_endpointReset_act cause s) h ?_
  have hreset := endpointWasReset_resetEndpoint (s.dev.resetLink cause)
  generalize (s.dev.resetLink cause).resetEndpoint = e at hreset
  have hlink (g : Fld) (hg : endpointReg g.key = false) (hs : ¬ (0x402000 * 32 ≤ g.key ∧ g.key < 0x402400 * 32)) := hreset.kept g hg hs
  have hup := hlink (Reg.HST_UP.at []) (by decide) (by decide)
  have hgen := hlink (Reg.HST_GEN.at []) (by decide) (by decide)
  have hwidth := hlink (Reg.HST_WIDTH.at []) (by decide) (by decide)
  have hseq := hlink (Reg.TOP_EVT_SEQ.at []) (by decide) (by decide)
  obtain ⟨hfields, -, hmem, hhostMem, hlive, hshadow, hevents, hstreams, hunsent, hlog2⟩ := hreset
  by_cases hc : cause = .flr
  · have hsame : s.dev.resetLink cause = s.dev := if_pos hc
    rw [hsame] at hmem hhostMem hlive hshadow hevents hup
    exact ⟨hfields, hmem, hhostMem, hlive, hshadow, hstreams, hunsent, hlog2, fun hne => absurd hc hne, fun _ => ⟨hup, hevents⟩⟩
  · have hdown : s.dev.resetLink cause = s.dev.linkDown := if_neg hc
    obtain ⟨hkmem, hkhost, hklive, hkshadow⟩ := linkDown_kept s.dev
    rw [hdown] at hmem hhostMem hlive hshadow hevents hup hgen hwidth hseq
    refine ⟨hfields, hmem.trans hkmem, hhostMem.trans hkhost, hlive.trans hklive, hshadow.trans hkshadow, hstreams, hunsent, hlog2,
      fun _ => ⟨hup.trans (rd_up_linkDown _), fun hwas => ?_⟩, fun hflr => absurd hflr hc⟩
    obtain ⟨-, hgenDown, hwidthDown, hraised⟩ := linkDown_fields hwas
    exact ⟨hgen.trans hgenDown, hwidth.trans hwidthDown, hraised.congr hevents hseq⟩

/-- HOST_LINK_UP, with what it leaves where no stream unit has a write that waits. -/
theorem hostLinkUp_effect {gen width log2 : Nat} {cfg : HostCfg} (hwf : (Instr.hostLinkUp gen width log2 cfg).wf = true) :
    let due (v : Nat) : Prop := s.dev.rd (pbaFld v) ≠ 0 ∧ cfg.msixEn = true ∧ cfg.funcMask = false ∧ s.dev.rd (Reg.HST_MSIX_MASK.at [v]) = 0
    completes (.hostLinkUp gen width log2 cfg) s (fun e => e.rd (Reg.HST_UP.at []) = 1 ∧ e.rd (Reg.HST_GEN.at []) = gen ∧
      e.rd (Reg.HST_WIDTH.at []) = width ∧ e.host.bar2Log2 = log2 ∧ holds e (Reg.HST_BAR2_LOG2.at []) log2 ∧
      ((∀ k < 128, (s.dev.su k).work = []) → e.host.cfg = cfg ∧ raised 0x0236 8 0 [gen, width] s.dev e ∧
        (∀ v < 64, due v → v ∈ e.host.irqs ∧ e.rd (pbaFld v) = 0) ∧ ((∀ v < 64, ¬ due v) → regsBut (linkKeys ++ eventKeys) s.dev e))) := by
  intro due
  refine hostLinkUp_spec h hwf fun e hserved hkept hfixed => ?_
  obtain ⟨hup, hgen, hwidth, hlog2⟩ := trained_link s.dev gen width log2 cfg
  obtain ⟨hgenLt, hwidthLt⟩ := wf_hostLinkUp hwf
  have hdue (v : Nat) := vectorDue_trained s.dev gen width log2 v cfg
  have hraised := raised_trained s.dev gen width log2 cfg
  have hbut := regsBut_trained s.dev gen width log2 cfg
  have hsus := trained_sus s.dev gen width log2 cfg
  have hcfg := trained_cfg s.dev gen width log2 cfg
  have hbar2 := trained_bar2Log2 s.dev gen width log2 cfg
  generalize s.dev.trained gen width log2 cfg = t at *
  obtain ⟨hrd, hbar2Kept⟩ := hkept.trans (linkKept_suFlushAll e)
  refine ⟨(hrd _ (by decide)).trans hup, ((hrd _ (by decide)).trans hgen).trans (Nat.mod_eq_of_lt hgenLt),
    ((hrd _ (by decide)).trans hwidth).trans (Nat.mod_eq_of_lt hwidthLt), hbar2Kept.trans hbar2, (hrd _ (by decide)).trans hlog2, fun hidle => ?_⟩
  have hwork (k : Nat) (hk : k < 128) : (e.su k).work = [] := by
    rw [Dev.su, hserved.sus, hsus]
    exact hidle k hk
  have hseq : e.rd (Reg.TOP_EVT_SEQ.at []) = t.rd (Reg.TOP_EVT_SEQ.at []) :=
    hserved.rd _ fun v _ heq => key_msix_not_link (r := Reg.HST_MSIX_PBA) (by decide) [v / 32, v % 32]
      (heq ▸ (by decide : (Reg.TOP_EVT_SEQ.at []).key ∈ linkKeys ++ eventKeys))
  rw [suFlushAll_idle e hwork]
  refine ⟨hserved.cfg.trans hcfg, hraised.congr hserved.events hseq, fun v hv hd => hserved.sent v hv ((hdue v).2 hd), fun hno => ?_⟩
  rw [hfixed fun v hv hd => hno v hv ((hdue v).1 hd)]
  exact hbut

end

/-- Settles O45: each access to BAR2 and to a register, HOST_LINK_UP and ENDPOINT_RESET have a lemma of their own; before RUNNING the commands to other
blocks do nothing. -/
theorem hostAccess : Obligations.HostAccess := by
  intro s off len i data w v g idx c u n m o r mask wb two b h d a inBar open_ image imageEnd writable frozen f x word plain
  have hword (hp : word) : s.dev.plainWord w.toNat g idx := hp
  have hx : x < 2 ^ f.width := fieldOf_lt g idx v.toNat
  refine ⟨bar2Write_refused h, bar2Write_served h, fun ho hb hi hw => ⟨fun hr hlo hhi => bar2Write_image h ho hb hi hw hr ⟨hlo, hhi⟩,
    fun ⟨z, hr⟩ => bar2Write_lantern h ho hb hi hw hr, bar2Write_other h ho hb hi hw⟩, bar2Read_outside h, bar2Read_shut h,
    fun hb ho hecc => ⟨bar2Read_ddr h hb ho hecc, fun k z hr => ⟨bar2Read_sp_on h hb ho hecc hr, bar2Read_sp_waking h hb ho hr⟩, bar2Read_unserved h hb ho⟩,
    registerWrite_unreached v h, fun hp ha => registerWrite_plain v h (hword hp) (writeField_ro _ ha), fun hp ha hq hm => ?_, fun hp ha hring => ?_,
    fun hp ha hf hw => ?_, fun hp ha harmed => ?_, fun hp ha harmed hlt => ?_, endpointReset_spec h,
    fun gen width log2 cfg => ⟨hostLinkUp_effect h, hostLinkUp_malformed s⟩,
    fun hshut => ⟨hostReads_shut c u o r h hshut, hostWrites_shut c u n m o r mask wb two b v h hshut⟩⟩
  · refine registerWrite_plain v h (hword hp.1) ?_
    rw [writeField_rw _ hp.2 ha, writeNow_plain _ hq hm]
    exact wr_spec s.dev f hx
  · obtain ⟨q, hq, hen⟩ := hring
    refine registerWrite_plain v h (hword hp.1) ?_
    rw [writeField_rw _ hp.2 ha]
    exact writeNow_ring_on _ hq hen
  · refine registerWrite_plain v h (hword hp.1) ?_
    rw [writeField_w1c _ hp.2 ha]
    exact w1c_spec s.dev f x hf hw
  · refine registerWrite_plain v h (hword hp.1) ?_
    rw [writeField_rws _ hp.2 ha harmed]
    exact wrS_spec s.dev f (by rw [RegDef.at_rws, ha]; rfl) hx
  · refine registerWrite_plain v h (hword hp.1) ?_
    rw [writeField_rws_armed _ hp.2 ha harmed]
    exact lateWrite_spec s.dev w.toNat hlt

end Sys2Proof.Machine
